-- ==== Sys2Proof/Word.lean ====
section
/-! DEFINITION. The word types of the ZLM-3192: every software-visible register is 32 bits wide (R2), a
64-bit quantity is a pair of them (R3), and memory is bytes, little-endian. -/
namespace Sys2Proof

abbrev Byte := BitVec 8
abbrev W16 := BitVec 16
abbrev W32 := BitVec 32
abbrev W64 := BitVec 64

end Sys2Proof
end

