-- ==== Sys2Proof/Syntax.lean ====
section
/-! DEFINITION. The commands the device takes: one constructor of `Instr` per row of spec/opcode_table.json,
in the table's order, with the operands that come from outside (an address, a value, the bytes a host buffer
holds, the outcome of an external measurement). What the device itself holds is in the state, not here. -/
namespace Sys2Proof

/-- The three watched rails of R14. -/
inductive Rail where
  | vddCore | vddSoc | vddaSd
deriving DecidableEq, Repr

/-- A Basut submission without its opcode: the row names the opcode (R107). `params` is the 48 bytes P+0 to
P+47, byte P+n at bits [8n+7:8n]. -/
structure Sub where
  flags  : W16 := 0
  tag    : W16 := 0
  rsvd   : W16 := 0
  stroke : W64 := 0
  params : BitVec 384 := 0
deriving DecidableEq, Repr

/-- What comes back for an SQ read (R105): its bytes, poisoned data, or UR or CA. -/
inductive SqData where
  | bytes (data : List Byte) | poisoned | failed
deriving DecidableEq, Repr

/-- What the controller reads from the DRAM devices of the four channels and what training finds (R374):
capacity in GiB and rank count per channel, and per channel the rates that pass (bit 0 8,533, bit 1 7,500,
bit 2 6,400 MT/s). `repaired` lists the remapped rows whose bank still reported a repair resource (R379). -/
structure DramFit where
  capGib   : List Nat
  ranks    : List Nat
  pass     : List (BitVec 3)
  repaired : List Nat := []
deriving DecidableEq, Repr

/-- What the firmware reads from the fitted NAND at a power-on (R450, R451, R474): chip enables per channel,
LUNs per chip enable, planes, blocks per LUN, pages per block, the parameter-page endurance, whether every chip
enable agrees and is on the qualified list, and the factory-marked bad blocks. -/
structure NandFit where
  ces       : Nat
  luns      : Nat
  planes    : Nat
  blocks    : Nat
  pages     : Nat
  endurance : Nat
  qualified : Bool
  factoryBad : List Nat := []
deriving DecidableEq, Repr

/-- The errors of R105's table. -/
inductive TlpError where
  | receiver | badTlp | badDllp | replayTimeout | replayRollover | dlProtocol | rxOverflow | malformed | ecrc
  | poisonedWrite | poisonedCompletion | completionTimeout | unsupportedRequest | completerAbort | unexpectedCompletion
  | correctedInternal | uncorrectableInternal
deriving DecidableEq, Repr

/-- A master of the bus matrix, or of a course's own registers (R381, R391). -/
inductive Master where
  | pf | vf (v : Nat) | pegbox | engine (course phys : Nat) | courseDma (course : Nat) | link (k : Nat)
deriving DecidableEq, Repr

/-- A physical engine: course 0 to 15, physical engine 0 to 12 (R201). -/
structure Eng where
  course : Nat
  phys   : Nat
deriving DecidableEq, Repr

/-- A gPTP time: PTP seconds, nanoseconds, and the correction in vt (R131). -/
structure PtpTime where
  sec  : Nat
  ns   : Nat
  /-- The correction field, in units of 2^-16 ns. -/
  corr : Int := 0
deriving DecidableEq, Repr

/-- A received Sync (R138, R158); `time` is what a one-step Sync carries. -/
structure SyncMsg where
  gm       : W64
  domain   : Byte
  seq      : W16
  twoStep  : Bool
  logIntvl : Int
  time     : PtpTime
deriving DecidableEq, Repr

/-- A received Announce: the 802.1AS priority vector (R158). -/
structure AnnounceMsg where
  gm           : W64
  domain       : Byte
  priority1    : Byte
  clockClass   : Byte
  accuracy     : Byte
  variance     : W16
  priority2    : Byte
  stepsRemoved : W16
  timeSource   : Byte := 0
deriving DecidableEq, Repr

/-- A received Pdelay message, or a peer message with no row of its own (R158): a request; a response with the stamps t2
and t3 of the peer, in vt; a response lost; a Signaling message that asks for a logSyncInterval. -/
inductive PdelayMsg where
  | req (seq : W16)
  | resp (seq : W16) (t2 t3 : W64)
  | lost
  | signaling (logSync : Int)
deriving DecidableEq, Repr

/-- A received CAN frame (R444). `dlc` is the byte length the DLC gives; `remote` a remote frame. -/
structure CanFrame where
  id     : BitVec 29
  ide    : Bool
  fdf    : Bool
  brs    : Bool
  remote : Bool := false
  data   : List Byte
deriving DecidableEq, Repr

/-- The header check of a CSI-2 packet: intact, one bit corrected, or a two-bit error (R437). -/
inductive HdrEcc where
  | ok | corrected | bad
deriving DecidableEq, Repr

/-- A memory with a code of its own in R368, as the error registers and the fault sources name it (R372). -/
inductive MemInst where
  | lsp (course phys : Nat) | csm (course : Nat) | dram (channel : Nat) | emram | sram (i : Nat)
deriving DecidableEq, Repr

/-- The unit classes of R528. -/
inductive UnitClass where
  | engine | csmBank | brlLane | pegbox | osc | lspRow | emrRow | dramRow | nandBlock
deriving DecidableEq, Repr

/-- A row copied by the spare port (R367) or by the DRAM remap (R379). -/
inductive RowCopy where
  | csm (course spare row : Nat) | dram (channel entry : Nat)
deriving DecidableEq, Repr

/-- A core a debugger can halt through the test port (R419). -/
inductive DebugCore where
  | engine (course phys : Nat) | pegbox
deriving DecidableEq, Repr

/-- The register spaces of a write with no row of its own: PF or VF BAR0, and the standard configuration-space
controls the spec names (R71, R72, R73, R101, R104). -/
inductive RegSpace where
  | bar0 (m : Master) | cfgVfs (numVfs : Nat) | cfgPtmEnable | cfgMsixEnable (fn : Nat)
  | cfgMsixFnMask (fn : Nat) | cfgPowerD0 (fn : Nat) | cfgDevCtl (fn : Nat) | cfgDevCtl2 (fn : Nat) | cfgAri | cfgAerCtl
  | cfgAerUncor | cfgAerCor | cfgBar (fn bar : Nat)
deriving DecidableEq, Repr

/-- What a bridge-link time message carries (R493): the sender's stamps, and the lead's quality, era, stroke anchor and
period. -/
structure BrlMsg where
  t1      : W64
  t4      : W64
  quality : BitVec 3
  era     : Byte
  anchorN : W64
  anchorVt : W64
  periodNs : W32
deriving DecidableEq, Repr

/-- A device's report to the lead on a cube command (R497). -/
structure CubeReport where
  cubeId  : Nat
  status  : Byte
  result  : W32
  data    : List Byte := []
deriving DecidableEq, Repr

/-- The commands of the ZLM-3192: one constructor per row of spec/opcode_table.json. -/
inductive Instr where
  | porstNLow
  | porstNRise (straps : BitVec 7) (rails : BitVec 3)
  | supplyMonitorTrip (rail : Rail)
  | wrstNAssert
  | warmResetPerform
  | pegboxWatchdog
  | perstNAssert (width speed : Nat)
  | rstoutNRise (width speed : Nat)
  | pfailNRecognised
  | powerFailFlushComplete
  | pfailNHighExpiry
  | inflightProgramsEnd
  | tjWarnCrossing
  | tjCritCrossing
  | thermtripNAssert
  | selftestComplete
  | xspiReadComplete
  | xspiReadTimeout
  | patchDeliveryTimeout
  | imageVerifyDone
  | bootCtlGo (val : W32)
  | bootCtlWarm (val : W32)
  | bootCtlRecovery (val : W32)
  | brlImageDelivery (peer : Nat) (imageType : W16) (data : List Byte)
  | engineInitComplete (bistFail : List Eng)
  | dramTrainingComplete (fit : DramFit)
  | logStoreReady (fit : NandFit)
  | brlReadyCheck
  | pcieMemRead (fn : Nat) (bar : Nat) (off : Nat) (bytes : Nat)
  | pcieMemWrite (fn : Nat) (bar : Nat) (off : Nat) (data : List Byte)
  | pcieTlpError (err : TlpError) (header : BitVec 128)
  | functionLevelReset (fn : Nat)
  | vfEnableClear
  | d3hotTransition (fn : Nat)
  | msixTableWrite (fn : Nat) (vector : Nat) (word : Nat) (val : W32)
  | ptmRequestIssue (responds : Bool)
  | ptmDialogComplete (t2 : W64) (propNs : W32)
  | doeDiscovery (index : Nat) (dwords : Nat)
  | spdmGetVersion (dwords : Nat)
  | spdmGetCapabilities (dwords : Nat)
  | spdmNegotiateAlgorithms (dwords : Nat) (asym hash : W32)
  | spdmGetDigests (dwords : Nat)
  | spdmGetCertificate (dwords : Nat) (slot : Nat) (offset : Nat) (length : Nat)
  | spdmChallenge (dwords : Nat) (slot : Nat) (nonce : List Byte)
  | spdmGetMeasurements (dwords : Nat) (index : Nat) (nonce : List Byte)
  | spdmOtherRequest (dwords : Nat) (code : Byte)
  | aqCtlEnable (fn : Nat)
  | aqCtlDisable (fn : Nat)
  | sqTailDoorbell (fn : Nat) (q : Nat) (bytes : Nat) (val : W32)
  | cqHeadDoorbell (fn : Nat) (q : Nat) (bytes : Nat) (val : W32)
  | doorbellPairWrite (fn : Nat) (q : Nat) (tail : W32) (head : W32)
  | qcapDbdropRead (fn : Nat)
  | sqEntryFetch
  | sqReadCompletion (qp : Nat) (data : SqData)
  | sqReadTimeout (qp : Nat)
  | completionPost (qp : Nat)
  | moderationTimerExpiry (qp : Nat)
  | queueFullClose (qp : Nat)
  | qpDeleteComplete (qp : Nat)
  | snapshot (qp : Nat) (sub : Sub)
  | identify (qp : Nat) (sub : Sub)
  | qpCreate (qp : Nat) (sub : Sub)
  | qpDelete (qp : Nat) (sub : Sub)
  | qpModify (qp : Nat) (sub : Sub)
  | qpQuery (qp : Nat) (sub : Sub)
  | abort (qp : Nat) (sub : Sub)
  | warmReset (qp : Nat) (sub : Sub)
  | warmResetDelayExpiry
  | timeGet (qp : Nat) (sub : Sub)
  | timeSource (qp : Nat) (sub : Sub)
  | servoConfig (qp : Nat) (sub : Sub)
  | gptpConfig (qp : Nat) (sub : Sub)
  | ppsConfig (qp : Nat) (sub : Sub)
  | ptmCorrelate (qp : Nat) (sub : Sub)
  | timeStatus (qp : Nat) (sub : Sub)
  | planLoad (qp : Nat) (sub : Sub) (data : Option (List Byte))
  | planActivate (qp : Nat) (sub : Sub)
  | profileSet (qp : Nat) (sub : Sub)
  | strokeSet (qp : Nat) (sub : Sub)
  | overrunPolicy (qp : Nat) (sub : Sub)
  | strokeStats (qp : Nat) (sub : Sub)
  | jobSubmit (qp : Nat) (sub : Sub)
  | streamBind (qp : Nat) (sub : Sub)
  | ucodeLoad (qp : Nat) (sub : Sub) (data : Option (List Byte))
  | engineReset (qp : Nat) (sub : Sub)
  | lgsMode (qp : Nat) (sub : Sub)
  | lgsTrigger (qp : Nat) (sub : Sub)
  | lgsRead (qp : Nat) (sub : Sub)
  | lgsClass (qp : Nat) (sub : Sub)
  | lgsLife (qp : Nat) (sub : Sub)
  | lgsSeal (qp : Nat) (sub : Sub)
  | portConfig (qp : Nat) (sub : Sub) (data : Option (List Byte))
  | trigSchedule (qp : Nat) (sub : Sub)
  | ingressClass (qp : Nat) (sub : Sub)
  | lidarRules (qp : Nat) (sub : Sub) (data : Option (List Byte))
  | portStatus (qp : Nat) (sub : Sub)
  | evtBind (qp : Nat) (sub : Sub)
  | evtUnbind (qp : Nat) (sub : Sub)
  | senConfig (qp : Nat) (sub : Sub) (data : Option (List Byte))
  | tmrConfig (qp : Nat) (sub : Sub) (data : Option (List Byte))
  | tmrStart (qp : Nat) (sub : Sub)
  | fcuSeverity (qp : Nat) (sub : Sub)
  | fcuClear (qp : Nat) (sub : Sub)
  | fjExport (qp : Nat) (sub : Sub)
  | fjRead (qp : Nat) (sub : Sub)
  | fcuInject (qp : Nat) (sub : Sub)
  | tuneSet (qp : Nat) (sub : Sub)
  | tuneClear (qp : Nat) (sub : Sub)
  | healthRead (qp : Nat) (sub : Sub)
  | retire (qp : Nat) (sub : Sub)
  | reinstate (qp : Nat) (sub : Sub)
  | sparePolicy (qp : Nat) (sub : Sub)
  | imageUpdate (qp : Nat) (sub : Sub) (data : Option (List Byte))
  | attest (qp : Nat) (sub : Sub)
  | svnRaise (qp : Nat) (sub : Sub)
  | keyRevoke (qp : Nat) (sub : Sub)
  | cubeStatus (qp : Nat) (sub : Sub)
  | leadSet (qp : Nat) (sub : Sub)
  | remoteWindow (qp : Nat) (sub : Sub)
  | strokeBoundary (powerMw : Nat)
  | snapBankSwitch
  | snapCtlHold (val : W32)
  | fretBoundary
  | budgetExpiry (course : Nat) (slot : Nat)
  | fgNextRead (e : Eng)
  | fgDoneWrite (m : Master) (course : Nat) (slot : Nat) (val : W32)
  | coursePowerDown (course : Nat)
  | gptpSyncReceive (port : Nat) (msg : SyncMsg)
  | gptpFollowUpReceive (port : Nat) (seq : W16) (time : PtpTime)
  | gptpAnnounceReceive (port : Nat) (msg : AnnounceMsg)
  | gptpPdelayReceive (port : Nat) (msg : PdelayMsg)
  | gptpSyncTransmit (port : Nat)
  | gptpPdelayReqTransmit (port : Nat)
  | gptpAnnounceTransmit (port : Nat)
  | gptpReceiptTimeout (port : Nat) (isSync : Bool)
  | ppsInEdge (rising : Bool)
  | sourceTimeout (code : Nat)
  | holdoverLimitExpiry
  | ref10InLoss
  | crystalPathFailure (path : Nat)
  | tdcRecalibration (pin : Nat) (residualVt : Nat) (code : W32)
  | vt64Save
  | ppsOutRise
  | ppsOutFall
  | tePtmOfsWrite (val : W64)
  | tioEdge (pin : Nat) (rising : Bool)
  | veCtlRun (e : Eng) (val : W32)
  | veCtlRst (e : Eng) (val : W32)
  | veCtlRemap (e : Eng) (val : W32)
  | integerOp (e : Eng)
  | carryBorrowOp (e : Eng)
  | bitOp (e : Eng)
  | multiplyOp (e : Eng)
  | divideOp (e : Eng)
  | divideComplete (e : Eng)
  | pairedWord (e : Eng)
  | load (e : Eng)
  | loadReturn (e : Eng)
  | lwx (e : Eng)
  | store (e : Eng)
  | storeAck (e : Eng) (index : Nat)
  | atomic (e : Eng)
  | branch (e : Eng)
  | jump (e : Eng)
  | jalr (e : Eng)
  | loop (e : Eng)
  | mfc (e : Eng)
  | mtc (e : Eng)
  | syscall (e : Eng)
  | brk (e : Eng)
  | rfe (e : Eng)
  | sync (e : Eng)
  | iflush (e : Eng)
  | wait (e : Eng)
  | fpArith (e : Eng)
  | fpMinMaxCompare (e : Eng)
  | fpConvert (e : Eng)
  | interruptEntry (e : Eng)
  | asyncErrorEntry (e : Eng)
  | interruptTakeover (e : Eng)
  | handlerWindowExpiry (e : Eng)
  | irqSourceEdge (e : Eng) (n : Nat)
  | irqSetWrite (e : Eng) (val : W32)
  | irqPendWrite (e : Eng) (val : W32) (edges : W32)
  | pegboxMailbox (e : Eng)
  | startCheckComplete (e : Eng)
  | setvl (e : Eng)
  | shape (e : Eng)
  | shaper (e : Eng)
  | vrds (e : Eng)
  | vwrs (e : Eng)
  | vectorArith (e : Eng)
  | vectorCompare (e : Eng)
  | vectorReduction (e : Eng)
  | vectorPermute (e : Eng)
  | vgetVput (e : Eng)
  | vectorLoad (e : Eng)
  | vectorStore (e : Eng)
  | vectorComplete (e : Eng)
  | sstart (e : Eng)
  | sstarta (e : Eng)
  | swait (e : Eng)
  | sstat (e : Eng)
  | scancel (e : Eng)
  | chordStart (e : Eng)
  | chordComplete (e : Eng)
  | chordStop (e : Eng)
  | chordResume (e : Eng)
  | chordRestart (e : Eng)
  | mwNop (e : Eng) (thread : Nat) (word : Option W64)
  | mwUalu (e : Eng) (thread : Nat) (word : Option W64)
  | mwLdc (e : Eng) (thread : Nat) (word : Option W64)
  | mwLane (e : Eng) (thread : Nat) (word : Option W64)
  | mwExec (e : Eng) (thread : Nat) (word : Option W64)
  | mwBr (e : Eng) (thread : Nat) (word : Option W64)
  | mwCall (e : Eng) (thread : Nat) (word : Option W64)
  | mwLoop (e : Eng) (thread : Nat) (word : Option W64)
  | mwEnd (e : Eng) (thread : Nat) (word : Option W64)
  | mwStage (e : Eng) (thread : Nat) (word : Option W64)
  | mwCwait (e : Eng) (thread : Nat) (word : Option W64)
  | eccWriteBack (inst : MemInst) (codeword : Nat)
  | patrolScrubRead (inst : MemInst) (codeword : Nat)
  | lspStarveLimit (e : Eng)
  | spareRowCopy (row : RowCopy)
  | dramRefresh (channel : Nat)
  | fabricTimeout (m : Master) (addr : Nat) (write : Bool)
  | remoteAccessTimeout (m : Master) (addr : Nat) (write : Bool)
  | fabErrValidWrite (val : W32)
  | dmaCmdGo (m : Master) (course : Nat) (ch : Nat)
  | dmaCmdStop (m : Master) (course : Nat) (ch : Nat)
  | dmaDescriptorCheck (course : Nat) (ch : Nat)
  | dmaStopTaken (course : Nat) (ch : Nat)
  | dmaDescriptorComplete (course : Nat) (ch : Nat)
  | dmaErrorResponse (course : Nat) (ch : Nat) (isWrite : Bool)
  | senSwpulseWrite (val : W32)
  | senEventDelivery
  | veSenselRead (e : Eng) (j : Nat)
  | timerTick (t : Nat)
  | linkedCarryArrive (t : Nat)
  | timerCompareMatch (t : Nat) (c : Nat)
  | tmrCmpWrite (t : Nat) (c : Nat) (high : Bool) (val : W32)
  | tmrCntWrite (t : Nat) (high : Bool) (val : W32)
  | tmrEvctlRead (t : Nat)
  | tmrCapselRead (t : Nat)
  | captureLand (t : Nat) (k : Nat)
  | tmrCapLoRead (t : Nat) (k : Nat)
  | tmrGstartGo
  | tmrGstartStop
  | tioBallDrive (pin : Nat)
  | tioCfgRead (pin : Nat)
  | stormWindowEnd
  | csi2FrameStart (port : Nat) (vc : Nat) (frame : W16)
  | csi2LineStart (port : Nat) (vc : Nat)
  | csi2LongPacket (port : Nat) (vc : Nat) (dataType : Nat) (ecc : HdrEcc) (crcOk : Bool) (data : List Byte)
  | csi2FrameEnd (port : Nat) (vc : Nat)
  | ethernetFrameReceive (port : Nat) (fcsOk : Bool) (data : List Byte)
  | ethBlockLockLoss (port : Nat)
  | canFrameReceive (port : Nat) (frame : CanFrame)
  | canBusOff (port : Nat)
  | canBusOffRecovery (port : Nat)
  | spiDrdyEvent (port : Nat)
  | spiTransactionComplete (port : Nat) (data : List Byte)
  | triggerRise (t : Nat)
  | triggerFall (t : Nat)
  | ingressRecordWrite
  | eventEntryPost
  | ingFillRead
  | lgsAppendWrite (course : Nat) (val : W32)
  | appendProcess (course : Nat)
  | lgsQfillRead
  | pageProgramComplete (pass : Bool)
  | commitPoint
  | triggerClose (id : Nat)
  | periodicSeal
  | blockRelocation (segment : Nat)
  | retentionScrub (block : Nat) (softDecoded : Bool) (retried : Bool) (weak : Bool) (uncorrectable : Bool)
  | segmentReclaim (slc : Bool)
  | capsuleCommit
  | brlTrainingComplete (link : Nat) (nbr : Nat) (goodLanes : BitVec 5) (peer : Nat)
  | brlLaneFailure (link : Nat) (lane : Nat)
  | brlRetrainComplete (link : Nat) (replays : Nat)
  | brlLinkDown (link : Nat) (present : Byte)
  | brlTimeMessageSend
  | brlTimeMessageReceive (link : Nat) (msg : BrlMsg)
  | brlReplyReceive (link : Nat)
  | leadLoss
  | remoteWindowAccessIn (link : Nat) (addr : Nat) (bytes : Nat) (data : Option (List Byte))
  | cubeCommandReceive (opcode : W16) (sub : Sub) (data : Option (List Byte))
  | cubeCommandComplete (reports : List CubeReport)
  | faultRaise (id : Nat) (info : W64) (unit : W16)
  | fcuSrcOpenWrite (m : Master) (id : Nat) (val : W32)
  | healthMonitorSample (deltas : List Nat)
  | ceRateCheck
  | eyeMarginCheck (link : Nat) (lane : Nat) (margin : Nat)
  | unitSelfTestComplete (cls : UnitClass) (index : Nat) (pass : Bool)
  | pbxLockstepMismatch
  | oscCompareEnd (agree : Bool)
  | registerWrite (space : RegSpace) (off : Nat) (val : W32)
  | functionBecomesUsable (bit : Nat)
  | junctionTemperatureFall (below : Nat)
  | ethBlockLockGain (port : Nat)
  | csi2UlpsExit (port : Nat)
  | csi2UlpsEntry (port : Nat)
  | debugHalt (core : DebugCore)
  | debugHaltRelease (core : DebugCore)
  | nandBlockEraseComplete (block : Nat) (pass : Bool)
deriving DecidableEq, Repr

end Sys2Proof
end

