-- ==== Sys2Proof/WellFormed.lean ====
section
/-! DEFINITION. Commands whose operands name something that exists: a course, a port, a pin, a link, and lists of the lengths the
spec gives. The meanings are total; an ill-formed command changes nothing or is answered by the spec's own error. -/
namespace Sys2Proof

/-- A physical engine of a course (R201). -/
def Eng.wf (e : Eng) : Bool := e.course < 16 && e.phys < 13

/-- A master of the matrix: one of 63 VFs, an engine, a course's DMA, a link (R71, R381). -/
def Master.wf (m : Master) : Bool :=
  match m with
  | .pf => true
  | .vf v => 1 ≤ v && v ≤ 63
  | .pegbox => true
  | .engine course phys => course < 16 && phys < 13
  | .courseDma course => course < 16
  | .link k => k < 4

/-- A memory instance (R372, R552). -/
def MemInst.wf (m : MemInst) : Bool :=
  match m with
  | .lsp course phys => course < 16 && phys < 13
  | .csm course => course < 16
  | .dram channel => channel < 4
  | .emram => true
  | .sram i => i < 8

/-- A row the spare port or the remap copies (R367, R379). -/
def RowCopy.wf (r : RowCopy) : Bool :=
  match r with
  | .csm course spare row => course < 16 && spare < 8 && row < 2048
  | .dram channel entry => channel < 4 && entry < 64

/-- A core with a debug halt (R419). -/
def DebugCore.wf (c : DebugCore) : Bool :=
  match c with
  | .engine course phys => course < 16 && phys < 13
  | .pegbox => true

/-- A register space of the PF or of a VF. -/
def RegSpace.wf (r : RegSpace) : Bool :=
  match r with
  | .bar0 m => m.wf
  | .cfgVfs n => n ≤ 63
  | .cfgPtmEnable => true
  | .cfgMsixEnable fn => fn ≤ 63
  | .cfgMsixFnMask fn => fn ≤ 63
  | .cfgPowerD0 fn => fn ≤ 63
  | .cfgDevCtl fn => fn ≤ 63
  | .cfgDevCtl2 fn => fn ≤ 63
  | .cfgAri => true
  | .cfgAerCtl => true
  | .cfgAerUncor => true
  | .cfgAerCor => true
  | .cfgBar fn bar => fn ≤ 63 && (bar == 0 || bar == 2 || bar == 4)

/-- A value where there is one. -/
def optWf {α : Type} (f : α → Bool) (o : Option α) : Bool :=
  match o with
  | some x => f x
  | none => true

/-- At most 64 entries of 64 bytes (R89). -/
def SqData.wf (d : SqData) : Bool :=
  match d with
  | .bytes b => b.length ≤ 4096
  | .poisoned => true
  | .failed => true

/-- At most 64 data bytes; a remote frame has none (R443). -/
def CanFrame.wf (f : CanFrame) : Bool := f.data.length ≤ 64 && (!f.remote || f.data.isEmpty)

/-- Four channels (R374). -/
def DramFit.wf (f : DramFit) : Bool := f.capGib.length == 4 && f.ranks.length == 4 && f.pass.length == 4

/-- A geometry with at least one of everything (R450). -/
def NandFit.wf (f : NandFit) : Bool := 1 ≤ f.ces && 1 ≤ f.luns && 1 ≤ f.planes && 1 ≤ f.blocks && 1 ≤ f.pages

/-- Nanoseconds below one second. -/
def PtpTime.wf (t : PtpTime) : Bool := t.ns < 1000000000

/-- A well-formed command. -/
def Instr.wf (i : Instr) : Bool :=
  match i with
  | .porstNLow => true
  | .porstNRise _ _ => true
  | .supplyMonitorTrip _ => true
  | .wrstNAssert => true
  | .warmResetPerform => true
  | .pegboxWatchdog => true
  | .perstNAssert _ _ => true
  | .rstoutNRise _ _ => true
  | .pfailNRecognised => true
  | .powerFailFlushComplete => true
  | .pfailNHighExpiry => true
  | .inflightProgramsEnd => true
  | .tjWarnCrossing => true
  | .tjCritCrossing => true
  | .thermtripNAssert => true
  | .selftestComplete => true
  | .xspiReadComplete => true
  | .xspiReadTimeout => true
  | .patchDeliveryTimeout => true
  | .imageVerifyDone => true
  | .bootCtlGo _ => true
  | .bootCtlWarm _ => true
  | .bootCtlRecovery _ => true
  | .brlImageDelivery peer _ _ => peer < 8
  | .engineInitComplete bistFail => bistFail.all Eng.wf
  | .dramTrainingComplete fit => fit.wf
  | .logStoreReady fit => fit.wf
  | .brlReadyCheck => true
  | .pcieMemRead fn bar _ _ => fn ≤ 63 && (bar == 0 || bar == 2 || bar == 4 || bar == 6)
  | .pcieMemWrite fn bar _ _ => fn ≤ 63 && (bar == 0 || bar == 2 || bar == 4)
  | .pcieTlpError _ _ => true
  | .functionLevelReset fn => fn ≤ 63
  | .vfEnableClear => true
  | .d3hotTransition fn => fn ≤ 63
  | .msixTableWrite fn vector word _ => fn ≤ 63 && vector < 2048 && word < 4
  | .ptmRequestIssue _ => true
  | .ptmDialogComplete _ _ => true
  | .doeDiscovery _ _ => true
  | .spdmGetVersion _ => true
  | .spdmGetCapabilities _ => true
  | .spdmNegotiateAlgorithms _ _ _ => true
  | .spdmGetDigests _ => true
  | .spdmGetCertificate _ slot _ _ => slot < 256
  | .spdmChallenge _ slot nonce => slot < 256 && nonce.length == 32
  | .spdmGetMeasurements _ index nonce => index < 256 && nonce.length == 32
  | .spdmOtherRequest _ _ => true
  | .aqCtlEnable fn => fn ≤ 63
  | .aqCtlDisable fn => fn ≤ 63
  | .sqTailDoorbell fn _ _ _ => fn ≤ 63
  | .cqHeadDoorbell fn _ _ _ => fn ≤ 63
  | .doorbellPairWrite fn _ _ _ => fn ≤ 63
  | .qcapDbdropRead fn => fn ≤ 63
  | .sqEntryFetch => true
  | .sqReadCompletion qp data => qp < 1048576 && data.wf
  | .sqReadTimeout qp => qp < 1048576
  | .completionPost qp => qp < 1048576
  | .moderationTimerExpiry qp => qp < 1048576
  | .queueFullClose qp => qp < 1048576
  | .qpDeleteComplete qp => qp < 1048576
  | .snapshot qp _ => qp < 1048576
  | .identify qp _ => qp < 1048576
  | .qpCreate qp _ => qp < 1048576
  | .qpDelete qp _ => qp < 1048576
  | .qpModify qp _ => qp < 1048576
  | .qpQuery qp _ => qp < 1048576
  | .abort qp _ => qp < 1048576
  | .warmReset qp _ => qp < 1048576
  | .warmResetDelayExpiry => true
  | .timeGet qp _ => qp < 1048576
  | .timeSource qp _ => qp < 1048576
  | .servoConfig qp _ => qp < 1048576
  | .gptpConfig qp _ => qp < 1048576
  | .ppsConfig qp _ => qp < 1048576
  | .ptmCorrelate qp _ => qp < 1048576
  | .timeStatus qp _ => qp < 1048576
  | .planLoad qp _ _ => qp < 1048576
  | .planActivate qp _ => qp < 1048576
  | .profileSet qp _ => qp < 1048576
  | .strokeSet qp _ => qp < 1048576
  | .overrunPolicy qp _ => qp < 1048576
  | .strokeStats qp _ => qp < 1048576
  | .jobSubmit qp _ => qp < 1048576
  | .streamBind qp _ => qp < 1048576
  | .ucodeLoad qp _ _ => qp < 1048576
  | .engineReset qp _ => qp < 1048576
  | .lgsMode qp _ => qp < 1048576
  | .lgsTrigger qp _ => qp < 1048576
  | .lgsRead qp _ => qp < 1048576
  | .lgsClass qp _ => qp < 1048576
  | .lgsLife qp _ => qp < 1048576
  | .lgsSeal qp _ => qp < 1048576
  | .portConfig qp _ _ => qp < 1048576
  | .trigSchedule qp _ => qp < 1048576
  | .ingressClass qp _ => qp < 1048576
  | .lidarRules qp _ _ => qp < 1048576
  | .portStatus qp _ => qp < 1048576
  | .evtBind qp _ => qp < 1048576
  | .evtUnbind qp _ => qp < 1048576
  | .senConfig qp _ _ => qp < 1048576
  | .tmrConfig qp _ _ => qp < 1048576
  | .tmrStart qp _ => qp < 1048576
  | .fcuSeverity qp _ => qp < 1048576
  | .fcuClear qp _ => qp < 1048576
  | .fjExport qp _ => qp < 1048576
  | .fjRead qp _ => qp < 1048576
  | .fcuInject qp _ => qp < 1048576
  | .tuneSet qp _ => qp < 1048576
  | .tuneClear qp _ => qp < 1048576
  | .healthRead qp _ => qp < 1048576
  | .retire qp _ => qp < 1048576
  | .reinstate qp _ => qp < 1048576
  | .sparePolicy qp _ => qp < 1048576
  | .imageUpdate qp _ _ => qp < 1048576
  | .attest qp _ => qp < 1048576
  | .svnRaise qp _ => qp < 1048576
  | .keyRevoke qp _ => qp < 1048576
  | .cubeStatus qp _ => qp < 1048576
  | .leadSet qp _ => qp < 1048576
  | .remoteWindow qp _ => qp < 1048576
  | .strokeBoundary _ => true
  | .snapBankSwitch => true
  | .snapCtlHold _ => true
  | .fretBoundary => true
  | .budgetExpiry course slot => course < 16 && slot < 12
  | .fgNextRead e => e.wf
  | .fgDoneWrite m course slot _ => m.wf && course < 16 && slot < 12
  | .coursePowerDown course => course < 16
  | .gptpSyncReceive port msg => port < 8 && msg.time.wf
  | .gptpFollowUpReceive port _ time => port < 8 && time.wf
  | .gptpAnnounceReceive port _ => port < 8
  | .gptpPdelayReceive port _ => port < 8
  | .gptpSyncTransmit port => port < 8
  | .gptpPdelayReqTransmit port => port < 8
  | .gptpAnnounceTransmit port => port < 8
  | .gptpReceiptTimeout port _ => port < 8
  | .ppsInEdge _ => true
  | .sourceTimeout code => code < 6
  | .holdoverLimitExpiry => true
  | .ref10InLoss => true
  | .crystalPathFailure path => path < 2
  | .tdcRecalibration pin _ _ => pin < 58
  | .vt64Save => true
  | .ppsOutRise => true
  | .ppsOutFall => true
  | .tePtmOfsWrite _ => true
  | .tioEdge pin _ => pin < 48
  | .veCtlRun e _ => e.wf
  | .veCtlRst e _ => e.wf
  | .veCtlRemap e _ => e.wf
  | .integerOp e => e.wf
  | .carryBorrowOp e => e.wf
  | .bitOp e => e.wf
  | .multiplyOp e => e.wf
  | .divideOp e => e.wf
  | .divideComplete e => e.wf
  | .pairedWord e => e.wf
  | .load e => e.wf
  | .loadReturn e => e.wf
  | .lwx e => e.wf
  | .store e => e.wf
  | .storeAck e index => e.wf && index < 8
  | .atomic e => e.wf
  | .branch e => e.wf
  | .jump e => e.wf
  | .jalr e => e.wf
  | .loop e => e.wf
  | .mfc e => e.wf
  | .mtc e => e.wf
  | .syscall e => e.wf
  | .brk e => e.wf
  | .rfe e => e.wf
  | .sync e => e.wf
  | .iflush e => e.wf
  | .wait e => e.wf
  | .fpArith e => e.wf
  | .fpMinMaxCompare e => e.wf
  | .fpConvert e => e.wf
  | .interruptEntry e => e.wf
  | .asyncErrorEntry e => e.wf
  | .interruptTakeover e => e.wf
  | .handlerWindowExpiry e => e.wf
  | .irqSourceEdge e n => e.wf && n < 21
  | .irqSetWrite e _ => e.wf
  | .irqPendWrite e _ _ => e.wf
  | .pegboxMailbox e => e.wf
  | .startCheckComplete e => e.wf
  | .setvl e => e.wf
  | .shape e => e.wf
  | .shaper e => e.wf
  | .vrds e => e.wf
  | .vwrs e => e.wf
  | .vectorArith e => e.wf
  | .vectorCompare e => e.wf
  | .vectorReduction e => e.wf
  | .vectorPermute e => e.wf
  | .vgetVput e => e.wf
  | .vectorLoad e => e.wf
  | .vectorStore e => e.wf
  | .vectorComplete e => e.wf
  | .sstart e => e.wf
  | .sstarta e => e.wf
  | .swait e => e.wf
  | .sstat e => e.wf
  | .scancel e => e.wf
  | .chordStart e => e.wf
  | .chordComplete e => e.wf
  | .chordStop e => e.wf
  | .chordResume e => e.wf
  | .chordRestart e => e.wf
  | .mwNop e thread _ => e.wf && thread < 4
  | .mwUalu e thread _ => e.wf && thread < 4
  | .mwLdc e thread _ => e.wf && thread < 4
  | .mwLane e thread _ => e.wf && thread < 4
  | .mwExec e thread _ => e.wf && thread < 4
  | .mwBr e thread _ => e.wf && thread < 4
  | .mwCall e thread _ => e.wf && thread < 4
  | .mwLoop e thread _ => e.wf && thread < 4
  | .mwEnd e thread _ => e.wf && thread < 4
  | .mwStage e thread _ => e.wf && thread < 4
  | .mwCwait e thread _ => e.wf && thread < 4
  | .eccWriteBack inst _ => inst.wf
  | .patrolScrubRead inst _ => inst.wf
  | .lspStarveLimit e => e.wf
  | .spareRowCopy row => row.wf
  | .dramRefresh channel => channel < 4
  | .fabricTimeout m addr _ => m.wf && addr < 2 ^ 40
  | .remoteAccessTimeout m addr _ => m.wf && addr < 2 ^ 40
  | .fabErrValidWrite _ => true
  | .dmaCmdGo m course ch => m.wf && course < 16 && ch < 16
  | .dmaCmdStop m course ch => m.wf && course < 16 && ch < 16
  | .dmaDescriptorCheck course ch => course < 16 && ch < 16
  | .dmaStopTaken course ch => course < 16 && ch < 16
  | .dmaDescriptorComplete course ch => course < 16 && ch < 16
  | .dmaErrorResponse course ch _ => course < 16 && ch < 16
  | .senSwpulseWrite _ => true
  | .senEventDelivery => true
  | .veSenselRead e j => e.wf && j < 8
  | .timerTick t => t < 160
  | .linkedCarryArrive t => t < 160
  | .timerCompareMatch t c => t < 160 && c < 4
  | .tmrCmpWrite t c _ _ => t < 160 && c < 4
  | .tmrCntWrite t _ _ => t < 160
  | .tmrEvctlRead t => t < 160
  | .tmrCapselRead t => t < 160
  | .captureLand t k => t < 160 && k < 2
  | .tmrCapLoRead t k => t < 160 && k < 2
  | .tmrGstartGo => true
  | .tmrGstartStop => true
  | .tioBallDrive pin => pin < 48
  | .tioCfgRead pin => pin < 48
  | .stormWindowEnd => true
  | .csi2FrameStart port vc _ => port < 8 && vc < 16
  | .csi2LineStart port vc => port < 8 && vc < 16
  | .csi2LongPacket port vc dataType _ _ _ => port < 8 && vc < 16 && dataType < 64
  | .csi2FrameEnd port vc => port < 8 && vc < 16
  | .ethernetFrameReceive port _ _ => port < 8
  | .ethBlockLockLoss port => port < 8
  | .canFrameReceive port frame => port < 4 && frame.wf
  | .canBusOff port => port < 4
  | .canBusOffRecovery port => port < 4
  | .spiDrdyEvent port => port < 4
  | .spiTransactionComplete port _ => port < 4
  | .triggerRise t => t < 16
  | .triggerFall t => t < 16
  | .ingressRecordWrite => true
  | .eventEntryPost => true
  | .ingFillRead => true
  | .lgsAppendWrite course _ => course < 16
  | .appendProcess course => course < 16
  | .lgsQfillRead => true
  | .pageProgramComplete _ => true
  | .commitPoint => true
  | .triggerClose _ => true
  | .periodicSeal => true
  | .blockRelocation _ => true
  | .retentionScrub _ _ _ _ _ => true
  | .segmentReclaim _ => true
  | .capsuleCommit => true
  | .brlTrainingComplete link nbr _ peer => link < 4 && nbr < 8 && peer < 65536
  | .brlLaneFailure link lane => link < 4 && lane < 5
  | .brlRetrainComplete link _ => link < 4
  | .brlLinkDown link _ => link < 4
  | .brlTimeMessageSend => true
  | .brlTimeMessageReceive link _ => link < 4
  | .brlReplyReceive link => link < 4
  | .leadLoss => true
  | .remoteWindowAccessIn link addr bytes _ => link < 4 && addr < 2 ^ 40 && bytes ≤ 4096
  | .cubeCommandReceive _ _ _ => true
  | .cubeCommandComplete reports => reports.all fun r => r.cubeId < 8
  | .faultRaise id _ _ => id < 4096
  | .fcuSrcOpenWrite m id _ => m.wf && id < 4096
  | .healthMonitorSample deltas => deltas.length == 19
  | .ceRateCheck => true
  | .eyeMarginCheck link lane _ => link < 4 && lane < 5
  | .unitSelfTestComplete _ _ _ => true
  | .pbxLockstepMismatch => true
  | .oscCompareEnd _ => true
  | .registerWrite space _ _ => space.wf
  | .functionBecomesUsable bit => bit < 20
  | .junctionTemperatureFall _ => true
  | .ethBlockLockGain port => port < 8
  | .csi2UlpsExit port => port < 8
  | .csi2UlpsEntry port => port < 8
  | .debugHalt core => core.wf
  | .debugHaltRelease core => core.wf
  | .nandBlockEraseComplete _ _ => true

end Sys2Proof
end

