-- ==== Sys2Proof/Config.lean ====
section
/-! DEFINITION. What an implementation fixes and the spec leaves open: constants without a body, so that no proof
can see a value of them (log 7, log 10). -/
namespace Sys2Proof.Config

/-- The n-th value the spec leaves open, drawn afresh each time (log 7). -/
opaque freeValue : Nat → BitVec 64

/-- The servo's law: its next rate correction for a loop bandwidth in mHz, drawn afresh each time (R151; log 7). -/
opaque servoLaw : Nat → Nat → BitVec 64

/-- Fused words: 0 and 1 ID_SERIAL, 2 the boot ROM version, 3 ID_CAL, 4 the fused TEMP_GAIN (R81, R541; log 10); 16 to 18 the sizes of
the parts of an ATTEST record that the spec does not give (R125; log 14). -/
opaque fused : Nat → BitVec 32

/-- The engine boot ROM's bytes (R59: "the engine's self-test and the diagnostic loader"; log 10). -/
opaque engineRom : Nat → BitVec 8

/-- The time of an element that takes it from a sample S1 does not hold (R323; log 157). -/
opaque sampleTime : Nat → BitVec 64

/-- The sequencer's ROM dispatch table (R347; log 10). -/
opaque seqDispatch : Nat → BitVec 32

/-- Zhevwald Semiconductor's PCI-SIG vendor ID and the Revision ID (R70; log 10). -/
opaque pciVendor : BitVec 16
opaque pciRevision : BitVec 8

/-- The bytes of the AES-256 key derived from the fused device-unique secret (R53; log 10). -/
opaque imageKey : Nat → BitVec 8

/-- The fused ball-to-TDC delay codes by pin (R154, R155; log 10). -/
opaque fusedTdc : Nat → BitVec 32

/-- Firmware version characters and its identity text (R126; log 10). -/
opaque fwVersion : Nat → BitVec 8

/-- The bytes of device identity, certificates, measurements and signatures: which object, which byte (R75, R125;
log 14). -/
opaque identity : Nat → Nat → BitVec 8

end Sys2Proof.Config
end

