-- ==== Sys2Proof/Machine/StateBase.lean ====
section
/-! DEFINITION. The plain data the blocks of the state are made of: sparse tables, memories, and what the device
emits. In every block file each field's docstring ends with the rule of spec/ that names it and with where its
reset value comes from: `spec`, `log n` (notes/assumptions/n.md) or `model` (a field of the model's own). -/
namespace Sys2Proof.Machine

/-- A sparse table: rising keys, no repeats; an unlisted key holds the reader's default. -/
abbrev Tab (α : Type) := List (Nat × α)

/-- A memory: rising addresses, no byte equal to what an unlisted address reads as (log 2). -/
abbrev Mem := List Host.Cell

/-- The payload of an image of type UCODE as its words say it (R349): `rsvdZero` says that the reserved bytes are 0,
`dispatch` holds the 256 entries, `words` the microwords. -/
structure PatchBody where
  magic     : Nat
  version   : Nat
  level     : W16
  romId     : Nat
  wordCount : W16
  rsvdZero  : Bool
  dispatch  : List W32
  words     : List W64
deriving DecidableEq, Repr

/-- The reported quality and the servo state (R135, R144). -/
inductive Quality where
  | free | acquire | locked | holdover | lead
deriving DecidableEq, Repr

/-- A completion entry without its phase bit (R110). `kind` and `status` are the codes of R111 and R113. -/
structure Cqe where
  tag     : W16
  status  : Nat
  kind    : Nat
  quality : Quality
  result  : W32
  vt      : W64
deriving DecidableEq, Repr

/-- A whole 64-byte submission entry (R107). -/
structure Entry where
  opcode : W16
  sub    : Sub
deriving DecidableEq, Repr

/-- An unsolicited entry waiting to be posted to one QP (R96, R111). -/
structure Unsol where
  qp  : Nat
  cqe : Cqe
deriving DecidableEq, Repr

/-- The SPDM answers of R75: the request answered, or an ERROR response with its code. -/
inductive SpdmRsp where
  | version (number : Nat) | capabilities | algorithms (asym hash measurement : W32) | digests
  | certificate (slot offset length : Nat)
  | challengeAuth (slot : Nat) (nonce : List Byte)
  | measurements (index : Nat) (nonce : List Byte)
  | errorBusy | errorUnsupported | errorInvalid
deriving DecidableEq, Repr

/-- The gPTP messages a port transmits (R158, R160). -/
inductive GptpOut where
  | sync (seq : Nat) (stamp : W64) | followUp (seq : Nat) (time : PtpTime) | pdelayReq (seq : Nat) (stamp : W64)
  | pdelayResp (seq : Nat) (t2 t3 : W64) | announce (msg : AnnounceMsg)
deriving DecidableEq, Repr

/-- What the device emits towards the outside, newest first in `State.out`. -/
inductive Output where
  /-- A completion entry written into a host CQ slot, one TLP (R95). -/
  | cqeWrite (qp slot : Nat) (addr : W64) (entry : List Byte)
  /-- An MSI-X message sent (R101). -/
  | msix (fn vector : Nat)
  /-- SQ slots requested from host memory (R88, R89). -/
  | sqRead (qp slot count : Nat)
  /-- Bytes written into a host buffer (R108, R115), with Relaxed Ordering or without (R71). -/
  | hostWrite (addr : W64) (bytes : List Byte) (relaxed : Bool)
  /-- The completion of a host memory read: its bytes, or Completer Abort (R79); `poisoned` of R370. -/
  | readCompletion (data : Option (List Byte)) (poisoned : Bool)
  /-- The value a register read returned to the master that read it. -/
  | regValue (val : W32)
  /-- An error logged in AER, with its severity (R105): 0 correctable, 1 uncorrectable non-fatal, 2 fatal. -/
  | aer (err : TlpError) (severity : Nat)
  /-- A DOE discovery answer (R74): vendor, type, next index; or the abort. -/
  | doe (vendor type next : Nat)
  | doeAbort
  /-- An SPDM answer (R75). -/
  | spdm (rsp : SpdmRsp)
  /-- A PTM request (R163). -/
  | ptmRequest (vt : W64)
  /-- A gPTP message begun on a port (R158, R160). -/
  | gptp (port : Nat) (msg : GptpOut)
  /-- A bridge-link time message, or a reply to one (R493). -/
  | brlTime (link : Nat) (msg : BrlMsg)
  | brlReply (link : Nat) (t2 t3 : W64)
  /-- A bridge-link CUBE_ID exchange or a command sent on to a device of the cube (R485, R497). -/
  | brlCommand (dev : Nat) (opcode : W16) (sub : Sub)
  /-- A follower's report to the lead on a cube command (R497): status, result, and a SNAPSHOT's block. -/
  | brlReport (status : Nat) (result : W32) (data : List Byte)
  /-- A boot image sent on to a follower (R498). -/
  | brlImage (dev : Nat) (imageType : W16) (data : List Byte)
  /-- A remote-window access sent over a link (R500), and the answer to one that came in. -/
  | brlAccess (dev : Nat) (addr : Nat) (data : Option (List Byte))
  | brlAccessRsp (link : Nat) (data : Option (List Byte))
  /-- A microcode or firmware image written into an xSPI device (R123). -/
  | flashWrite (target : Nat) (imageType : W16)
  /-- The pegbox interrupted (R508). -/
  | pegboxIrq (source : Nat)
  /-- An SPI transaction begun (R445). -/
  | spiStart (port : Nat)
  /-- A NAND page programmed: segment, page (R454). -/
  | nandProgram (segment page : Nat)
  /-- The header codeword of a segment opened (R473). -/
  | nandHeader (segment : Nat) (data : List Byte)
deriving DecidableEq, Repr

end Sys2Proof.Machine
end

