-- ==== Sys2Proof/Machine/StateHost.lean ====
section
/-! DEFINITION. The blocks of the state that belong to pins, start-up, eMRAM, the queues, the Basut interpreter
and the fault collection unit (spec/02 to 05, 20). -/
namespace Sys2Proof.Machine

/-- The pins (spec/02). -/
structure Pins where
  /-- 1 bit. PORST_N as driven; power-on reset while low. [R17; log 9] -/
  porstN : Bool := false
  /-- 1 bit. WRST_N as driven. [R28; log 9] -/
  wrstN : Bool := true
  /-- 1 bit. PERST_N as driven. [R30; log 9] -/
  perstN : Bool := true
  /-- 1 bit. PFAIL_N as driven. [R19; log 9] -/
  pfailN : Bool := true
  /-- 1 bit. FAULT_N, open drain. [R29, R33; spec] -/
  faultN : Bool := false
  /-- 1 bit. RSTOUT_N. [R17; spec] -/
  rstoutN : Bool := false
  /-- 1 bit. PFAIL_DONE. [R20, R22, R33; spec] -/
  pfailDone : Bool := false
  /-- 1 bit. THERMTRIP_N, open drain, inactive until it trips. [R41; spec] -/
  thermtripN : Bool := true
  /-- 1 bit. NAND WP_N on every channel. [R33; spec] -/
  wpN : Bool := false
  /-- 1 bit. PPS_OUT. [R33, R162; spec] -/
  ppsOut : Bool := false
  /-- 48 bits. Level at each TIO ball as driven from outside. [R422; log 9] -/
  tioIn : BitVec 48 := 0
  /-- 48 bits. Level the device drives at each TIO ball in an output function. [R422; log 1] -/
  tioOut : BitVec 48 := 0
  /-- 48 bits. Safe level of each TIO; low until programmed. [R33; spec] -/
  tioSafe : BitVec 48 := 0
  /-- 1 bit. TIO balls and PPS_OUT in the safe-state condition of R33. [R33, R514; spec] -/
  safeHeld : Bool := false
  /-- Junction temperature band crossed: 0 below 115, 1 WARN, 2 CRIT, 3 TRIP. [R41; log 9] -/
  tjBand : Nat := 0
  /-- 8 bits. The Ethernet transmitters out of electrical idle. [R33; spec] -/
  ethTxUp : Bool := false
  /-- 1 bit. The bridge-link transmitters out of electrical idle. [R33; spec] -/
  brlTxUp : Bool := false
  /-- 1 bit. NAND CE_N of every channel between accesses. [R33; spec] -/
  ceN : Bool := true
  /-- 1 bit each. XSPI_CS0_N and XSPI_CS1_N. [R33; spec] -/
  xspiCs0N : Bool := true
  xspiCs1N : Bool := true
  /-- 4 bits. CAN_TXD of each port between frames: recessive. [R33; spec] -/
  canTxd : BitVec 4 := 0xF
  /-- 3 bits. The monitors see VDD_CORE, VDD_SOC, VDDA_SD within tolerance. [R14, R16; log 9] -/
  rails : BitVec 3 := 7
deriving DecidableEq, Repr

/-- The boot phases of R57. -/
inductive Phase where
  | selftest | loadFw | waitHost | verifyFw | loadUcode | bringup | run | recovery | bootFail
deriving DecidableEq, Repr

/-- What runs on the pegbox (R48, R51). -/
inductive Firmware where
  | none | fw | diag | recovery
deriving DecidableEq, Repr

/-- What an image verification in progress is for (R53, R58, R123). -/
inductive VerifyFor where
  | bootFw | bootUcode | bootRecovery | emramRecovery | idle
deriving DecidableEq, Repr

/-- Start-up, boot registers, readiness and reset requests (spec/03). -/
structure Boot where
  /-- BOOT_STAT.phase, 8 bits. [R57; spec] -/
  phase : Phase := .selftest
  /-- BOOT_STAT.error, 8 bits. [R57; spec] -/
  error : Nat := 0
  /-- BOOT_STAT.fails, 4 bits, saturating. [R57; spec] -/
  fails : Nat := 0
  /-- BOOT_STAT.source, 2 bits. [R57; spec] -/
  source : Nat := 0
  /-- BOOT_STAT.reset_cause, 3 bits. [R57; spec] -/
  cause : Nat := 0
  /-- BOOT_STAT.patch_ok, 1 bit. [R57; spec] -/
  patchOk : Bool := false
  /-- BOOT_STAT.first_boot, 1 bit. [R57; spec] -/
  firstBoot : Bool := false
  /-- BOOT_CTL.recovery, 1 bit. [R58; spec] -/
  recoveryBit : Bool := false
  /-- The recovery bit stood at the warm reset: this start boots the eMRAM recovery image. [R58, R68; spec] -/
  recoverNow : Bool := false
  /-- BOOT_LEN, 32 bits. [R58; spec] -/
  bootLen : W32 := 0
  /-- STRAP_STAT [6:0], latched at PORST_N rise. [R31, R32; log 9] -/
  straps : BitVec 7 := 0
  /-- READY_MAP, 20 bits. [R62; spec] -/
  readyMap : BitVec 20 := 0
  /-- COURSE_READY, 16 bits. [R63; spec] -/
  courseReady : BitVec 16 := 0
  /-- The firmware that runs. [R48, R68; spec] -/
  fw : Firmware := .none
  /-- ID_FW.svn, 32 bits. [R81; spec] -/
  fwSvn : W32 := 0
  /-- Key slot that signed the running firmware, 2 bits. [R126; log 1] -/
  fwKey : Nat := 0
  /-- ID_PATCH.level, 16 bits. [R81; spec] -/
  patchLevel : Nat := 0
  /-- Patch RAM words, dispatch table and word count as loaded. [R349, R55; spec] -/
  patch : Option PatchBody := none
  /-- Which delivery or attempt comes next: 0 CS0, 1 CS1, 2 eMRAM. [R48; spec] -/
  attempt : Nat := 0
  /-- Consecutive failed deliveries, BOOTSRC 0b01 and 0b10. [R49; spec] -/
  consecFails : Nat := 0
  /-- What the boot ROM is verifying. [R53; spec] -/
  verifying : VerifyFor := .idle
  /-- The bytes it verifies, header first. [R48, R51; spec] -/
  image : List Byte := []
  /-- The firmware and patch images that verified, as delivered: what a lead sends on. [R48, R498; spec] -/
  fwImage : List Byte := []
  ucImage : List Byte := []
  /-- The self-tests have passed (phase SELFTEST left). [R45; spec] -/
  selfTestDone : Bool := false
  /-- Engine initialisation has ended on every course. [R65, R176; spec] -/
  engineInitDone : Bool := false
  /-- The boot profile waits for its capo. [R65; spec] -/
  bootProfilePending : Bool := false
  /-- A warm reset recognised and not yet performed, with its cause. [R45; spec] -/
  warmReq : Option Nat := none
  /-- A WARM_RESET completion has been written; the reset follows 10 us later (mono time). [R122; spec] -/
  warmDelay : Option Nat := none
  /-- Held in reset: BOOTSRC 0b11, or no supply. [R31; spec] -/
  held : Bool := true
  /-- DRAM fitted and trained: GiB per channel pair, ranks, rate code, U; 0 until trained. [R374, R375; spec] -/
  dramRanks : Nat := 0
  dramRate : Nat := 0
  dramGib : Nat := 0
  dramTrained : Bool := false
  /-- ECLK the DIAG firmware has selected in the Service profile: 0, 1, 2. [R177; spec] -/
  diagEclk : Nat := 0
  /-- Courses it powers there of those that are ready. [R177; spec] -/
  diagMask : BitVec 16 := 0xFFFF
deriving DecidableEq, Repr

/-- The one-time fuses (R53, R124, R419). They only move one way. -/
structure Fuses where
  /-- Security-version floors for image types 1 to 4, 32 bits each. [R53, R126; log 10] -/
  floors : Vector W32 5 := Vector.replicate 5 0
  /-- Revoked key slots, 4 bits. [R53, R126; log 10] -/
  revoked : BitVec 4 := 0
  /-- SHA-384 of ecdsa_pub ‖ hss_pub for each key slot, byte 0 most significant. [R53; log 10] -/
  keyHash : Vector (BitVec 384) 4 := Vector.replicate 4 0
deriving DecidableEq, Repr

/-- The state a QP context is in (R86). -/
inductive QpState where
  | free | active | faulted | deleting
deriving DecidableEq, Repr

/-- The phases a fetched command passes through (R114, R121). -/
inductive CmdPhase where
  | fetched | started | done (cqe : Cqe)
deriving DecidableEq, Repr

/-- A command fetched from an SQ whose completion is not yet written (R86 owed, R114, R115). -/
structure Cmd where
  cid    : Nat
  opcode : Nat
  sub    : Sub
  phase  : CmdPhase := .fetched
deriving DecidableEq, Repr

/-- A queue-pair context (R86) with the device's own working values beside it. -/
structure Qp where
  /-- sq_base, cq_base, 64 bits each. [R86; spec] -/
  sqBase : W64 := 0
  cqBase : W64 := 0
  /-- sq_depth_m1, cq_depth_m1, vector, 16 bits each. [R86; spec] -/
  sqDepthM1 : Nat := 0
  cqDepthM1 : Nat := 0
  vector : Nat := 0
  /-- state enumeration, 8 bits. [R86; spec] -/
  state : QpState := .free
  /-- flags, bits 0 to 3: pin, intr_en, evt_en, phase. [R86; spec] -/
  pin : Bool := false
  intrEn : Bool := false
  evtEn : Bool := false
  phase : Bool := true
  /-- sq_head, sq_tail, cq_tail, cq_head, 16 bits each. [R86; spec] -/
  sqHead : Nat := 0
  sqTail : Nat := 0
  cqTail : Nat := 0
  cqHead : Nat := 0
  /-- mod_count, mod_time, 16 bits each; weight, 8 bits. [R86; spec] -/
  modCount : Nat := 0
  modTime : Nat := 0
  weight : Nat := 255
  /-- owed, 16 bits. [R86, R98; spec] -/
  owed : Nat := 0
  /-- drop_count, qf_total, 32 bits each. [R86; spec] -/
  dropCount : Nat := 0
  qfTotal : Nat := 0
  /-- first_drop, and the VT64 of the last dropped entry. [R86, R99; spec] -/
  firstDrop : W64 := 0
  lastDrop : W64 := 0
  /-- Qualities of first_drop's and last_drop's stamps. [R99, R110; spec] -/
  firstQual : Quality := .free
  lastQual : Quality := .free
  /-- A QUEUE_FULL overflow is open; its opening entry still to be posted (D3hot). [R99, R72; spec] -/
  overflow : Bool := false
  openHeld : Bool := false
  /-- Entries written since the last message; when the moderation timer ends (mono time). [R101; spec] -/
  since : Nat := 0
  modDue : Option Nat := none
  /-- Slots requested by an SQ read that has not returned. [R88; model] -/
  reading : Nat := 0
  /-- The commands owed, in submission order. [R114, R115; spec] -/
  cmds : List Cmd := []
  /-- The QP_DELETE that waits for this QP: its QP and command. [R103; spec] -/
  deleter : Option (Nat × Nat) := none
  /-- The queue-fault cause. [R91, R94; spec] -/
  cause : Nat := 0
  /-- The context is its function's admin queue's, held on die. [R86, R87; spec] -/
  admin : Bool := false
  /-- Mono time of the doorbell write not yet answered by an SQ read. [R106; model] -/
  rungAt : Option Nat := none
deriving DecidableEq, Repr

/-- The admin-queue registers of one function (R90). -/
structure AdminRegs where
  /-- AQ_SQB, AQ_CQB, 64 bits each. [R90; spec] -/
  sqb : W64 := 0
  cqb : W64 := 0
  /-- AQ_SIZE, 32 bits. [R90; spec] -/
  size : W32 := 0
  /-- AQ_CTL.en. [R90; spec] -/
  en : Bool := false
  /-- AQ_STAT: cause, fault, rdy. [R90; spec] -/
  cause : Nat := 0
  fault : Bool := false
  rdy : Bool := false
  /-- QCAP_DBDROP, 32 bits, saturating. [R84; spec] -/
  dbDrop : Nat := 0
  /-- The function is in D3hot. [R72; spec] -/
  d3hot : Bool := false
  /-- MSI-X Enable and Function Mask. [R101; log 8] -/
  msixEn : Bool := false
  msixMask : Bool := false
  /-- Device Control: Max Payload Size and Max Read Request Size as 128 x 2^n bytes, Enable Relaxed Ordering; Device Control 2:
  10-bit tags, Completion Timeout range and disable. [R71; log 144] -/
  mps : Nat := 0
  mrrs : Nat := 2
  relaxed : Bool := true
  tags10 : Bool := false
  ctoRange : Nat := 0
  ctoOff : Bool := false
deriving DecidableEq, Repr

/-- One MSI-X table entry (R77, R101), as the standard lays it out. -/
structure MsixEntry where
  /-- Message address low and high, message data, vector control: 32 bits each. [R77; log 8] -/
  addrLo : W32 := 0
  addrHi : W32 := 0
  data : W32 := 0
  ctrl : W32 := 1
deriving DecidableEq, Repr

/-- An event binding (R112, R423, R424, R479). -/
structure Binding where
  source : Nat
  kind   : Nat
  qp     : Nat
  seq    : Nat := 0
deriving DecidableEq, Repr

/-- The queue counters of one function's part of group 6 for the running stroke (R106). -/
structure QCounts where
  fetched : Nat := 0
  cpls    : Nat := 0
  unsol   : Nat := 0
  dropped : Nat := 0
  opened  : Nat := 0
  msix    : Nat := 0
  dbDrop  : Nat := 0
deriving DecidableEq, Repr

/-- The host link and queues (spec/04). -/
structure Link where
  /-- 1 bit. The PCIe link is up and configuration space answers. [R46, R44; log 11] -/
  up : Bool := false
  /-- Lanes and speed (1 to 5 for 2.5 to 32 GT/s) the link trained to; 0 while it is down. [R70; log 11] -/
  width : Nat := 0
  speed : Nat := 0
  /-- ARI Capable Hierarchy. [R71; log 144] -/
  ari : Bool := false
  /-- Base addresses the host has assigned: key 8 x function + BAR. [R76; log 144] -/
  bars : Tab W64 := []
  /-- QP contexts by global QP number. [R85, R86; spec] -/
  qps : Tab Qp := []
  /-- Admin-queue registers, QCAP_DBDROP and power state by function. [R90; spec] -/
  fns : Tab AdminRegs := []
  /-- MSI-X tables: key 2048 x function + vector. [R77; log 8] -/
  msix : Tab MsixEntry := []
  /-- MSI-X pending bits: the same key. [R77; spec] -/
  pba : List Nat := []
  /-- VF Enable as a count of enabled VFs. [R71, R85; spec] -/
  numVfs : Nat := 0
  /-- PTM Enable. [R73; log 8] -/
  ptmEn : Bool := false
  /-- Context cache, most recently used first, unpinned contexts only; 4,096 with the pinned ones. [R87; spec] -/
  cache : List Nat := []
  /-- The non-admin SQ visited last by the arbiter, and the admin SQ. [R89; log 1] -/
  lastVisit : Nat := 0
  lastAdmin : Nat := 0
  /-- Event bindings by handle. [R111, R112; spec] -/
  binds : Tab Binding := []
  /-- Next binding handle. [R111; log 1] -/
  nextHandle : Nat := 0
  /-- Group-6 counters by function. [R106; spec] -/
  counts : Tab QCounts := []
  /-- Context-cache hits and misses, longest doorbell delay in ns, this stroke. [R106; spec] -/
  hits : Nat := 0
  misses : Nat := 0
  maxDelay : Nat := 0
  /-- EVENT, TIMER_SEN and LOG entries on their way to their QPs, oldest first. [R111; spec] -/
  posting : List Unsol := []
  /-- AER status bits by error, and the last error's place. [R105; log 8] -/
  aer : List TlpError := []
  /-- The Header Log, with the uncorrectable error it belongs to. [R105; log 8] -/
  hdrLog : Option (TlpError × W64 × W64) := none
  /-- ECRC generation and checking enabled. [R71; log 144] -/
  ecrcGen : Bool := false
  ecrcChk : Bool := false
  /-- Outstanding PTM request: VT64 it left. [R163; spec] -/
  ptmSent : Option (W64 × Quality × Nat) := none
deriving DecidableEq, Repr

/-- A capo command accepted and waiting for its boundary (R117). -/
structure CapoItem where
  qp       : Nat
  cid      : Nat
  cmd      : Instr
  /-- Stroke and fret of acceptance; mono time of acceptance. -/
  stroke   : Nat
  fret     : Nat
  mono     : Nat
  /-- The stroke named with at_capo, 0 when none. -/
  target   : Nat
  strict   : Bool
  cube     : Bool
deriving DecidableEq, Repr

/-- A JOB_SUBMIT job accepted (R189). -/
structure JobRec where
  handle : Nat
  qp     : Nat
  cid    : Nat
  course : Nat
  slot   : Nat
  budget : Nat
  entry  : W32
  arg    : W32
  stroke : Nat
deriving DecidableEq, Repr

/-- A SNAPSHOT accepted and waiting for its boundary (R128). -/
structure SnapWait where
  qp     : Nat
  cid    : Nat
  fn     : Nat
  buf    : W64
  groups : Nat
  target : Nat
  cube   : Bool
deriving DecidableEq, Repr

/-- The Basut interpreter (spec/05). -/
structure Basut where
  /-- Capo commands waiting, in acceptance order. [R117, R118; spec] -/
  capo : List CapoItem := []
  /-- JOB_SUBMIT jobs not yet in a gate, in acceptance order. [R189; spec] -/
  jobs : List JobRec := []
  /-- SNAPSHOT commands waiting. [R128; spec] -/
  snaps : List SnapWait := []
  /-- Next command number and next job handle. [R114, R189; model] -/
  nextCid : Nat := 0
  nextJob : Nat := 0
deriving DecidableEq, Repr

/-- The record of one fault source (R511, R519). -/
structure FaultRec where
  /-- FCU_SRC.open. [R519; spec] -/
  isOpen : Bool := false
  /-- FCU_SRC.merges, 16 bits, saturating. [R519; spec] -/
  merges : Nat := 0
  /-- FCU_RFIRST, FCU_RLAST, FCU_RINFO, 64 bits each. [R519; spec] -/
  first : W64 := 0
  last : W64 := 0
  info : W64 := 0
  /-- FCU_SRC.cause of a LEVEL source. [R507, R519; spec] -/
  cause : Bool := false
  /-- Severity applied at the opening, 2 bits. [R508, R524; spec] -/
  sev : Nat := 0
  /-- Opened by an injection. [R523; spec] -/
  injected : Bool := false
  /-- The journal's unit word of the opening. [R521; spec] -/
  unit : W16 := 0
deriving DecidableEq, Repr

/-- A journal entry (R521). -/
structure JEntry where
  vt      : W64
  src     : Nat
  sev     : Nat
  inj     : Bool
  merges  : Nat
  seq     : Nat
  info    : W64
  typ     : Nat
  quality : Quality
  era     : Nat
  unit    : W16
  stroke  : Nat
deriving DecidableEq, Repr

/-- The fault collection unit and the journal (spec/20). -/
structure Fcu where
  /-- The records of the sources, by ID. [R511; spec] -/
  recs : Tab FaultRec := []
  /-- FCU_STAT.safe, degraded, safe_src. [R519; spec] -/
  safe : Bool := false
  degraded : Bool := false
  safeSrc : Nat := 0
  /-- FCU_SAFE_VT, 64 bits. [R519; spec] -/
  safeVt : W64 := 0
  /-- FCU_RSEL.id, 12 bits. [R519; spec] -/
  rsel : Nat := 0
  /-- FCU_STORM.limit, 16 bits. [R519; spec] -/
  stormLimit : Nat := 0x400
  /-- FJ_HEAD, FJ_LOST, FJ_EXPSEQ, 32 bits each, wrapping. [R519, R520; spec] -/
  head : Nat := 0
  lost : Nat := 0
  exp : Nat := 0
  /-- Total entries written since power-on, capped at 4,096 for the ring's fill. [R520; model] -/
  fill : Nat := 0
  /-- The journal ring: slot to entry. [R520; spec] -/
  ring : Tab JEntry := []
  /-- Records opened during the stroke, by severity; merged raises. [R524; spec] -/
  opened : Vector Nat 4 := Vector.replicate 4 0
  merged : Nat := 0
  /-- The FCU runs: it has passed its self-test. [R29; spec] -/
  running : Bool := false
  /-- An injection is being raised: records it opens are marked. [R523; model] -/
  injecting : Bool := false
deriving DecidableEq, Repr

end Sys2Proof.Machine
end

