-- ==== Sys2Proof/Machine/StateTime.lean ====
section
/-! DEFINITION. The blocks of the state that belong to Vehicle Time, strokes, snapshots and eMRAM (spec/06, 07,
05, 18, 21). -/
namespace Sys2Proof.Machine

/-- What the servo tracks of one source code (R141, R170). -/
structure Track where
  /-- A sample is valid within its timeout. [R141; spec] -/
  valid : Bool := false
  /-- Consecutive samples within the threshold, saturating at 16; qualified. [R141; spec] -/
  count : Nat := 0
  qualified : Bool := false
  /-- Samples, samples within threshold, timeouts: 32 bits each, wrapping. [R170; spec] -/
  samples : W32 := 0
  within : W32 := 0
  timeouts : W32 := 0
  /-- Last offset, signed vt; VT64 of the last sample. [R170; spec] -/
  lastOfs : Int := 0
  lastVt : W64 := 0
  /-- Mono time of the last sample, from which the timeout runs. [R138; model] -/
  lastMono : Nat := 0
deriving DecidableEq, Repr

/-- A gPTP port (R158, R169, R170). -/
structure GptpPort where
  /-- Port state: 0 disabled, 1 master, 2 slave, 3 passive. [R169; spec] -/
  state : Nat := 0
  /-- asCapable. [R170; spec] -/
  asCapable : Bool := false
  /-- meanLinkDelay in vt, neighborRateRatio - 1. [R170; spec] -/
  linkDelay : W32 := 0
  rateRatio : W32 := 0
  /-- logSyncInterval in use, signed. [R170; spec] -/
  logSync : Int := -3
  /-- The eight counters of R170, in its order. [R170; spec] -/
  syncRx : W32 := 0
  syncTx : W32 := 0
  followRx : W32 := 0
  pdelayTx : W32 := 0
  pdelayRx : W32 := 0
  pdelayLost : W32 := 0
  announceRx : W32 := 0
  syncTimeouts : W32 := 0
  /-- A two-step Sync received: its sequence, arrival VT64, and whether its grandmaster is the previous Sync's.
  [R138; spec] -/
  pendSync : Option (Nat × W64 × Bool) := none
  /-- Grandmaster identity of the previous Sync. [R138; spec] -/
  prevGm : Option W64 := none
  /-- Best Announce received, until its receipt timeout. [R158; log 12] -/
  announce : Option AnnounceMsg := none
  /-- The Pdelay_Req awaiting its response: sequence and stamp t1; t3 and t4 of the exchange before. [R158; log 12] -/
  pdelayT1 : Option (Nat × W64) := none
  pdelayPrev : Option (W64 × W64) := none
  /-- Sequence numbers of messages sent; consecutive Pdelay responses lost. [R158; log 12] -/
  seqTx : Nat := 0
  missed : Nat := 0
deriving DecidableEq, Repr

/-- A PTM record (R164). -/
structure PtmRec where
  vt      : W64
  hostNs  : W64
  propNs  : W32
  quality : Quality
  era     : Nat
deriving DecidableEq, Repr

/-- The time engine (spec/06). -/
structure TimeEng where
  /-- VT64. [R131, R66; spec] -/
  vt64 : W64 := 0
  /-- vt elapsed since power-on, steps excluded: the base for elapsed times. [R134; log 4] -/
  mono : Nat := 0
  /-- Part of a vt the rate correction has gathered, in units of 1/65,536,000,000 vt. [R151; model] -/
  rateFrac : Int := 0
  /-- VT64 counts. [R45, R66; spec] -/
  counting : Bool := false
  /-- TE_STAT.era, 8 bits. [R137, R167; spec] -/
  era : Nat := 0
  /-- TE_STEP, signed 64 bits. [R167; spec] -/
  step : Int := 0
  /-- The servo state. [R144; spec] -/
  servo : Quality := .free
  /-- TE_STAT.source. [R167; spec] -/
  source : Nat := 0
  /-- TE_LOCK.count, 5 bits. [R145, R167; spec] -/
  lock : Nat := 0
  /-- Consecutive LOCKED samples above 4 x threshold. [R144; spec] -/
  unlockRun : Nat := 0
  /-- TE_OFS, signed 64 bits. [R167; spec] -/
  ofs : Int := 0
  /-- TE_FREQ, signed, 2^-16 ppm. [R151, R167; spec] -/
  freq : Int := 0
  /-- Samples seen since entry to ACQUIRE. [R145; spec] -/
  acqSamples : Nat := 0
  /-- Lengths in vt and TE_FREQ of the last 60 s spent LOCKED, newest first; mono time the running one began.
  [R152; spec] -/
  lockSegs : List (Nat × Int) := []
  segFrom : Nat := 0
  /-- Mono time of entry to HOLDOVER. [R152; spec] -/
  holdFrom : Nat := 0
  /-- TE_PTM_OFS, signed 64 bits, in force and as written. [R165, R167; spec] -/
  ptmOfs : W64 := 0
  ptmOfsNext : Option W64 := none
  /-- The sources by code. [R141; spec] -/
  tracks : Tab Track := []
  /-- A step ordered and not yet applied: its source and size. [R149; spec] -/
  pending : Option (Nat × Int) := none
  /-- SERVO_CONFIG: lock_threshold_vt, holdover_limit_ms, bandwidth_mhz. [R143; log 1] -/
  lockThr : Nat := 0
  holdLimit : Nat := 0
  bandwidth : Nat := 0
  /-- PPS_CONFIG: out_offset_vt, out_width_vt, in_edge. [R161; spec] -/
  ppsOfs : Int := 0
  ppsWidth : Nat := 1600000000
  ppsEdge : Nat := 0
  /-- The PPS reference edge and the mono time of it. [R138; spec] -/
  ppsRef : Option (W64 × Nat) := none
  /-- VT64 at which the PPS_OUT pulse in progress falls, carried through steps. [R161, R162; spec] -/
  ppsFall : Option W64 := none
  /-- Stamp of the last PPS_OUT edge read back at the ball. [R36, R154; spec] -/
  ppsOutStamp : W64 := 0
  /-- PPS_IN: edges not stamped. [R156; spec] -/
  ppsMiss : Nat := 0
  /-- GPTP_CONFIG: port_mask, domain, roles, log_sync_interval. [R159; log 1] -/
  gptpMask : Byte := 0
  gptpDomain : Nat := 0
  gptpRoles : Vector Nat 8 := Vector.replicate 8 0
  gptpLogSync : Int := -3
  /-- The gPTP ports. [R158; spec] -/
  ports : Tab GptpPort := []
  /-- gPTP grandmaster identity and stepsRemoved. [R169; spec] -/
  gmId : W64 := 0
  stepsRemoved : Nat := 0
  /-- The grandmaster's time as the slave port's last Sync gave it, and its arrival stamp: what a relay passes on.
  [R160; spec] -/
  relay : Option (PtpTime × W64) := none
  /-- PTM records, oldest first, at most 64. [R164; spec] -/
  ptmRecs : List PtmRec := []
  /-- TE_STAT.ref10, path, ref10_lost. [R167; spec] -/
  ref10 : Bool := false
  path : Bool := false
  ref10Lost : Bool := false
  /-- Both crystal paths: failed. [R153; spec] -/
  pathFailed : BitVec 2 := 0
  /-- TDC delay codes by pin (0 to 47 TIO, 48 PPS_IN, and on); unlisted: fused. [R155; log 10] -/
  tdc : Tab W32 := []
  /-- Quality and era of the lead as its last time message gave them. [R136, R166; spec] -/
  leadQual : Quality := .free
  leadEra : Option Nat := none
deriving DecidableEq, Repr

/-- A loaded stroke-plan job (R183). -/
structure PlanJob where
  course : Nat
  slot   : Nat
  fret   : Nat
  crit   : Bool
  budget : Nat
  entry  : W32
  arg    : W32
deriving DecidableEq, Repr

/-- A loaded plan (R183). -/
structure Plan where
  profile : Nat
  period  : Nat
  mask    : BitVec 16
  crc     : W32
  planId  : W64
  jobs    : List PlanJob
deriving DecidableEq, Repr

/-- A job held by a fret gate for a stroke (R186). -/
structure GateJob where
  fret   : Nat
  crit   : Bool
  adhoc  : Option JobRec := none
  index  : Nat
  budget : Nat
  entry  : W32
  arg    : W32
  stroke : Nat
deriving DecidableEq, Repr

/-- A fret gate (R186, R188). -/
structure Gate where
  /-- FG_NEXT, FG_ARG, 32 bits each. [R188; spec] -/
  entry : W32 := 0
  arg : W32 := 0
  /-- FG_BUDGET, 32 bits. [R188; spec] -/
  remain : Nat := 0
  /-- The job running, if any. [R186; spec] -/
  cur : Option GateJob := none
  /-- FG_STAT.job, adhoc, ovr of the current or last job. [R188; spec] -/
  job : Nat := 0
  adhoc : Bool := false
  ovr : Bool := false
  /-- That overrun fell in a rated stroke. [R193; spec] -/
  ovrRated : Bool := false
  /-- A job has been released and FG_NEXT has not yet been read for it. [R187; spec] -/
  fresh : Bool := false
  /-- Jobs of the stroke not yet released, in order. [R186; spec] -/
  queue : List GateJob := []
  /-- Excess of the running overrun job in cycles; phase of cycles within the tick. [R193; model] -/
  excess : Nat := 0
  /-- VT64 of the boundary of the stroke in which the job was released. [R192; spec] -/
  relVt : W64 := 0
  /-- This engine's overruns in rated strokes. [R194; spec] -/
  ratedOvr : Nat := 0
deriving DecidableEq, Repr

/-- The group-1 statistics (R193). -/
structure StrokeStats where
  strokes  : Nat := 0
  ratedHit : Nat := 0
  ovrNow   : Nat := 0
  skipNow  : Nat := 0
  largest  : Nat := 0
  perCourse : Tab Nat := []
  least    : Tab Nat := []
  byFret   : Tab Nat := []
deriving DecidableEq, Repr

/-- The stroke machinery (spec/07). -/
structure Stroke where
  /-- The first stroke has started. [R176; spec] -/
  started : Bool := false
  /-- STK_NUM, STK_VT, 64 bits each. [R199; spec] -/
  num : Nat := 0
  vt : W64 := 0
  /-- The anchor: stroke number and VT64. [R174; spec] -/
  anchorN : Nat := 0
  anchorVt : W64 := 0
  /-- STK_PERIOD, ns. [R173, R199; spec] -/
  period : Nat := 100000
  /-- STK_STAT.profile, eclk; its fret follows from VT64 and the grid. [R199; spec] -/
  profile : Nat := 4
  eclk : Nat := 0
  /-- STK_STAT.ovl. [R196; spec] -/
  ovl : Nat := 0
  /-- Something of R195 has happened in this stroke. [R195; spec] -/
  loaded : Bool := false
  /-- OVERRUN_POLICY: policy, overload_strokes (0 selects 10,000). [R191, R196; spec] -/
  policy : Nat := 0
  overloadStrokes : Nat := 0
  /-- Plan slots 0 to 3. [R183; spec] -/
  plans : Tab Plan := []
  /-- The active slot. [R185, R199; spec] -/
  active : Option Nat := none
  /-- Fret gates: key 12 x course + slot. [R188; spec] -/
  gates : Tab Gate := []
  /-- Statistics. [R193; spec] -/
  stats : StrokeStats := {}
  /-- Any overrun in the running rated stroke. [R193; spec] -/
  hitNow : Bool := false
  /-- Courses powered, and courses in the profile for new work. [R179; spec] -/
  powered : BitVec 16 := 0xFFFF
  inProfile : BitVec 16 := 0xFFFF
  /-- Group 1 and the per-engine words as the last boundary captured them. [R194; spec] -/
  captured : List W32 := []
  capturedEng : List W32 := []
  /-- Groups 0 and 2 as the last boundary captured them. [R125, R169; spec] -/
  captured0 : List W32 := []
  captured2 : List W32 := []
  /-- Resumption of stream chords has begun (a non-Service profile has taken effect). [R69; spec] -/
  resumes : Bool := false
deriving DecidableEq, Repr

/-- The snapshot shadow registers (R129). -/
structure Snap where
  /-- SNAP_CTL.hold. [R129; spec] -/
  hold : Bool := false
  /-- SNAP_SEL.groups in force, 8 bits, and as written for the next boundary. [R129; spec] -/
  sel : BitVec 8 := 7
  /-- SNAP_SEQ, 32 bits. [R129; spec] -/
  seq : W32 := 0
  /-- SNAP_STROKE, SNAP_VT of the visible bank. [R129; spec] -/
  stroke : W64 := 0
  vt : W64 := 0
  /-- SNAP_DATA of the visible bank; unlisted words read 0. [R129; spec] -/
  data : Tab W32 := []
  /-- The hidden bank: stroke, VT64, words; none once switched. [R129; spec] -/
  hidden : Option (W64 × W64 × Tab W32) := none
deriving DecidableEq, Repr

end Sys2Proof.Machine
end

