-- ==== Sys2Proof/Machine/StateLife.lean ====
section
/-! DEFINITION. eMRAM, spares and health (spec/03, 14, 20, 21). -/
namespace Sys2Proof.Machine

/-- A capsule of the fault journal in eMRAM (R522). -/
structure Capsule where
  vt        : W64
  quality   : Quality
  era       : Nat
  stroke    : Nat
  entries   : List JEntry
  lost      : Nat
deriving DecidableEq, Repr

/-- The state of a CSM spare bank in CSM_SPARE (R366). -/
inductive BankState where
  | idle | shadow | active | failed
deriving DecidableEq, Repr

/-- eMRAM: kept through every reset (R44). -/
structure Emram where
  /-- History marker. [R66; spec] -/
  marker : Bool := false
  /-- VT64 last saved, 64 bits. [R66; spec] -/
  savedVt : W64 := 0
  /-- TIME_SOURCE list. [R139; spec] -/
  prio : List Nat := [1, 2, 3]
  /-- User entries of the tuning table, by item. [R540, R67; spec] -/
  tune : Tab W32 := []
  /-- Severities set by FCU_SEVERITY. [R509; spec] -/
  sev : Tab Nat := []
  /-- SPARE_POLICY by class. [R529; spec] -/
  policy : Tab Nat := []
  /-- Spare map: engine slot (12 x course + slot) to physical engine. [R532; spec] -/
  slotPhys : Tab Nat := []
  /-- Units RETIRED or FAILED: key 4096 x class + index. [R532; spec] -/
  retired : List Nat := []
  /-- CSM spare banks: key 8 x course + k: state and logical bank. [R366, R532; spec] -/
  csmSpare : Tab (BankState × Nat) := []
  /-- BRL lane out of service by link. [R487, R532; spec] -/
  laneOut : Tab Nat := []
  /-- Crystal path in service at the next start: true B. [R532; spec] -/
  oscB : Bool := false
  /-- Pegbox pair that is active. [R532; spec] -/
  pbxPair : Nat := 0
  /-- Repair list: class, index (the engine of an LSP row) and detail. [R379, R531; spec] -/
  repairs : List (Nat × Nat × W64) := []
  /-- DRAM remap table, 256 entries: data row address. [R379; spec] -/
  remap : List W64 := []
  /-- Capsules uncommitted, oldest first, at most two. [R522; spec] -/
  capsules : List Capsule := []
  /-- HSS signatures left. [R125; log 13] -/
  hssLeft : Nat := 33554432
  /-- The recovery image as stored, header first. [R48, R50; log 10] -/
  recovery : Option (List Byte) := none
  /-- xSPI regions as stored: 0 CS0 firmware at 0x0000_0000, 1 CS0 patch at 0x0050_0000, 2 and 3 the same on CS1; a region
  not listed is erased. [R48; log 10] -/
  flash : Tab (List Byte) := []
  /-- Images being written, with the command that writes each: QP, command, target (`recovery` is 4), bytes. [R123; log 134] -/
  writing : List (Nat × Nat × Nat × List Byte) := []
  /-- Operating hours; hours at Tj 105 or more, as the health service accounts them. [R543; log 1] -/
  hours : Nat := 0
  hotHours : Nat := 0
  /-- Ten-minute samples not yet a whole hour: all, and those at Tj 105 or more. [R526; model] -/
  tens : Nat := 0
  hotTens : Nat := 0
  /-- Lane eye margins at first training: key 5 x link + lane. [R527; log 1] -/
  firstMargin : Tab Nat := []
deriving DecidableEq, Repr

/-- A retirement proposal (R527, R543). -/
structure Proposal where
  state  : Nat
  cls    : Nat
  /-- Unit index; of a row or block class, which HEALTH_READ shows as 0xFFFF, the engine of an LSP row. -/
  index  : Nat
  reason : Nat
  src    : Nat := 0
  detail : W64 := 0
  /-- Stroke and fret it was made in, for AUTO. [R529; spec] -/
  stroke : Nat := 0
  fret   : Nat := 0
deriving DecidableEq, Repr

/-- The steps of R533. -/
inductive SeqStep where
  | selfTest | tested | shadow (since : Nat)
deriving DecidableEq, Repr

/-- A retirement or reinstatement under way (R533). `out` goes out, `inc` comes in; both are unit indexes of the
class (for a CSM bank `inc` is the spare number). -/
structure SpareSeq where
  cls      : Nat
  out      : Nat
  inc      : Nat
  reinst   : Bool
  step     : SeqStep := .selfTest
  /-- The command that waits, if any: QP and command number. -/
  waiter   : Option (Nat × Nat) := none
  /-- The proposal slot acted on, if any. -/
  slot     : Option Nat := none
  /-- The outgoing engine is in HALT or its own fault proposed it. [R535; spec] -/
  forced   : Bool := false
  /-- Rows copied so far: bit r for row r. [R367, R534; spec] -/
  copied   : Nat := 0
deriving DecidableEq, Repr

/-- Health monitors and spare management (spec/21). -/
structure Health where
  /-- The 64-slot proposal table. [R527; spec] -/
  props : Tab Proposal := []
  /-- Sequences under way. [R533; spec] -/
  seqs : List SpareSeq := []
  /-- Ring-oscillator degradation of the 19 monitors, ppm. [R526; spec] -/
  deltas : List Nat := []
  /-- Mono time of the last sample. [R526; model] -/
  sampled : Nat := 0
  /-- The spare pegbox pair is in SHADOW. [R536; spec] -/
  pbxShadow : Bool := true
  /-- A crystal path is being compared (true B); the comparison passed. [R537; spec] -/
  oscCompare : Option Bool := none
  oscAgreed : Bool := false
  /-- The standby crystal path is good. [R543; spec] -/
  oscStandby : Bool := true
  /-- Corrected reads by LSPs (key 2n) and CSM (2n + 1) of course n at the last hour's end; in that hour, by course.
  [R543, R544; spec] -/
  corrected : Tab W32 := []
  hourLsp : Tab Nat := []
  hourCsm : Tab Nat := []
deriving DecidableEq, Repr

end Sys2Proof.Machine
end

