-- ==== Sys2Proof/Machine/StateSen.lean ====
section
/-! DEFINITION. The sympathetic event network, the timers and the TIO pins (spec/16). -/
namespace Sys2Proof.Machine

/-- A consumer input of the SEN (R402). -/
inductive SenConsumer where
  | irq (course phys k : Nat) | capture (t k : Nat) | count (t : Nat) | start (t : Nat)
deriving DecidableEq, Repr

/-- An event travelling through one channel, its routing fixed in the cycle it was asserted (R404). A pin edge on
its way to the captures of its pin (R415) carries channel 64 + pin and the pin's stamp. -/
structure SenEvent where
  prod      : Nat
  ch        : Nat
  due       : Nat
  consumers : List SenConsumer
  stamp     : Option (W64 × Quality) := none
deriving DecidableEq, Repr

/-- A capture waiting to land (R416): its value, its stamp. -/
structure CapWait where
  value : W64
  stamp : W64
  ql    : Quality
deriving DecidableEq, Repr

/-- A timer (R411). -/
structure Timer where
  /-- TMR_CTL: pre, deng, dbgf, mode, run. [R411; spec] -/
  pre : Nat := 0
  deng : Nat := 0
  dbgf : Bool := false
  mode : Nat := 0
  run : Bool := false
  /-- TMR_EVCTL: coinc, sten, stch, evch. [R411; spec] -/
  coinc : Nat := 0
  sten : Bool := false
  stch : Nat := 0
  evch : Nat := 0
  /-- TMR_CMPCTL, 32 bits. [R411; spec] -/
  cmpctl : W32 := 0
  /-- TMR_CAPSEL, 32 bits with its coinc fields. [R411; spec] -/
  capsel : W32 := 0
  /-- TMR_STAT: carry_pend, out, ovf, ovr, fresh, m, arm. [R411; spec] -/
  carry : Bool := false
  out : Bool := false
  ovf : Bool := false
  ovr : BitVec 2 := 0
  fresh : BitVec 2 := 0
  m : BitVec 4 := 0
  arm : BitVec 4 := 0
  /-- TMR_CNT, TMR_CMP, TMR_CAP: 64 bits each. [R411; spec] -/
  cnt : W64 := 0
  cmp : Vector W64 4 := Vector.replicate 4 0
  cap : Vector W64 2 := Vector.replicate 2 0
  /-- The high-word latch of a capture read. [R416; log 1] -/
  capLatch : Vector W32 2 := Vector.replicate 2 0
  /-- Captures of each channel waiting to land, at most two. [R416; spec] -/
  wait0 : List CapWait := []
  wait1 : List CapWait := []
  /-- SEN cycle of the last CLOCK advance, or in which run was set. [R410; model] -/
  lastTick : Nat := 0
  /-- SEN cycle at whose end a carry arrives. [R420; spec] -/
  carryDue : Nat := 0
  /-- First SEN cycle in which a capture of each channel may land: one after the last read or landing.
  [R416; model] -/
  landFrom : Vector Nat 2 := Vector.replicate 2 0
deriving DecidableEq, Repr

/-- The SEN, timers and TIO pins. -/
structure Sen where
  /-- SEN_PMASK: key 16 x channel + word, 32 bits. [R401; spec] -/
  pmask : Tab W32 := []
  /-- SEN_CHCNT by channel, 32 bits. [R401; spec] -/
  chcnt : Tab W32 := []
  /-- Events on their way. [R399, R404; spec] -/
  inflight : List SenEvent := []
  /-- VE_SENSEL: key 8 x (13 x course + phys) + j, 32 bits. [R403; spec] -/
  sensel : Tab W32 := []
  /-- Timers 0 to 159. [R409; spec] -/
  timers : Tab Timer := []
  /-- TMR_GARM by word, 32 bits. [R417; spec] -/
  garm : Tab W32 := []
  /-- TIO_CFG by pin: func, edge, safe, drv, tmr, miss. [R422; spec] -/
  tio : Tab W32 := []
  /-- Mono time of the last stamped edge, by pin (0 to 47 TIO, 48 PPS_IN, 49 PPS_OUT, 50 to 53 DRDY). [R156; spec] -/
  lastEdge : Tab Nat := []
  /-- Miss counts of the pins whose chapter reports none: 49 PPS_OUT, 50 to 53 DRDY. [R156; spec] -/
  edgeMiss : Tab Nat := []
  /-- Balls that follow a timer's out 4 SEN cycles later, oldest first: pin, SEN cycle, level. [R414; spec] -/
  ballDue : List (Nat × Nat × Bool) := []
  /-- Storm windows: SEN cycles asserted in the running window, by channel. [R517; spec] -/
  storm : Tab Nat := []
  /-- Cores halted by a debugger: 13 x course + phys, 208 the pegbox; releasing in the next SEN cycle. [R419; spec] -/
  debugHalt : List Nat := []
deriving DecidableEq, Repr

/-- A port of the sensor block: PORT_CONFIG bytes and the port's working state (spec/17). -/
structure Port where
  /-- The configuration bytes in force; none until one is set. [R433; spec] -/
  cfg : List Byte := []
  /-- Link up as R447 defines it for CSI-2 and Ethernet. [R447; log 9] -/
  linkUp : Bool := false
  /-- CAN bus-off. [R444; spec] -/
  busOff : Bool := false
  /-- The 15 counters, 32 bits, wrapping. [R447; spec] -/
  cnt : Tab W32 := []
  /-- LIDAR_RULES, 32 bytes each. [R441; spec] -/
  rules : List (List Byte) := []
  /-- SPI: a transaction runs: its stamp and quality; overlaps since the last record, and their last stamp.
  [R445, R446; spec] -/
  spiRun : Option (W64 × Quality) := none
  /-- The bytes the transaction in progress reads, under the configuration it began with. [R433, R445; spec] -/
  spiLen : Nat := 0
  overlaps : Nat := 0
  lastOverlap : W64 := 0
deriving DecidableEq, Repr

/-- A CSI-2 frame in progress on one port and VC (R437), with the VC entry it began under (R433). -/
structure CsiFrame where
  entry  : List Byte
  frame  : W16
  base   : W64
  baseQl : Quality
  nobase : Bool
  lines  : Nat
  fsVt   : W64
  fsQl   : Quality
  /-- LS stamp of the line to come, with its quality. -/
  ls     : Option (W64 × Quality)
deriving DecidableEq, Repr

/-- An ingress stream (R425 to R431). -/
structure IngStream where
  /-- Bound ring: base, length, QP. [R426; spec] -/
  ring : Option (Nat × Nat × Nat) := none
  /-- Next record's place in the ring. [R428; spec] -/
  pos : Nat := 0
  /-- Per-stream record count. [R427; spec] -/
  seq : Nat := 0
  /-- Handle given by STREAM_BIND. [R426; log 1] -/
  handle : Nat := 0
  /-- The function that bound it. [R120; model] -/
  owner : Nat := 0
  /-- Class of an INGRESS_CLASS. [R429; spec] -/
  cls : Option Nat := none
  /-- Refused since the last gap record: first seq, first stamp, its quality, last stamp, count. [R431; spec] -/
  refused : Option (Nat × W64 × Quality × W64 × Nat) := none
deriving DecidableEq, Repr

/-- A record admitted and not yet written to its ring (R427, R428). -/
structure IngRecord where
  stream  : Nat
  vt      : W64
  /-- First physical stamp, and its quality. -/
  stamp   : W64
  ql      : Quality
  seq     : Nat
  cls     : Nat
  info    : Nat
  aux32   : W32
  aux64   : W64
  payload : List Byte
deriving DecidableEq, Repr

/-- A camera trigger (R438). -/
structure Trigger where
  /-- Schedule: phase_vt, period_vt, width_vt; period 0 none. [R438; spec] -/
  phase : Nat := 0
  period : Nat := 0
  width : Nat := 0
  /-- VT64 at which the pulse in progress falls, or the last one fell, carried through steps. [R438, R439; spec] -/
  fall : Option W64 := none
  /-- A pulse is in progress. [R438; spec] -/
  high : Bool := false
  /-- The rising edges of the last 2^32 vt with their quality, newest first. [R437; spec] -/
  edges : List (W64 × Quality) := []
deriving DecidableEq, Repr

/-- The sensor ports, ingress and triggers. -/
structure Ports where
  /-- Ports: key 8 x type + port. [R424, R433; spec] -/
  ports : Tab Port := []
  /-- CSI-2 frames in progress: key 16 x port + VC. [R437; spec] -/
  frames : Tab CsiFrame := []
  /-- The trigger edges the frames of a VC have used, newest first: key 16 x port + VC. [R437; spec] -/
  usedEdge : Tab (List W64) := []
  /-- Streams by stream ID. [R425; spec] -/
  streams : Tab IngStream := []
  /-- Next stream handle. [R426; log 1] -/
  nextHandle : Nat := 0
  /-- ING_THR by class, KiB. [R432; spec] -/
  thr : Vector Nat 8 := #v[0x800, 0xC00, 0x1000, 0x1400, 0x1800, 0x1C00, 0x1E00, 0x2000]
  /-- Ingress buffer: bytes held, peak in KiB since the last read, peak in the stroke. [R430, R432, R448; spec] -/
  fill : Nat := 0
  peak : Nat := 0
  strokePeak : Nat := 0
  /-- Admitted records, oldest first. [R428, R430; spec] -/
  queue : List IngRecord := []
  /-- Group 4: bytes admitted and records refused by class. [R448; spec] -/
  admitted : Tab Nat := []
  refusedBy : Tab Nat := []
  /-- Triggers 0 to 15. [R438; spec] -/
  trigs : Tab Trigger := []
deriving DecidableEq, Repr

end Sys2Proof.Machine
end

