-- ==== Sys2Proof/Machine/StateEng.lean ====
section
/-! DEFINITION. The vector engines: scalar core, short-vector unit, stream unit (spec/08 to 13). -/
namespace Sys2Proof.Machine

/-- VE_CTL.state (R60). -/
inductive VeState where
  | off | bist | idle | run | shadow | retired | halt
deriving DecidableEq, Repr

/-- A buffered store (R241): bytes at an address, and its place in the program order of the engine's stores. -/
structure StoreEnt where
  addr  : Nat
  bytes : List Byte
  seq   : Nat := 0
deriving DecidableEq, Repr

/-- An outstanding load (R238): the registers it will write with their values, or the failing address. -/
structure LoadEnt where
  writes : List (Nat × W32)
  err    : Option W32 := none
deriving DecidableEq, Repr

/-- A division that runs (R249, R284): result, destination, division by zero, cycles it still takes. -/
structure DivRun where
  rd     : Nat
  result : W32
  dz     : Bool
  cycles : Nat
deriving DecidableEq, Repr

/-- A queued asynchronous error (R280). -/
inductive AsyncErr where
  | buserr (addr : W32) | startErr (dma : Bool) (instr : W32)
deriving DecidableEq, Repr

/-- An outstanding privileged start (R286): what it started and the address of the instruction. -/
inductive PrivStart where
  | stream (ticket : Nat) (instr : W32) | dma (ch : Nat) (instr : W32)
deriving DecidableEq, Repr

/-- A vector instruction issued and not complete (R302, R307): its element flags, the g registers it writes, and for a
store its place in the program order of the engine's stores. -/
structure VecRun where
  flags  : Nat
  writes : List (Nat × W32) := []
  store  : Bool := false
  seq    : Nat := 0
deriving DecidableEq, Repr

/-- An entry whose handler's first instruction has not issued (R274, R275, R281): the interrupt source, none for an
exception; its cycle, and the one at which that instruction issues; g30, the stack word, the mode and the store buffer
before it. -/
structure EntryRun where
  source   : Option Nat
  age      : Nat := 0
  due      : Nat := 12
  oldG30   : W32
  stackAt  : Option (Nat × List Byte)
  oldPriv  : Nat
  oldIe    : Bool
  stores   : List StoreEnt
deriving DecidableEq, Repr

/-- A micro-thread (R341, R342). -/
structure UThread where
  /-- Active, upc, the return address of CALL. [R342, R344; spec] -/
  active : Bool := false
  upc : Nat := 0
  ret : Nat := 0
  /-- ucnt0 to ucnt3, uidx, ucur0, ucur1: 32 bits; uacc0 to uacc7: 64 bits. [R342; spec] -/
  ucnt : Vector W32 4 := Vector.replicate 4 0
  uidx : W32 := 0
  ucur : Vector W32 2 := Vector.replicate 2 0
  uacc : Vector W64 8 := Vector.replicate 8 0
  /-- The last UALU result was 0; the last CMP found less. [R345; spec] -/
  z : Bool := false
  lt : Bool := false
  /-- The END word's status code, once executed. [R344; spec] -/
  ended : Option Nat := none
  /-- Elements its EXEC words have worked on. [R344; model] -/
  execd : Nat := 0
  /-- Cycles since its last word; those until its next may issue; it stands at a CWAIT. [R341, R343, R344; model] -/
  waited : Nat := 0
  hold : Nat := 0
  cwait : Bool := false
deriving DecidableEq, Repr

/-- Where a chord stands (R312, R313, R354, R355). -/
inductive ChordState where
  | queued | running | stopping | stopped | abandoned
deriving DecidableEq, Repr

/-- A chord (R311 to R340). -/
structure Chord where
  ticket  : Nat
  /-- Address of the start instruction. -/
  instr   : W32
  /-- Address of the first descriptor, and the descriptors as read at its check, 64 bytes each. -/
  addr    : Nat
  descs   : List (List Byte) := []
  /-- Started at handler level (R313). -/
  handler : Bool
  /-- Its reads follow the engine's stores before this one (R314). -/
  after   : Nat := 0
  checked : Bool
  /-- Restart mode, patch bank and staging fixed at the check (R348, R352, R356). -/
  restart : Bool
  bank    : Nat
  staged  : Bool := false
  state   : ChordState := .queued
  /-- Committed elements of the last operation; flags, NOPRIOR, NOPOST counts and bytes so far. -/
  index   : Nat := 0
  flags   : Nat := 0
  noprior : Nat := 0
  nopost  : Nat := 0
  bytes   : Nat := 0
  /-- Ended by SCANCEL: completes with CANCELLED at its stop. -/
  cancel  : Bool := false
  /-- A staged chord past its commit point (R357). -/
  committed : Bool := false
  /-- Its microwords since its stop became pending: none issued, else whether one was a trap point (R353). -/
  trap    : Option Bool := none
  /-- The bytes its commits have overwritten, as they were: an uninterrupted run has read them so (R337). -/
  undo    : Tab Byte := []
deriving DecidableEq, Repr

/-- The stream unit of an engine (R311 to R359). -/
structure StreamUnit where
  /-- Next ticket, 8 bits. [R312; spec] -/
  next : Nat := 0
  /-- Outstanding chords, in ticket order within each level. [R312; spec] -/
  chords : List Chord := []
  /-- Status words of the last 16 completed chords, newest first. [R315; spec] -/
  doneSt : List (Nat × W32) := []
  /-- SSTAT items 0 to 5 of the last completed chord: status, ticket, flags, counts, bytes, START_ERR.
  [R336; log 1] -/
  lastStatus : W32 := 0
  lastTicket : Nat := 0
  lastFlags : Nat := 0
  lastCounts : W32 := 0
  lastBytes : W32 := 0
  startErr : W32 := 0
  /-- Patch RAM banks and the current one. [R348, R351; spec] -/
  banks : Vector (Option PatchBody) 2 := Vector.replicate 2 none
  bank : Nat := 0
  /-- SEQ_CNT.restarts, traps, 16 bits, saturating. [R351; spec] -/
  restarts : Nat := 0
  traps : Nat := 0
  /-- Micro-threads t0 to t3. [R341; spec] -/
  threads : Vector UThread 4 := Vector.replicate 4 {}
  /-- The last thread that used uacc0 to uacc7. [R353; spec] -/
  uaccBy : Nat := 0
  /-- Stage buffer halves: program and handler level bytes, by destination address. [R356; spec] -/
  stageP : Tab Byte := []
  stageH : Tab Byte := []
  stageInUse : BitVec 2 := 0
deriving DecidableEq, Repr

/-- A physical vector engine (R202). -/
structure Engine where
  /-- VE_CTL: state, remap, run. [R60; spec] -/
  st : VeState := .off
  remap : Bool := true
  run : Bool := false
  /-- g0 to g31, 32 bits; g0 reads as zero. [R205; spec] -/
  g : Vector W32 32 := Vector.replicate 32 0
  /-- v0 to v31, 512 bits; VL, VSHAPE, VPOS. [R291; spec] -/
  v : Vector (BitVec 512) 32 := Vector.replicate 32 0
  vl : Nat := 0
  vshape : W32 := 0
  vpos : Nat := 0
  /-- MODE.priv, ie. [R207; spec] -/
  priv : Nat := 3
  ie : Bool := false
  /-- ESTAT fields. [R267; spec] -/
  npriv : Nat := 0
  nie : Bool := false
  ppriv : Nat := 0
  pie : Bool := false
  esc : Bool := false
  skip : Bool := false
  shadow : Bool := false
  ds : Bool := false
  exl : Bool := false
  /-- EPC, EBT, ECAUSE, EVBASE, ESTACK, EADDR, 32 bits. [R206; spec] -/
  epc : W32 := 0
  ebt : W32 := 0
  ecause : W32 := 0
  evbase : W32 := 0x08000000
  estack : W32 := 0
  eaddr : W32 := 0
  /-- LC, LS, LE of levels 0 and 1. [R206, R220; spec] -/
  lc : Vector W32 2 := Vector.replicate 2 0
  ls : Vector W32 2 := Vector.replicate 2 0
  le : Vector W32 2 := Vector.replicate 2 0
  /-- MOD_BASE, MOD_LEN 0 to 3. [R206; spec] -/
  modBase : Vector W32 4 := Vector.replicate 4 0
  modLen : Vector W32 4 := Vector.replicate 4 0
  /-- CYCLE and INSTRET, 64 bits; FCSR; SCRATCH0, 1. [R206, R250; spec] -/
  cycle : W64 := 0
  instret : W64 := 0
  fcsr : W32 := 0
  scratch : Vector W32 2 := Vector.replicate 2 0
  /-- Address of the next instruction; the branch target pending over a delay slot. [R217, R218; spec] -/
  pc : W32 := 0
  delay : Option W32 := none
  /-- The branch whose delay slot is next was taken: the slot's completion discards the queue. [R235; model] -/
  taken : Bool := false
  /-- An MTC whose shadow has not completed: register and value. [R209; spec] -/
  mtc : Option (Nat × W32) := none
  /-- The prefetch queue: address and word, none where the fetch faults. [R235; spec] -/
  pq : List (W32 × Option W32) := []
  /-- Words as they stood when a store met them within the 4 ahead, until the queue is discarded. [R236; model] -/
  held : List (W32 × Option W32) := []
  /-- Remap as fetch sees it, until an IFLUSH. [R61; spec] -/
  fetchRemap : Bool := true
  /-- Store buffer, oldest first, at most 8; outstanding loads, at most 4. [R238, R241; spec] -/
  stores : List StoreEnt := []
  loads : List LoadEnt := []
  /-- Stores issued, in program order. [R306, R314; model] -/
  storeSeq : Nat := 0
  /-- A division running. [R249; spec] -/
  div : Option DivRun := none
  /-- A read of FG_NEXT stalls. [R187; spec] -/
  fgWait : Bool := false
  /-- The WAIT at pc stalls. [R216; spec] -/
  waiting : Bool := false
  /-- Vector instructions issued and running, at most 4 in the queue. [R307; spec] -/
  vq : List VecRun := []
  /-- Asynchronous errors queued, at most 12; privileged starts outstanding, at most 4. [R280, R286; spec] -/
  asyncQ : List AsyncErr := []
  starts : List PrivStart := []
  /-- Cycles left of the handler's window. [R281; spec] -/
  window : Nat := 0
  /-- The entry under way, until its handler's first instruction issues. [R274, R275; spec] -/
  entry : Option EntryRun := none
  /-- IRQ_PEND, IRQ_EN, 21 bits; IRQ_LVL0, IRQ_LVL1. [R276; spec] -/
  irqPend : BitVec 21 := 0
  irqEn : BitVec 21 := 0
  irqLvl0 : W32 := 0
  irqLvl1 : BitVec 10 := 0
  /-- The stream unit. [R311; spec] -/
  su : StreamUnit := {}
  /-- The 256 KiB local scratchpad. [R202; spec] -/
  lsp : Mem := []
deriving DecidableEq, Repr

/-- The engines: key 13 x course + physical engine. -/
structure Engines where
  /-- The engines. [R201; spec] -/
  tab : Tab Engine := []
  /-- ECLK cycles owed to the engines: fraction of a cycle in units of 1/40. [R9; log 4] -/
  frac : Nat := 0
deriving DecidableEq, Repr

end Sys2Proof.Machine
end

