-- ==== Sys2Proof/Machine/StateMem.lean ====
section
/-! DEFINITION. Memories, bus matrix and DMA channels (spec/14, 15, 22). -/
namespace Sys2Proof.Machine

/-- The ECC record of one memory instance (R372) and the codewords in error it holds (R369, R373). -/
structure EccRec where
  /-- ECC_CE, 32 bits, wrapping. [R372; spec] -/
  ce : W32 := 0
  /-- ECC_UE: sym 8 bits, last_ue 1 bit, ue 16 bits wrapping. [R372; spec] -/
  sym : Nat := 0
  lastUe : Bool := false
  ue : Nat := 0
  /-- ECC_ADDR, 32 bits. [R372; spec] -/
  addr : W32 := 0
  /-- An injection pending (ECC_UE.armed): checker 0 STORE or 1 READ, and the check bytes to invert. [R373; spec] -/
  armed : Option (Nat × Nat) := none
  /-- Codewords that differ from the code: index to (exponent of x, byte in error). [R368; spec] -/
  bad : Tab (List (Nat × Byte)) := []
  /-- Of those, the ones an injection has left so. [R373, R523; spec] -/
  injected : List Nat := []
  /-- Codewords corrected on a read and not yet written back. [R369; spec] -/
  back : List Nat := []
  /-- Mono time of a codeword's last correction, and whether it has been written back since. [R527; model] -/
  last : Tab (Nat × Bool) := []
  /-- Codewords corrected twice within 24 h with a write-back between, not yet proposed. [R527; model] -/
  twice : List Nat := []
  /-- Mono times of the latest corrected reads of a unit, newest first, at most 65: CSM logical bank, or 0 for an LSP.
  [R527; model] -/
  times : Tab (List Nat) := []
  /-- Units with more than 64 corrected reads in one hour, not yet proposed. [R527; model] -/
  dense : List Nat := []
deriving DecidableEq, Repr

/-- Memories and the bus matrix. -/
structure Fabric where
  /-- ECC records: key of `MemInst.key`. [R372; spec] -/
  ecc : Tab EccRec := []
  /-- CSM by course, 4 MiB each. [R364; log 2] -/
  csm : Tab Mem := []
  /-- DRAM by data address. [R376; log 2] -/
  dram : Mem := []
  /-- FAB_ERR: valid, kind, write, master, count; FAB_ERR_ADDR, 40 bits. [R385; spec] -/
  errValid : Bool := false
  errTimeout : Bool := false
  errWrite : Bool := false
  errMaster : Nat := 0
  errCount : Nat := 0
  errAddr : Nat := 0
  /-- LSP_ARB.starve_lim by course, 20 bits. [R363; spec] -/
  starve : Tab Nat := []
  /-- CRS_DWIN.base by course, 14 bits. [R380; spec] -/
  dwin : Tab Nat := []
  /-- CRS_LSPSEL.phys by course, 4 bits. [R549; spec] -/
  lspSel : Tab Nat := []
  /-- CRS_RWIN.base: key 16 x course + w, 9 bits. [R551; spec] -/
  rwin : Tab Nat := []
  /-- Low halves held for a write of their high half, by BAR0 offset of the pair. [R4; spec] -/
  heldLo : Tab W32 := []
deriving DecidableEq, Repr

/-- A DMA channel (R391). -/
structure DmaCh where
  /-- DMA_NEXT, 64 bits. [R391; spec] -/
  next : W64 := 0
  /-- DMA_STAT: code, cause, refused, tag. [R391; spec] -/
  code : Nat := 0
  cause : Nat := 0
  refused : Bool := false
  tag : Nat := 0
  /-- DMA_POS: i0, i1, i2, 16 bits each. [R391; spec] -/
  i0 : Nat := 0
  i1 : Nat := 0
  i2 : Nat := 0
  /-- DMA_CUR, DMA_DONE. [R391; spec] -/
  cur : W64 := 0
  done : W32 := 0
  /-- The descriptor fetched and checked, 64 bytes. [R392; spec] -/
  desc : Option (List Byte) := none
  /-- A stop has been written. [R393; spec] -/
  stopReq : Bool := false
  /-- The engine and store address of a go whose check has not ended. [R393; spec] -/
  starter : Option (Eng × W32) := none
deriving DecidableEq, Repr

/-- The DMA channels: key 16 x course + channel. -/
structure Dma where
  /-- The channels. [R391; spec] -/
  ch : Tab DmaCh := []
deriving DecidableEq, Repr

end Sys2Proof.Machine
end

