-- ==== Sys2Proof/Machine/StateLog.lean ====
section
/-! DEFINITION. The log store and the bridge links (spec/18, 19). -/
namespace Sys2Proof.Machine

/-- A log record (R463): its header fields and its body. -/
structure LogRec where
  kind   : Nat
  cls    : Nat
  info   : Nat
  era    : Nat
  vt     : W64
  evt    : W64
  stream : Nat
  trig   : W32 := 0xFFFFFFFF
  body   : List Byte
  /-- Log sequence number, once placed (R466). -/
  seq    : Nat := 0
  /-- Placed in the SLC region, and the segment that holds it. -/
  slc    : Bool := false
  seg    : Nat := 0
  /-- The LGS_SEAL or FJ_EXPORT that waits for its commit: QP and command (R469, R522). -/
  waiter : Option (Nat × Nat) := none
  /-- It holds the older capsule, whose slot its commit frees (R522). -/
  capsule : Bool := false
deriving DecidableEq, Repr

/-- An open trigger (R460, R461). -/
structure LogTrig where
  id    : Nat
  t     : W64
  pre   : Nat
  post  : Nat
  cls   : Nat
  /-- 0 command, 1 append, 2 power-fail (R464). -/
  src   : Nat
  /-- Earliest and latest record time committed. -/
  span  : Option (W64 × W64) := none
deriving DecidableEq, Repr

/-- Records refused or overwritten and not yet in a GAP record (R464, R471). -/
structure LogGap where
  stream : Nat
  cls    : Nat
  cause  : Nat
  count  : Nat
  first  : W64
  last   : W64
deriving DecidableEq, Repr

/-- A segment in use (R473). -/
structure Segment where
  slc      : Bool
  firstSeq : Nat
  vt       : W64
  gen      : Nat
  /-- Write offset in 16-byte units (R466). -/
  ofs      : Nat := 0
deriving DecidableEq, Repr

/-- The log store (spec/18). What R457, R466, R474 and R475 keep in eMRAM survives every reset. -/
structure LogStore where
  /-- NAND as fitted and as read at power-on. [R451; log 9] -/
  fit : Option NandFit := none
  /-- eMRAM: classes by number: priority, shed_order. [R453; spec] -/
  classes : Tab (Nat × Nat) := []
  /-- eMRAM: mode, ring_mib. [R457; spec] -/
  mode : Nat := 0
  ringMib : Nat := 1024
  /-- eMRAM: newest head: next_seq, generation of the head; index generation of the seals. [R466, R469; spec] -/
  nextSeq : Nat := 0
  headGen : Nat := 0
  sealGen : Nat := 0
  /-- eMRAM: the 8,192 head slots, 32 bytes each, by slot; one not listed is not valid. [R466, R467; spec] -/
  heads : Tab (List Byte) := []
  /-- eMRAM: digest of the last seal, 48 bytes; the first seq it did not cover; the records committed since.
  [R469; spec] -/
  digest : List Byte := List.replicate 48 0
  sealNext : Nat := 0
  unsealed : List LogRec := []
  /-- eMRAM: segment table; blocks' erase counts; grown bad blocks; spare blocks left; first spare count.
  [R473, R474, R475; spec] -/
  segs : Tab Segment := []
  erases : Tab Nat := []
  grown : List Nat := []
  /-- eMRAM: grown bad blocks no spare was left for; blocks to erase before their segment is used again. [R474, R475; spec] -/
  unspared : List Nat := []
  toErase : List Nat := []
  spares : Nat := 0
  spares0 : Nat := 0
  /-- Segments of the SLC region, reserved at first power-up; bulk region size in segments. [R474; spec] -/
  slcSegs : Nat := 0
  bulkSegs : Nat := 0
  /-- Open bulk and SLC segment. [R466; spec] -/
  bulkSeg : Option Nat := none
  slcSeg : Option Nat := none
  /-- Committed records retained, in seq order. [R467; spec] -/
  recs : List LogRec := []
  /-- Seqs of records with an uncorrectable codeword. [R452, R468; spec] -/
  lostRecs : List Nat := []
  /-- Commit queue: URGENT and system records; the rest; ring backfill of triggers. [R465; spec] -/
  urgent : List LogRec := []
  queue : List LogRec := []
  backfill : List LogRec := []
  /-- System records that do not fit in the commit queue yet, oldest first. [R470; spec] -/
  sysWait : List LogRec := []
  /-- Records placed, whose pages have programmed with pass status. [R466; spec] -/
  placed : List LogRec := []
  /-- Highest commit-queue fill since the last read of LGS_QFILL, and in the stroke, bytes. [R480, R481; spec] -/
  peak : Nat := 0
  strokePeak : Nat := 0
  /-- The history ring, oldest first. [R459; spec] -/
  ring : List LogRec := []
  /-- Open triggers; next trigger ID. [R460; spec] -/
  trigs : List LogTrig := []
  nextTrig : Nat := 0
  /-- Classes shed, most recent first. [R470; spec] -/
  shed : List Nat := []
  /-- Losses awaiting their GAP record. [R471; spec] -/
  gaps : List LogGap := []
  /-- LGS_STAT.pf: a flush has completed since power-on; a flush is under way. [R480, R472; spec] -/
  pf : Bool := false
  flushing : Bool := false
  /-- LGS_TRIG_PRE, LGS_TRIG_POST, 64 bits. [R480; spec] -/
  trigPre : W64 := 0x0000006FC23AC000
  trigPost : W64 := 0x0000002540BE4000
  /-- Append queues by course: LGS_APPEND words; requests accepted, 16 bits. [R455, R480; spec] -/
  appends : Tab (List W32) := []
  accepted : Tab Nat := []
  /-- Group 3: bytes and records committed in the stroke; records refused by class; read retries by channel;
  uncorrectable codewords; blocks refreshed; GAP records committed. [R481; spec] -/
  strokeBytes : Nat := 0
  strokeRecs : Nat := 0
  refusedBy : Tab Nat := []
  retries : Tab Nat := []
  uncorr : Nat := 0
  refreshed : Nat := 0
  gapRecs : Nat := 0
  /-- A scrub pass runs; the blocks it has read; mono time of the last completed pass. [R476, R481; spec] -/
  scrubbing : Bool := false
  scrubbed : List Nat := []
  scrubDone : Nat := 0
  /-- Bytes entered and bytes committed since first power-up. [R478; spec] -/
  bytesIn : Nat := 0
  bytesOut : Nat := 0
  /-- Bytes programmed, relocation and refresh included; bytes entered and committed at each of the last 168 operating
  hours, newest first. [R478; spec] -/
  programmed : Nat := 0
  hourMarks : List (Nat × Nat) := []
  /-- Blocks that needed soft-decision decoding once. [R474; spec] -/
  softOnce : List Nat := []
  /-- Successive scrub passes in which a block needed read retry. [R527; spec] -/
  retryRuns : Tab Nat := []
deriving DecidableEq, Repr

/-- A bridge link (R502). -/
structure BrLink where
  /-- BRL_STAT: state, width, spare_for, bad, nbr, nbr_ok. [R502; spec] -/
  state : Nat := 0
  width : Nat := 0
  spareFor : Nat := 7
  bad : BitVec 5 := 0
  nbr : Nat := 0
  nbrOk : Bool := false
  /-- BRL_DLY.d, 24 bits, 1/16 vt. [R502; spec] -/
  dly : Nat := 0
  /-- BRL_ERR: replays, retrains, 16 bits, wrapping. [R502; spec] -/
  replays : Nat := 0
  retrains : Nat := 0
  /-- The next sample is the first after a retrain. [R495; spec] -/
  fresh : Bool := false
  /-- VT64 at which the reply to the last time message sent came back. [R493; spec] -/
  t4 : W64 := 0
  /-- t1, t2 and t3 of the last time message answered. [R493; spec] -/
  exch : Option (W64 × W64 × W64) := none
deriving DecidableEq, Repr

/-- A remote window (R499). -/
structure RWindow where
  cube : Nat
  base : Nat
  size : Nat
deriving DecidableEq, Repr

/-- A cube command the lead waits on (R497). -/
structure CubeCmd where
  qp      : Nat
  cid     : Nat
  opcode  : Nat
  buf     : W64
  /-- The devices it went to, and the lead's own report once it is known. -/
  devs    : List Nat
  own     : Option CubeReport := none
  /-- VT64 and quality of its own completion (R116). -/
  vt      : W64 := 0
  ql      : Quality := .free
deriving DecidableEq, Repr

/-- The bridge links (spec/19). -/
structure Brl where
  /-- Links 0 to 3. [R502; spec] -/
  links : Vector BrLink 4 := Vector.replicate 4 {}
  /-- BRL_CUBE: present, lead, up, hops, self_lead. [R502; spec] -/
  present : BitVec 8 := 0
  lead : Nat := 0
  leadKnown : Bool := false
  up : Nat := 0
  hops : Nat := 0
  /-- Remote windows. [R499; spec] -/
  wins : Tab RWindow := []
  /-- Group 7: last offset to upstream, samples, timeouts. [R504; spec] -/
  lastOfs : Int := 0
  samples : W32 := 0
  timeouts : W32 := 0
  /-- LEAD_PREF of the devices present, as training brought it. [R489; spec] -/
  prefs : BitVec 8 := 0
  /-- Mono time of the last time message from the lead. [R489; model] -/
  lastMsg : Nat := 0
  /-- The lead's anchor and period as its last message gave them: stroke, VT64, ns. [R198, R493; spec] -/
  anchor : Option (Nat × W64 × Nat) := none
  /-- Cube commands whose reports are awaited. [R497; spec] -/
  cmds : List CubeCmd := []
  /-- Lead stroke and VT64 of the last boundary. [R503; spec] -/
  leadStroke : Nat := 0
  leadVt : W64 := 0
deriving DecidableEq, Repr

end Sys2Proof.Machine
end

