-- ==== Sys2Proof/Machine/State.lean ====
section
/-! DEFINITION. The state of the device, block by block, its reset, and the reasons a step can stop. -/
namespace Sys2Proof.Machine

/-- The faults of a step. No meaning of this model raises one: the spec gives every command of the table an effect,
and a device error is an effect on the state (a fault source, an error response, an exception entry). -/
inductive Fault where
  /-- Kept so that the type is not empty; raised by nobody, which is safe. -/
  | none
deriving DecidableEq, Repr

/-- The refusals of a step. -/
inductive Refusal where
  /-- An arm of `exec` whose command has no meaning yet. Safe: nothing is claimed of the command. -/
  | notModelled (mnemonic : String)
deriving DecidableEq, Repr

/-- The state of the ZLM-3192. Blocks of a kind the spec repeats (queues, engines, channels) are tables in their
block. -/
structure State where
  /-- The pins (spec/02). -/
  pins : Pins := {}
  /-- Start-up and readiness (spec/03). -/
  boot : Boot := {}
  /-- One-time fuses (R53, R124). -/
  fuses : Fuses := {}
  /-- eMRAM, kept through every reset (R44). -/
  em : Emram := {}
  /-- Host link and queues (spec/04). -/
  link : Link := {}
  /-- The Basut interpreter (spec/05). -/
  basut : Basut := {}
  /-- The time engine (spec/06). -/
  time : TimeEng := {}
  /-- The stroke machinery (spec/07). -/
  stroke : Stroke := {}
  /-- The snapshot shadow registers (R129). -/
  snap : Snap := {}
  /-- The fault collection unit and the journal (spec/20). -/
  fcu : Fcu := {}
  /-- Health and spares (spec/21). -/
  health : Health := {}
  /-- The event network, timers and TIO pins (spec/16). -/
  sen : Sen := {}
  /-- Sensor ports, ingress and triggers (spec/17). -/
  ports : Ports := {}
  /-- The vector engines (spec/08 to 13). -/
  eng : Engines := {}
  /-- Memories and the bus matrix (spec/14, 22). -/
  fab : Fabric := {}
  /-- The DMA channels (spec/15). -/
  dma : Dma := {}
  /-- The log store (spec/18). -/
  lgs : LogStore := {}
  /-- The bridge links (spec/19). -/
  brl : Brl := {}
  /-- What the device has emitted, newest first. [model] -/
  out : List Output := []
  /-- How many free values have been drawn. [log 7] -/
  free : Nat := 0
  /-- The commands waiting, first in, first out. [model] -/
  pending : List Instr := []
deriving DecidableEq, Repr

/-- The device with PORST_N low and power good, at a first power-up: eMRAM empty, every field at its block's reset
value. -/
def State.reset : State := {}

/-- Change the block `pins` alone. -/
def State.modPins (s : State) (f : Pins → Pins) : State := { s with pins := f s.pins }
/-- Change the block `boot` alone. -/
def State.modBoot (s : State) (f : Boot → Boot) : State := { s with boot := f s.boot }
/-- Change the block `fuses` alone. -/
def State.modFuses (s : State) (f : Fuses → Fuses) : State := { s with fuses := f s.fuses }
/-- Change the block `em` alone. -/
def State.modEm (s : State) (f : Emram → Emram) : State := { s with em := f s.em }
/-- Change the block `link` alone. -/
def State.modLink (s : State) (f : Link → Link) : State := { s with link := f s.link }
/-- Change the block `basut` alone. -/
def State.modBasut (s : State) (f : Basut → Basut) : State := { s with basut := f s.basut }
/-- Change the block `time` alone. -/
def State.modTime (s : State) (f : TimeEng → TimeEng) : State := { s with time := f s.time }
/-- Change the block `stroke` alone. -/
def State.modStroke (s : State) (f : Stroke → Stroke) : State := { s with stroke := f s.stroke }
/-- Change the block `snap` alone. -/
def State.modSnap (s : State) (f : Snap → Snap) : State := { s with snap := f s.snap }
/-- Change the block `fcu` alone. -/
def State.modFcu (s : State) (f : Fcu → Fcu) : State := { s with fcu := f s.fcu }
/-- Change the block `health` alone. -/
def State.modHealth (s : State) (f : Health → Health) : State := { s with health := f s.health }
/-- Change the block `sen` alone. -/
def State.modSen (s : State) (f : Sen → Sen) : State := { s with sen := f s.sen }
/-- Change the block `ports` alone. -/
def State.modPorts (s : State) (f : Ports → Ports) : State := { s with ports := f s.ports }
/-- Change the block `eng` alone. -/
def State.modEng (s : State) (f : Engines → Engines) : State := { s with eng := f s.eng }
/-- Change the block `fab` alone. -/
def State.modFab (s : State) (f : Fabric → Fabric) : State := { s with fab := f s.fab }
/-- Change the block `dma` alone. -/
def State.modDma (s : State) (f : Dma → Dma) : State := { s with dma := f s.dma }
/-- Change the block `lgs` alone. -/
def State.modLgs (s : State) (f : LogStore → LogStore) : State := { s with lgs := f s.lgs }
/-- Change the block `brl` alone. -/
def State.modBrl (s : State) (f : Brl → Brl) : State := { s with brl := f s.brl }

end Sys2Proof.Machine
end

