-- ==== Sys2Proof/Machine/Ops.lean ====
section
/-! DEFINITION. Tables, memories, byte order, and the small operations on the whole state. -/
namespace Sys2Proof.Machine

/-! ### Sparse tables -/

def tabFind {α : Type} : Tab α → Nat → Option α
  | [], _ => none
  | (k, v) :: t, i => if k == i then some v else tabFind t i

def tabGet {α : Type} (t : Tab α) (i : Nat) (d : α) : α := (tabFind t i).getD d

/-- Set one entry, keys kept rising. -/
def tabSet {α : Type} : Tab α → Nat → α → Tab α
  | [], i, v => [(i, v)]
  | (k, w) :: t, i, v =>
    if i < k then (i, v) :: (k, w) :: t
    else if i == k then (k, v) :: t
    else (k, w) :: tabSet t i v

def tabDel {α : Type} (t : Tab α) (i : Nat) : Tab α := t.filter fun p => p.1 != i

def tabMod {α : Type} (t : Tab α) (i : Nat) (d : α) (f : α → α) : Tab α := tabSet t i (f (tabGet t i d))

/-- The keys of a table rise strictly. -/
def tabWf {α : Type} : Tab α → Bool
  | [] => true
  | [_] => true
  | (k, _) :: (j, w) :: t => k < j && tabWf ((j, w) :: t)

/-- The least number below `n` that is no key of `t`. -/
def tabFresh {α : Type} (t : Tab α) (n : Nat) : Option Nat := (List.range n).find? fun i => (tabFind t i).isNone

/-! ### Memories: an unlisted byte reads 0x00 (log 2) -/

def memRead : Mem → Nat → Byte
  | [], _ => 0
  | (k, v) :: m, a => if k == a then v else memRead m a

/-- Write one byte and keep the canonical form: writing 0x00 removes the entry. -/
def memWrite : Mem → Nat → Byte → Mem
  | [], a, b => if b == 0 then [] else [(a, b)]
  | (k, v) :: m, a, b =>
    if a < k then (if b == 0 then (k, v) :: m else (a, b) :: (k, v) :: m)
    else if a == k then (if b == 0 then m else (k, b) :: m)
    else (k, v) :: memWrite m a b

/-- The canonical form: addresses rise strictly and no listed byte is 0x00. -/
def memWf : Mem → Bool
  | [] => true
  | [(_, v)] => v != 0
  | (k, v) :: (j, w) :: m => k < j && v != 0 && memWf ((j, w) :: m)

def memReadList (m : Mem) (a n : Nat) : List Byte := (List.range n).map fun i => memRead m (a + i)

def memWriteList : Mem → Nat → List Byte → Mem
  | m, _, [] => m
  | m, a, b :: bs => memWriteList (memWrite m a b) (a + 1) bs

/-! ### Byte order and fields -/

/-- Little-endian bytes as a number (R1). -/
def leNat : List Byte → Nat
  | [] => 0
  | b :: bs => b.toNat + 256 * leNat bs

/-- The low `k` bytes of a number, little-endian. -/
def leBytes : Nat → Nat → List Byte
  | 0, _ => []
  | k + 1, n => BitVec.ofNat 8 n :: leBytes k (n / 256)

/-- `n` bits of `x` from bit `lo` up. -/
def bitsAt (x lo n : Nat) : Nat := x / 2 ^ lo % 2 ^ n

def w8 (n : Nat) : Byte := BitVec.ofNat 8 n
def w16 (n : Nat) : W16 := BitVec.ofNat 16 n
def w32 (n : Nat) : W32 := BitVec.ofNat 32 n
def w64 (n : Nat) : W64 := BitVec.ofNat 64 n
def i32 (n : Int) : W32 := BitVec.ofInt 32 n
def i64 (n : Int) : W64 := BitVec.ofInt 64 n
def bit (b : Bool) : Nat := if b then 1 else 0
def lo32 (x : W64) : W32 := x.setWidth 32
def hi32 (x : W64) : W32 := (x >>> 32).setWidth 32
def mk64 (lo hi : W32) : W64 := hi ++ lo
def setLo (x : W64) (v : W32) : W64 := hi32 x ++ v
def setHi (x : W64) (v : W32) : W64 := v ++ lo32 x

/-- Add, saturating at 2^bits - 1. -/
def satAdd (bits a b : Nat) : Nat := min (a + b) (2 ^ bits - 1)

/-- Does an inclusive-exclusive range hold `x`? -/
def inRange (x lo hi : Nat) : Bool := lo ≤ x && x < hi

/-- Replace the bytes of a list from position `i`. -/
def listPatch {α : Type} (l : List α) (i : Nat) (p : List α) : List α := l.take i ++ p ++ l.drop (i + p.length)

/-- Insert into a rising list of numbers without repeats. -/
def setAdd (l : List Nat) (n : Nat) : List Nat :=
  match l with
  | [] => [n]
  | x :: xs => if n < x then n :: x :: xs else if n == x then x :: xs else x :: setAdd xs n

def setDel (l : List Nat) (n : Nat) : List Nat := l.filter (· != n)

/-- Set or clear one bit of a bit vector. -/
def putBit {w : Nat} (x : BitVec w) (i : Nat) (b : Bool) : BitVec w :=
  if b then x ||| (BitVec.ofNat w 1 <<< i) else x &&& ~~~ (BitVec.ofNat w 1 <<< i)

/-- Number of ones. -/
def popCount {w : Nat} (x : BitVec w) : Nat := ((List.range w).filter fun i => x.getLsbD i).length

/-- CRC-32C over bytes, reflected, initial and final complement (R183). -/
def crc32cByte (c : W32) (b : Byte) : W32 :=
  (List.range 8).foldl (fun c _ => if c.getLsbD 0 then (c >>> 1) ^^^ 0x82F63B78#32 else c >>> 1)
    (c ^^^ b.setWidth 32)
def crc32c (bs : List Byte) : W32 := ~~~ bs.foldl crc32cByte 0xFFFFFFFF#32

/-! Status codes (R113). -/
namespace Stat
def success := 0x00
def superseded := 0x01
def invalidOpcode := 0x02
def invalidField := 0x03
def notReady := 0x04
def accessDenied := 0x05
def exhausted := 0x06
def noObject := 0x07
def busy := 0x08
def capoMissed := 0x09
def aborted := 0x0A
def dataXfer := 0x0B
def bufShort := 0x0C
def verifyFailed := 0x0D
def mediaErr := 0x0E
def safeState := 0x0F
def internalErr := 0x12
end Stat

/-! ### The whole state -/

/-- What a step answers. -/
abbrev Res := Host.Outcome State Fault Refusal

/-- A command whose effect happens where its condition holds; where it does not, the command does not occur and
nothing changes (log 3). -/
def act (cond : Bool) (f : State → State) (s : State) : Res := .next (if cond then f s else s)

/-- Emit towards the outside. -/
def State.emit (s : State) (o : Output) : State := { s with out := o :: s.out }

/-- Draw the next value the spec leaves open (log 7). -/
def State.draw (s : State) : W64 × State := (Config.freeValue s.free, { s with free := s.free + 1 })

/-- VT64 now. -/
def State.now (s : State) : W64 := s.time.vt64

/-! The bits of READY_MAP (R62). -/
namespace Rdy
def vt := 0
def pcieAdmin := 1
def fcu := 2
def senTmr := 3
def servo := 4
def gptp := 5
def pps := 6
def trig := 7
def csi := 8
def eth := 9
def can := 10
def spi := 11
def dram := 12
def lgsRead := 13
def lgsWrite := 14
def ucode := 15
def plan := 16
def brl := 17
def attest := 18
def health := 19
end Rdy

/-- A bit of READY_MAP (R62). -/
def State.ready (s : State) (b : Nat) : Bool := s.boot.readyMap.getLsbD b

/-- The device runs: PORST_N is high and it is not held in reset (R31). -/
def State.alive (s : State) : Bool := s.pins.porstN && !s.boot.held

/-- Rank of a quality for R136; the lead's LEAD counts as LOCKED. -/
def qualRank : Quality → Nat
  | .free => 0 | .acquire => 1 | .holdover => 2 | .locked => 3 | .lead => 3

/-- The reported quality (R136). -/
def State.quality (s : State) : Quality :=
  if s.time.source == 4 then
    (if qualRank s.time.leadQual < qualRank s.time.servo then s.time.leadQual else s.time.servo)
  else s.time.servo

/-- The code of a quality (R135). -/
def qualCode : Quality → Nat
  | .free => 0 | .acquire => 1 | .locked => 2 | .holdover => 3 | .lead => 4

/-- Device cube position (R484). -/
def State.cubeId (s : State) : Nat := bitsAt s.boot.straps.toNat 3 3

/-- The length of a stroke and of a fret in vt (R173). -/
def State.strokeVt (s : State) : Nat := s.stroke.period * 16
def State.fretVt (s : State) : Nat := s.stroke.period / 4

/-- The VT64 at which the next stroke begins (R174). -/
def State.nextBoundary (s : State) : W64 := s.stroke.vt + w64 s.strokeVt

/-- The fret VT64 has reached in the running stroke (R174). -/
def State.fretNow (s : State) : Nat :=
  if s.stroke.started then min 63 ((s.now - s.stroke.vt).toNat / s.fretVt) else 0

end Sys2Proof.Machine
end

