-- ==== Sys2Proof/Machine/Fp.lean ====
section
/-! DEFINITION. IEEE 754-2019 binary32 and binary64 by exact integer arithmetic (R253 to R264). A value is its bit
pattern as a number; flags are in the FCSR positions of R250: nv 16, dz 8, of 4, uf 2, nx 1. -/
namespace Sys2Proof.Machine

/-- A format: exponent and fraction widths. -/
structure FFmt where
  ew : Nat
  fw : Nat
deriving DecidableEq, Repr

def f32 : FFmt := { ew := 8, fw := 23 }
def f64 : FFmt := { ew := 11, fw := 52 }

def FFmt.bias (f : FFmt) : Nat := 2 ^ (f.ew - 1) - 1
def FFmt.emax (f : FFmt) : Nat := 2 ^ f.ew - 1
def FFmt.signBit (f : FFmt) (s : Bool) : Nat := if s then 2 ^ (f.ew + f.fw) else 0
def FFmt.inf (f : FFmt) (s : Bool) : Nat := f.signBit s + f.emax * 2 ^ f.fw
def FFmt.maxFinite (f : FFmt) (s : Bool) : Nat := f.inf s - 1
/-- The default NaN (R258). -/
def FFmt.nan (f : FFmt) : Nat := f.emax * 2 ^ f.fw + 2 ^ (f.fw - 1)

/-- What a bit pattern is: a NaN, an infinity, or sign and magnitude mant x 2^exp. -/
inductive FVal where
  | nan (signaling : Bool) (bits : Nat)
  | inf (sign : Bool)
  | fin (sign : Bool) (mant : Nat) (exp : Int)
deriving DecidableEq, Repr

def fdec (f : FFmt) (x : Nat) : FVal :=
  let s := x / 2 ^ (f.ew + f.fw) % 2 == 1
  let e := bitsAt x f.fw f.ew
  let m := x % 2 ^ f.fw
  if e == f.emax then
    if m == 0 then .inf s else .nan (m < 2 ^ (f.fw - 1)) x
  else if e == 0 then .fin s m (1 - (f.bias : Int) - f.fw)
  else .fin s (m + 2 ^ f.fw) ((e : Int) - f.bias - f.fw)

/-- A NaN operand quieted (R257). -/
def fquiet (f : FFmt) (x : Nat) : Nat := if bitsAt x (f.fw - 1) 1 == 1 then x else x + 2 ^ (f.fw - 1)

/-- Does the removed part push the magnitude up: `h` the half bit, `t` the bits below it, `odd` the last kept bit
(R250). -/
def roundUp (rm : Nat) (sign odd h t : Bool) : Bool :=
  match rm with
  | 0 => h && (t || odd)
  | 1 => false
  | 2 => sign && (h || t)
  | 3 => !sign && (h || t)
  | _ => h

/-- The result of an overflow (R254). -/
def fovf (f : FFmt) (rm : Nat) (sign : Bool) : Nat :=
  if rm == 0 || rm == 4 || (rm == 3 && !sign) || (rm == 2 && sign) then f.inf sign else f.maxFinite sign

/-- Round mant x 2^exp to the format: bits and flags, tininess after rounding (R254). -/
def fround (f : FFmt) (rm : Nat) (sign : Bool) (mant : Nat) (exp : Int) : Nat × Nat :=
  if mant == 0 then (f.signBit sign, 0)
  else
    let top : Int := exp + Nat.log2 mant
    let emin : Int := 1 - (f.bias : Int)
    let cut := fun (q : Int) =>
      if q ≤ exp then (mant * 2 ^ (exp - q).toNat, false)
      else
        let d := (q - exp).toNat
        let m := mant / 2 ^ d
        let r := mant % 2 ^ d
        (if roundUp rm sign (m % 2 == 1) (2 ^ (d - 1) ≤ r) (r % 2 ^ (d - 1) != 0) then m + 1 else m, r != 0)
    let q := max (top - f.fw) (emin - f.fw)
    let (m, nx) := cut q
    -- tiny: rounded with an unbounded exponent, the magnitude is below 2^emin
    let (mu, _) := cut (top - f.fw)
    let tiny := top + (if mu == 2 ^ (f.fw + 1) then 1 else 0) < emin
    let biased : Int := (if m < 2 ^ f.fw then 0 else q + f.fw + f.bias)
    let (m, biased) := if m == 2 ^ (f.fw + 1) then (2 ^ f.fw, biased + 1) else (m, biased)
    if (f.emax : Int) ≤ biased then (fovf f rm sign, 5)
    else
      let bits := f.signBit sign + (if m < 2 ^ f.fw then m else biased.toNat * 2 ^ f.fw + (m - 2 ^ f.fw))
      (bits, bit nx + 2 * bit (tiny && nx))

/-- The first NaN operand, quieted; nv where any operand is signalling (R257). -/
def fnanOf (f : FFmt) (xs : List Nat) : Option (Nat × Nat) :=
  let nans := xs.filter fun x => match fdec f x with | .nan _ _ => true | _ => false
  let snan := xs.any fun x => match fdec f x with | .nan s _ => s | _ => false
  match nans with
  | [] => none
  | x :: _ => some (fquiet f x, 16 * bit snan)

/-- Signed integer value scaled to 2^e. -/
def fscaled (s : Bool) (m : Nat) (e base : Int) : Int :=
  let v : Int := (m * 2 ^ (e - base).toNat : Nat)
  if s then -v else v

/-- Exact sum of two finite values, rounded; an exact zero sum under R255. -/
def fsum (f : FFmt) (rm : Nat) (sa : Bool) (ma : Nat) (ea : Int) (sb : Bool) (mb : Nat) (eb : Int) : Nat × Nat :=
  let base := min ea eb
  let v := fscaled sa ma ea base + fscaled sb mb eb base
  if v == 0 then
    (f.signBit (if ma == 0 && mb == 0 && sa == sb then sa else if sa == sb && ma == 0 then sa else rm == 2), 0)
  else fround f rm (v < 0) v.natAbs base

/-- fusedMultiplyAdd a x b + c, rounded once (R253, R258). -/
def fma (f : FFmt) (rm : Nat) (a b c : Nat) : Nat × Nat :=
  let prodBad := match fdec f a, fdec f b with
    | .inf _, .fin _ 0 _ => true
    | .fin _ 0 _, .inf _ => true
    | _, _ => false
  match fnanOf f [a, b, c] with
  | some (r, fl) => (r, if prodBad then 16 else fl)
  | none =>
    if prodBad then (f.nan, 16)
    else
      match fdec f a, fdec f b, fdec f c with
      | .fin sa ma ea, .fin sb mb eb, .fin sc mc ec => fsum f rm (sa != sb) (ma * mb) (ea + eb) sc mc ec
      | .fin _ _ _, .fin _ _ _, .inf sc => (f.inf sc, 0)
      | x, y, z =>
        let sg := fun v => match v with | .inf s => s | .fin s _ _ => s | .nan _ _ => false
        let sp := sg x != sg y
        match z with
        | .inf sc => if sp == sc then (f.inf sc, 0) else (f.nan, 16)
        | _ => (f.inf sp, 0)

/-- Addition (R253). -/
def fadd (f : FFmt) (rm : Nat) (a b : Nat) : Nat × Nat :=
  match fnanOf f [a, b] with
  | some r => r
  | none =>
    match fdec f a, fdec f b with
    | .fin sa ma ea, .fin sb mb eb => fsum f rm sa ma ea sb mb eb
    | .inf sa, .inf sb => if sa == sb then (f.inf sa, 0) else (f.nan, 16)
    | .inf sa, _ => (f.inf sa, 0)
    | _, .inf sb => (f.inf sb, 0)
    | _, _ => (f.nan, 16)

def fneg (f : FFmt) (x : Nat) : Nat :=
  if x / 2 ^ (f.ew + f.fw) % 2 == 1 then x - 2 ^ (f.ew + f.fw) else x + 2 ^ (f.ew + f.fw)

/-- Subtraction: a NaN in the second operand keeps its own sign (R255). -/
def fsub (f : FFmt) (rm : Nat) (a b : Nat) : Nat × Nat :=
  match fdec f b with
  | .nan _ _ => fadd f rm a b
  | _ => fadd f rm a (fneg f b)

/-- Multiplication (R253). -/
def fmul (f : FFmt) (rm : Nat) (a b : Nat) : Nat × Nat :=
  match fnanOf f [a, b] with
  | some r => r
  | none =>
    match fdec f a, fdec f b with
    | .fin sa ma ea, .fin sb mb eb => fround f rm (sa != sb) (ma * mb) (ea + eb)
    | .inf _, .fin _ 0 _ => (f.nan, 16)
    | .fin _ 0 _, .inf _ => (f.nan, 16)
    | .inf sa, .inf sb => (f.inf (sa != sb), 0)
    | .inf sa, .fin sb _ _ => (f.inf (sa != sb), 0)
    | .fin sa _ _, .inf sb => (f.inf (sa != sb), 0)
    | _, _ => (f.nan, 16)

/-- Numeric order of two numbers, -0 equal to +0: -1, 0 or 1. -/
def fcmp (f : FFmt) (a b : Nat) : Int :=
  let key : Nat → Int := fun x =>
    let m : Int := (x % 2 ^ (f.ew + f.fw) : Nat)
    if x / 2 ^ (f.ew + f.fw) % 2 == 1 then -m else m
  if key a < key b then -1 else if key a == key b then 0 else 1

def fisNan (f : FFmt) (x : Nat) : Bool := match fdec f x with | .nan _ _ => true | _ => false
def fisSnan (f : FFmt) (x : Nat) : Bool := match fdec f x with | .nan s _ => s | _ => false
def fsign (f : FFmt) (x : Nat) : Bool := x / 2 ^ (f.ew + f.fw) % 2 == 1

/-- minimumNumber and maximumNumber, -0 below +0 (R256). -/
def fminmax (f : FFmt) (isMax : Bool) (a b : Nat) : Nat × Nat :=
  let nv := 16 * bit (fisSnan f a || fisSnan f b)
  if fisNan f a && fisNan f b then (fquiet f a, nv)
  else if fisNan f a then (b, nv)
  else if fisNan f b then (a, nv)
  else
    let less := fcmp f a b < 0 || (fcmp f a b == 0 && fsign f a && !fsign f b)
    (if less != isMax then a else b, 0)

/-- FEQ, FLT, FLE as kinds 0, 1, 2: result 0 or 1 (R256). -/
def fcompare (f : FFmt) (kind a b : Nat) : Nat × Nat :=
  if fisNan f a || fisNan f b then
    (0, 16 * bit (if kind == 0 then fisSnan f a || fisSnan f b else true))
  else
    let c := fcmp f a b
    (bit (match kind with | 0 => c == 0 | 1 => c < 0 | _ => c ≤ 0), 0)

/-- convertFromInt (R260). -/
def fofInt (f : FFmt) (rm : Nat) (n : Int) : Nat × Nat := fround f rm (n < 0) n.natAbs 0

/-- convertToIntegerExact into lo..hi (R260): out of range and NaN saturate with nv. -/
def ftoInt (f : FFmt) (rm : Nat) (lo hi : Int) (x : Nat) : Int × Nat :=
  match fdec f x with
  | .nan _ _ => (hi, 16)
  | .inf s => (if s then lo else hi, 16)
  | .fin s m e =>
    let (q, nx) : Nat × Bool :=
      if 0 ≤ e then (m * 2 ^ e.toNat, false)
      else
        let d := (-e).toNat
        let r := m % 2 ^ d
        let k := m / 2 ^ d
        (if roundUp rm s (k % 2 == 1) (2 ^ (d - 1) ≤ r) (r % 2 ^ (d - 1) != 0) then k + 1 else k, r != 0)
    let v : Int := if s then -(q : Int) else q
    if v < lo then (lo, 16) else if hi < v then (hi, 16) else (v, bit nx)

/-- convertFormat, with a NaN's payload carried across (R259). -/
def fconv (src dst : FFmt) (rm : Nat) (x : Nat) : Nat × Nat :=
  match fdec src x with
  | .nan s _ =>
    let frac := x % 2 ^ src.fw
    let fr := if dst.fw ≤ src.fw then frac / 2 ^ (src.fw - dst.fw) else frac * 2 ^ (dst.fw - src.fw)
    (fquiet dst (dst.signBit (fsign src x) + dst.emax * 2 ^ dst.fw + fr % 2 ^ (dst.fw - 1)), 16 * bit s)
  | .inf s => (dst.inf s, 0)
  | .fin s m e => fround dst rm s m e

/-- Correctly rounded quotient of finite or special values (R329); x / 0 as IEEE 754-2019. -/
def fdiv (f : FFmt) (rm : Nat) (a b : Nat) : Nat × Nat :=
  match fnanOf f [a, b] with
  | some r => r
  | none =>
    match fdec f a, fdec f b with
    | .fin sa ma ea, .fin sb mb eb =>
      if mb == 0 then (if ma == 0 then (f.nan, 16) else (f.inf (sa != sb), 8))
      else
        let k := 2 * f.fw + 8
        let n := ma * 2 ^ k
        let q := n / mb
        fround f rm (sa != sb) (2 * q + bit (n % mb != 0)) (ea - eb - k - 1)
    | .inf sa, .fin sb _ _ => (f.inf (sa != sb), 0)
    | .fin sa _ _, .inf sb => (f.signBit (sa != sb), 0)
    | _, _ => (f.nan, 16)

/-- The integer square root, by bits from the top. -/
def isqrtAux : Nat → Nat → Nat → Nat
  | 0, _, r => r
  | k + 1, n, r =>
    let c := r + 2 ^ k
    isqrtAux k n (if c * c ≤ n then c else r)
def isqrt (n : Nat) : Nat := isqrtAux (Nat.log2 n / 2 + 1) n 0

/-- Correctly rounded square root (R329). -/
def fsqrt (f : FFmt) (rm : Nat) (a : Nat) : Nat × Nat :=
  match fnanOf f [a] with
  | some r => r
  | none =>
    match fdec f a with
    | .fin s m e =>
      if m == 0 then (a, 0)
      else if s then (f.nan, 16)
      else
        let k : Nat := 2 * f.fw + 8
        let (n, e2) := if (e - k) % 2 == 0 then (m * 2 ^ k, e - k) else (m * 2 ^ (k + 1), e - k - 1)
        let r := isqrt n
        fround f rm false (2 * r + bit (r * r != n)) (e2 / 2 - 1)
    | .inf s => if s then (f.nan, 16) else (a, 0)
    | .nan _ _ => (f.nan, 16)

end Sys2Proof.Machine
end

