-- ==== Sys2Proof/Machine/Operands.lean ====
section
/-! DEFINITION. Every operand form the spec gives: the parameters of a Basut submission (R107, R108), the instruction
formats of the vector engine (R210 to R216, R294, R311) and the addressing modes (R226 to R229). -/
namespace Sys2Proof

/-! ### Basut parameters -/

/-- Little-endian fields of the 48 parameter bytes: P+n. -/
def Sub.p8 (b : Sub) (n : Nat) : Nat := Machine.bitsAt b.params.toNat (8 * n) 8
def Sub.p16 (b : Sub) (n : Nat) : Nat := Machine.bitsAt b.params.toNat (8 * n) 16
def Sub.p32 (b : Sub) (n : Nat) : Nat := Machine.bitsAt b.params.toNat (8 * n) 32
def Sub.p64 (b : Sub) (n : Nat) : Nat := Machine.bitsAt b.params.toNat (8 * n) 64

/-- The submission flags (R107). -/
def Sub.atCapo (b : Sub) : Bool := b.flags.getLsbD 0
def Sub.strict (b : Sub) : Bool := b.flags.getLsbD 1
def Sub.fence (b : Sub) : Bool := b.flags.getLsbD 2
def Sub.cube (b : Sub) : Bool := b.flags.getLsbD 3

end Sys2Proof

namespace Sys2Proof.Machine

/-- Place fields in order, each at the lowest multiple of its element size not below the end of the field before it
(R108). A field is (element size, count); the answer is the list of its byte offsets and the end. -/
def packFields : List (Nat × Nat) → Nat → List Nat
  | [], _ => []
  | (sz, n) :: fs, at_ =>
    let o := (at_ + sz - 1) / sz * sz
    ((List.range (sz * n)).map (o + ·)) ++ packFields fs (o + sz * n)

/-- Every parameter byte outside the fields is 0 (R108). -/
def reservedZero (b : Sub) (fields : List (Nat × Nat)) : Bool :=
  let used := packFields fields 0
  (List.range 48).all fun i => used.contains i || b.p8 i == 0

/-- The effect of a signed 32-bit or 64-bit parameter. -/
def sgn (w n : Nat) : Int := if n < 2 ^ (w - 1) then n else (n : Int) - 2 ^ w

/-! ### Engine instruction words -/

/-- A decoded engine instruction; register operands are numbers below 32. -/
inductive EOp where
  | alu (func rd rs1 rs2 : Nat)
  | bitop (func rd rs1 : Nat)
  | mul (func rd rs1 rs2 : Nat)
  | div (func rd rs1 rs2 : Nat)
  | carry (func rd rs1 rs2 rs3 : Nat)
  | madd (rd rs1 rs2 rs3 : Nat)
  | sel (rd rs1 rs2 rs3 : Nat)
  | cmp (func rd rs1 rs2 : Nat)
  | imm (op rd rs1 imm : Nat)
  | shi (kind rd rs1 sh : Nat)
  | lui (rd imm : Nat)
  | auipc (rd imm : Nat)
  | load (kind rt base am amf : Nat)
  | store (kind rt base am amf : Nat)
  | amo (op rt base src : Nat)
  | branch (nz : Bool) (rs off : Nat)
  | jump (link : Bool) (off : Nat)
  | jalr (rd rs1 imm : Nat)
  | loop (lvl : Nat) (reg : Bool) (count end13 : Nat)
  | mfc (rd creg : Nat)
  | mtc (rs creg : Nat)
  | syscall (imm : Nat)
  | brk (imm : Nat)
  | rfe
  | sync
  | iflush
  | wait
  | fp (func : Nat) (dbl : Bool) (rd rs1 rs2 rs3 : Nat)
  | paired (a b : Nat)
  | setvl (rd rs1 : Nat)
  | shape (imm : Nat)
  | shaper (rs1 : Nat)
  | vrds (rd sel : Nat)
  | vwrs (rs1 : Nat)
  | va (major vd x vs2 : Nat) (vm : Bool) (src func : Nat)
  | vmem (store : Bool) (vd rs1 x : Nat) (vm : Bool) (mode eew : Nat)
  | sstart (rd rs1 : Nat)
  | sstarta (rd rs1 : Nat)
  | swait (rd rs1 : Nat)
  | sstat (rd sel : Nat)
  | scancel
deriving DecidableEq, Repr

/-- The control registers of R206. -/
def cregListed (n : Nat) : Bool := n ≤ 0x0D || inRange n 0x10 0x21

/-- Registers a short operation reads as sources, writes, and whether it accesses memory (R214). -/
def sopWrites (h : Nat) : Option Nat :=
  let sop := bitsAt h 10 5
  if sop == 0 || sop == 21 then none else some (bitsAt h 5 5)
def sopMem (h : Nat) : Bool := bitsAt h 10 5 == 20 || bitsAt h 10 5 == 21

/-- The halves of a paired word may stand together (R213). -/
def pairOk (a b : Nat) : Bool :=
  bitsAt a 10 5 < 24 && bitsAt b 10 5 < 24 && !(sopMem a && sopMem b) &&
  (match sopWrites a, sopWrites b with
   | some x, some y => x != y || x == 0
   | _, _ => true)

/-- A register pair starts at an even register. -/
def even (r : Nat) : Bool := r % 2 == 0

/-- Long formats of the scalar core; none is ILLEGAL (R210 to R216). -/
def decodeScalar (w : Nat) : Option EOp :=
  let rd := bitsAt w 20 5
  let rs1 := bitsAt w 15 5
  let rs2 := bitsAt w 10 5
  let rs3 := bitsAt w 5 5
  let f10 := bitsAt w 0 10
  let f5 := bitsAt w 0 5
  let i15 := bitsAt w 0 15
  let am := bitsAt w 12 3
  let amf := bitsAt w 0 12
  let amOk := am != 7 && (if am == 3 || am == 5 || am == 6 then bitsAt w 0 5 == 0 else true)
  let major := bitsAt w 25 6
  if major == 0 then
    if f10 ≤ 13 then some (.alu f10 rd rs1 rs2)
    else if f10 ≤ 17 && rs2 == 0 then some (.bitop (f10 - 14) rd rs1) else none
  else if major == 1 then
    if f10 == 0 then some (.mul 0 rd rs1 rs2)
    else if f10 ≤ 3 then (if even rd then some (.mul f10 rd rs1 rs2) else none)
    else if f10 ≤ 7 then some (.div (f10 - 4) rd rs1 rs2) else none
  else if major == 2 then
    if f5 ≤ 3 then some (.carry f5 rd rs1 rs2 rs3)
    else if f5 == 4 then some (.madd rd rs1 rs2 rs3)
    else if f5 == 5 then some (.sel rd rs1 rs2 rs3) else none
  else if major == 3 then
    if f10 ≤ 5 then some (.cmp f10 rd rs1 rs2) else none
  else if inRange major 0x04 0x0B then some (.imm (major - 4) rd rs1 i15)
  else if major == 0x0B then
    if bitsAt w 12 3 ≤ 3 && bitsAt w 5 7 == 0 then some (.shi (bitsAt w 12 3) rd rs1 f5) else none
  else if major == 0x0C then some (.lui rd (bitsAt w 0 20))
  else if major == 0x0D then some (.auipc rd (bitsAt w 0 20))
  else if inRange major 0x10 0x17 then
    if amOk && (major != 0x16 || even rd) then some (.load (major - 0x10) rd rs1 am amf) else none
  else if inRange major 0x18 0x1C then
    if amOk && (major != 0x1B || even rd) then some (.store (major - 0x18) rd rs1 am amf) else none
  else if major == 0x1C then
    if am ≤ 3 && bitsAt w 0 7 == 0 then some (.amo am rd rs1 (bitsAt w 7 5)) else none
  else if major == 0x20 || major == 0x21 then some (.branch (major == 0x21) rd (bitsAt w 0 20))
  else if major == 0x22 || major == 0x23 then some (.jump (major == 0x23) (bitsAt w 0 25))
  else if major == 0x24 then some (.jalr rd rs1 i15)
  else if major == 0x28 then
    let reg := bitsAt w 23 1 == 1
    if bitsAt w 0 13 == 0 || (reg && bitsAt w 18 5 != 0) then none
    else some (.loop (bitsAt w 24 1) reg (if reg then bitsAt w 13 5 else bitsAt w 13 10) (bitsAt w 0 13))
  else if major == 0x2C then
    let sf := bitsAt w 16 4
    let c := bitsAt w 0 8
    if bitsAt w 8 8 != 0 then none
    else if sf == 0 then (if cregListed c then some (.mfc rd c) else none)
    else if sf == 1 then (if cregListed c then some (.mtc rd c) else none)
    else if sf == 2 then some (.syscall c)
    else if sf == 3 then some (.brk c)
    else if sf == 4 then some .rfe
    else if sf == 5 then some .sync
    else if sf == 6 then some .iflush
    else if sf == 7 then some .wait
    else none
  else if major == 0x2D then
    let fn := bitsAt w 0 4
    let dbl := bitsAt w 4 1 == 1
    let ok := if fn ≤ 5 then !dbl || (even rd && even rs1 && even rs2 && (fn != 3 || even rs3))
      else if fn ≤ 8 then !dbl || (even rs1 && even rs2)
      else if fn == 9 then !dbl || even rd
      else if fn == 10 then !dbl || even rs1
      else if fn == 11 then (if dbl then even rd else even rs1)
      else false
    if ok then some (.fp fn dbl rd rs1 rs2 rs3) else none
  else none

/-- The func values of a VA major (R298). -/
def vaFuncOk (major func src : Nat) : Bool :=
  if major == 0x31 then func ≤ 23
  else if major == 0x32 then func ≤ 13
  else if major == 0x33 then func ≤ 10 && src != 2
  else if major == 0x34 then func ≤ 6
  else func ≤ 9 && (4 ≤ func || src == 0)

/-- The vector and stream majors (R294, R296, R303, R311). -/
def decodeVector (w : Nat) : Option EOp :=
  let rd := bitsAt w 20 5
  let rs1 := bitsAt w 15 5
  let fn := bitsAt w 12 3
  let i12 := bitsAt w 0 12
  let major := bitsAt w 25 6
  if major == 0x30 then
    if fn == 0 then (if i12 == 0 then some (.setvl rd rs1) else none)
    else if fn == 1 then (if rd == 0 && rs1 == 0 && i12 < 64 then some (.shape i12) else none)
    else if fn == 2 then (if rd == 0 && i12 == 0 then some (.shaper rs1) else none)
    else if fn == 3 then
      (if bitsAt w 0 10 == 0 && bitsAt w 10 2 != 3 then some (.vrds rd (bitsAt w 10 2)) else none)
    else if fn == 4 then (if rd == 0 && i12 == 0 then some (.vwrs rs1) else none)
    else none
  else if inRange major 0x31 0x36 then
    let src := bitsAt w 7 2
    if src != 3 && vaFuncOk major (bitsAt w 0 7) src then
      some (.va major rd rs1 (bitsAt w 10 5) (bitsAt w 9 1 == 1) src (bitsAt w 0 7))
    else none
  else if major == 0x36 || major == 0x37 then
    let mode := bitsAt w 7 2
    let eew := bitsAt w 5 2
    if bitsAt w 0 5 == 0 && (if mode == 2 then eew != 3 else eew == 0) then
      some (.vmem (major == 0x37) rd rs1 (bitsAt w 10 5) (bitsAt w 9 1 == 1) mode eew)
    else none
  else if major == 0x38 then
    if fn == 0 then (if i12 == 0 then some (.sstart rd rs1) else none)
    else if fn == 1 then (if i12 == 0 then some (.sstarta rd rs1) else none)
    else if fn == 2 then (if i12 == 0 then some (.swait rd rs1) else none)
    else if fn == 3 then
      (if bitsAt w 0 8 == 0 && bitsAt w 8 4 ≤ 5 then some (.sstat rd (bitsAt w 8 4)) else none)
    else if fn == 4 then (if rd == 0 && rs1 == 0 && i12 == 0 then some .scancel else none)
    else none
  else none

/-- Decode an engine instruction word; none raises ILLEGAL (R212, R213). -/
def decodeWord (word : W32) : Option EOp :=
  let w := word.toNat
  if 2 ^ 31 ≤ w then
    if bitsAt w 15 1 == 0 && pairOk (bitsAt w 16 15) (bitsAt w 0 15) then
      some (.paired (bitsAt w 16 15) (bitsAt w 0 15))
    else none
  else if inRange (bitsAt w 25 6) 0x30 0x39 then decodeVector w
  else decodeScalar w

/-- The rows of the command table that issue an engine instruction. -/
inductive EClass where
  | integerOp | carryBorrowOp | bitOp | multiplyOp | divideOp | pairedWord | load | lwx | store | atomic | branch
  | jump | jalr | loop | mfc | mtc | syscall | brk | rfe | sync | iflush | wait | fpArith | fpMinMaxCompare
  | fpConvert | setvl | shape | shaper | vrds | vwrs | vectorArith | vectorCompare | vectorReduction
  | vectorPermute | vgetVput | vectorLoad | vectorStore | sstart | sstarta | swait | sstat | scancel
deriving DecidableEq, Repr

/-- The row an instruction belongs to. -/
def EOp.cls : EOp → EClass
  | .alu .. | .sel .. | .cmp .. | .imm .. | .shi .. | .lui .. | .auipc .. => .integerOp
  | .bitop .. => .bitOp
  | .mul .. | .madd .. => .multiplyOp
  | .div .. => .divideOp
  | .carry .. => .carryBorrowOp
  | .load kind .. => if kind == 5 then .lwx else .load
  | .store .. => .store
  | .amo .. => .atomic
  | .branch .. => .branch
  | .jump .. => .jump
  | .jalr .. => .jalr
  | .loop .. => .loop
  | .mfc .. => .mfc
  | .mtc .. => .mtc
  | .syscall _ => .syscall
  | .brk _ => .brk
  | .rfe => .rfe
  | .sync => .sync
  | .iflush => .iflush
  | .wait => .wait
  | .fp func .. => if func ≤ 3 then .fpArith else if func ≤ 8 then .fpMinMaxCompare else .fpConvert
  | .paired .. => .pairedWord
  | .setvl .. => .setvl
  | .shape _ => .shape
  | .shaper _ => .shaper
  | .vrds .. => .vrds
  | .vwrs _ => .vwrs
  | .va major _ _ _ _ _ func =>
    if major == 0x35 then
      (if func ≤ 3 then .vectorReduction else if func ≤ 7 then .vectorPermute else .vgetVput)
    else if (major == 0x31 && 18 ≤ func) || (major == 0x33 && inRange func 6 9) then .vectorCompare
    else .vectorArith
  | .vmem st .. => if st then .vectorStore else .vectorLoad
  | .sstart .. => .sstart
  | .sstarta .. => .sstarta
  | .swait .. => .swait
  | .sstat .. => .sstat
  | .scancel => .scancel

/-! ### Addressing (R226 to R229) -/

/-- mod_next of R228. -/
def modNext (a : W32) (step : Int) (b l : W32) : W32 :=
  let n : Int := a.toNat + step
  let n := if l == 0 then n
    else if 0 ≤ step && (b.toNat + l.toNat : Int) ≤ n then n - l.toNat
    else if step < 0 && n < (b.toNat : Int) then n + l.toNat
    else n
  BitVec.ofInt 32 n

/-- Reverse the low `k` bits. -/
def bitRev (k x : Nat) : Nat := (List.range k).foldl (fun a i => a + bitsAt x i 1 * 2 ^ (k - 1 - i)) 0

/-- brev_next of R229. -/
def brevNext (a inc : W32) (esz : Nat) : W32 :=
  if inc == 0 then a
  else
    let k := min (Nat.log2 inc.toNat + 1) (32 - esz)
    let f := bitsAt a.toNat esz k
    let f := bitRev k ((bitRev k f + 1) % 2 ^ k)
    let mask := (2 ^ k - 1) * 2 ^ esz
    (a &&& ~~~ (w32 mask)) ||| w32 (f * 2 ^ esz)

/-- Effective address and updated base of format M (R226), with the register file and the modulo contexts. -/
def address (g : Nat → W32) (mb ml : Nat → W32) (base am amf : Nat) : W32 × Option W32 :=
  let a := g base
  let s12 := BitVec.ofInt 32 (sgn 12 amf)
  match am with
  | 0 => (a + s12, none)
  | 1 => (a, some (a + s12))
  | 2 => (a + s12, some (a + s12))
  | 3 => (a + (g (bitsAt amf 7 5) <<< bitsAt amf 5 2), none)
  | 4 => (a, some (modNext a (sgn 10 (bitsAt amf 0 10)) (mb (bitsAt amf 10 2)) (ml (bitsAt amf 10 2))))
  | 5 => (a, some (modNext a (g (bitsAt amf 5 5)).toInt (mb (bitsAt amf 10 2)) (ml (bitsAt amf 10 2))))
  | _ => (a, some (brevNext a (g (bitsAt amf 7 5)) (bitsAt amf 5 2)))

end Sys2Proof.Machine
end

