-- ==== Sys2Proof/Machine/Flags.lean ====
section
/-! DEFINITION. Integer and floating-point results of the scalar core and the flags they OR into FCSR (R244 to
R260). -/
namespace Sys2Proof.Machine

/-- FCSR.rm (R250). -/
def fcsrRm (fcsr : W32) : Nat := bitsAt fcsr.toNat 8 3

/-- OR flags into the sticky positions of FCSR (R251). -/
def fcsrOr (fcsr : W32) (fl : Nat) : W32 := fcsr ||| w32 (fl % 64)

/-- What an MTC to FCSR leaves (R250): a reserved rm leaves rm unchanged. -/
def fcsrWrite (old val : W32) : W32 :=
  let rm := if bitsAt val.toNat 8 3 ≤ 4 then bitsAt val.toNat 8 3 else fcsrRm old
  w32 (rm * 256 + val.toNat % 64)

/-- Integer ALU, major 0x00 func 0 to 13 (R215). -/
def aluOp (func : Nat) (a b : W32) : W32 :=
  let sh := b.toNat % 32
  match func with
  | 0 => a + b
  | 1 => a - b
  | 2 => a &&& b
  | 3 => a ||| b
  | 4 => a ^^^ b
  | 5 => ~~~ (a ||| b)
  | 6 => a <<< sh
  | 7 => a >>> sh
  | 8 => a.sshiftRight sh
  | 9 => a.rotateRight sh
  | 10 => if a.toInt ≤ b.toInt then a else b
  | 11 => if a.toInt ≤ b.toInt then b else a
  | 12 => if a.toNat ≤ b.toNat then a else b
  | _ => if a.toNat ≤ b.toNat then b else a

/-- CLZ, POPC, BREV, BSWAP (R247). -/
def bitOp (func : Nat) (a : W32) : W32 :=
  match func with
  | 0 => w32 (if a == 0 then 32 else 31 - Nat.log2 a.toNat)
  | 1 => w32 (popCount a)
  | 2 => w32 (bitRev 32 a.toNat)
  | _ => w32 (bitsAt a.toNat 0 8 * 2 ^ 24 + bitsAt a.toNat 8 8 * 2 ^ 16 + bitsAt a.toNat 16 8 * 2 ^ 8 +
              bitsAt a.toNat 24 8)

/-- The 64-bit product of MULW, MULWU, MULWSU as kinds 1, 2, 3 (R246). -/
def wideProduct (kind : Nat) (a b : W32) : W64 :=
  let x : Int := if kind == 2 then a.toNat else a.toInt
  let y : Int := if kind == 1 then b.toInt else b.toNat
  BitVec.ofInt 64 (x * y)

/-- ADDC, CARRY, SUBC, BORROW (R245). -/
def carryOp (func : Nat) (a b c : W32) : W32 :=
  let k := c.toNat % 2
  let s := a.toNat + b.toNat + k
  match func with
  | 0 => w32 s
  | 1 => w32 (s / 2 ^ 32)
  | 2 => a - b - w32 k
  | _ => w32 (bit (a.toNat < b.toNat + k))

/-- SEQ, SNE, SLT, SLTU, SLE, SLEU (R215). -/
def cmpOp (func : Nat) (a b : W32) : W32 :=
  w32 (bit (match func with
    | 0 => a == b
    | 1 => a != b
    | 2 => a.toInt < b.toInt
    | 3 => a.toNat < b.toNat
    | 4 => a.toInt ≤ b.toInt
    | _ => a.toNat ≤ b.toNat))

/-- ADDI, ANDI, ORI, XORI, SLTI, SLTUI, SEQI (R215). -/
def immOp (op : Nat) (a : W32) (imm : Nat) : W32 :=
  let se := BitVec.ofInt 32 (sgn 15 imm)
  let ze := w32 imm
  match op with
  | 0 => a + se
  | 1 => a &&& ze
  | 2 => a ||| ze
  | 3 => a ^^^ ze
  | 4 => w32 (bit (a.toInt < se.toInt))
  | 5 => w32 (bit (a.toNat < se.toNat))
  | _ => w32 (bit (a == se))

/-- DIV, DIVU, REM, REMU as 0 to 3 (R248): result and division by zero. -/
def divOp (func : Nat) (a b : W32) : W32 × Bool :=
  if b == 0 then (if func ≤ 1 then (0xFFFFFFFF, true) else (a, true))
  else if func % 2 == 0 && a == 0x80000000 && b == 0xFFFFFFFF then (if func == 0 then (a, false) else (0, false))
  else match func with
    | 0 => (BitVec.ofInt 32 (a.toInt.tdiv b.toInt), false)
    | 1 => (w32 (a.toNat / b.toNat), false)
    | 2 => (BitVec.ofInt 32 (a.toInt.tmod b.toInt), false)
    | _ => (w32 (a.toNat % b.toNat), false)

/-- The cycles of a division (R249). -/
def divCycles (func : Nat) (a b : W32) : Nat :=
  let signed := func % 2 == 0
  let x := if signed then a.toInt.natAbs else a.toNat
  let y := if signed then b.toInt.natAbs else b.toNat
  let base := if signed then 4 else 3
  if b == 0 || (signed && a == 0x80000000 && b == 0xFFFFFFFF) then 2
  else if x < y then base
  else base + (Nat.log2 x - Nat.log2 y + 1 + 1) / 2

/-- A scalar floating-point result: value and flags (R253). `func` and the format as R215 and R216 number them. -/
def fpOp (func : Nat) (dbl : Bool) (rm a b c : Nat) : Nat × Nat :=
  let f := if dbl then f64 else f32
  match func with
  | 0 => fadd f rm a b
  | 1 => fsub f rm a b
  | 2 => fmul f rm a b
  | 3 => fma f rm a b c
  | 4 => fminmax f false a b
  | 5 => fminmax f true a b
  | 6 => fcompare f 0 a b
  | 7 => fcompare f 1 a b
  | 8 => fcompare f 2 a b
  | 9 => fofInt f rm (sgn 32 (a % 2 ^ 32))
  | 10 =>
    let r := ftoInt f rm (-2 ^ 31) (2 ^ 31 - 1) a
    ((BitVec.ofInt 32 r.1).toNat, r.2)
  | _ => if dbl then fconv f32 f64 rm (a % 2 ^ 32) else fconv f64 f32 rm a

end Sys2Proof.Machine
end

