-- ==== Sys2Proof/Machine/Crypto.lean ====
section
/-! DEFINITION. The algorithms R52 and R53 name, computed on bytes as natural numbers: SHA-256 and SHA-384 (FIPS 180-4),
ECDSA over P-384 (FIPS 186-5), LMS and HSS (RFC 8554) and AES-256-GCM (FIPS 197, SP 800-38D). The spec names the standards;
their text is not in it (log 133). -/
namespace Sys2Proof.Machine.Crypto

/-! ### SHA-2 (FIPS 180-4) -/

/-- The constants of SHA-256 (FIPS 180-4). -/
def k256 : List Nat :=
  [0x428A2F98, 0x71374491, 0xB5C0FBCF, 0xE9B5DBA5, 0x3956C25B, 0x59F111F1, 0x923F82A4, 0xAB1C5ED5] ++
  [0xD807AA98, 0x12835B01, 0x243185BE, 0x550C7DC3, 0x72BE5D74, 0x80DEB1FE, 0x9BDC06A7, 0xC19BF174] ++
  [0xE49B69C1, 0xEFBE4786, 0xFC19DC6, 0x240CA1CC, 0x2DE92C6F, 0x4A7484AA, 0x5CB0A9DC, 0x76F988DA] ++
  [0x983E5152, 0xA831C66D, 0xB00327C8, 0xBF597FC7, 0xC6E00BF3, 0xD5A79147, 0x6CA6351, 0x14292967] ++
  [0x27B70A85, 0x2E1B2138, 0x4D2C6DFC, 0x53380D13, 0x650A7354, 0x766A0ABB, 0x81C2C92E, 0x92722C85] ++
  [0xA2BFE8A1, 0xA81A664B, 0xC24B8B70, 0xC76C51A3, 0xD192E819, 0xD6990624, 0xF40E3585, 0x106AA070] ++
  [0x19A4C116, 0x1E376C08, 0x2748774C, 0x34B0BCB5, 0x391C0CB3, 0x4ED8AA4A, 0x5B9CCA4F, 0x682E6FF3] ++
  [0x748F82EE, 0x78A5636F, 0x84C87814, 0x8CC70208, 0x90BEFFFA, 0xA4506CEB, 0xBEF9A3F7, 0xC67178F2]

/-- The constants of SHA-384 (FIPS 180-4). -/
def k512 : List Nat :=
  [0x428A2F98D728AE22, 0x7137449123EF65CD, 0xB5C0FBCFEC4D3B2F, 0xE9B5DBA58189DBBC] ++
  [0x3956C25BF348B538, 0x59F111F1B605D019, 0x923F82A4AF194F9B, 0xAB1C5ED5DA6D8118] ++
  [0xD807AA98A3030242, 0x12835B0145706FBE, 0x243185BE4EE4B28C, 0x550C7DC3D5FFB4E2] ++
  [0x72BE5D74F27B896F, 0x80DEB1FE3B1696B1, 0x9BDC06A725C71235, 0xC19BF174CF692694] ++
  [0xE49B69C19EF14AD2, 0xEFBE4786384F25E3, 0xFC19DC68B8CD5B5, 0x240CA1CC77AC9C65] ++
  [0x2DE92C6F592B0275, 0x4A7484AA6EA6E483, 0x5CB0A9DCBD41FBD4, 0x76F988DA831153B5] ++
  [0x983E5152EE66DFAB, 0xA831C66D2DB43210, 0xB00327C898FB213F, 0xBF597FC7BEEF0EE4] ++
  [0xC6E00BF33DA88FC2, 0xD5A79147930AA725, 0x6CA6351E003826F, 0x142929670A0E6E70] ++
  [0x27B70A8546D22FFC, 0x2E1B21385C26C926, 0x4D2C6DFC5AC42AED, 0x53380D139D95B3DF] ++
  [0x650A73548BAF63DE, 0x766A0ABB3C77B2A8, 0x81C2C92E47EDAEE6, 0x92722C851482353B] ++
  [0xA2BFE8A14CF10364, 0xA81A664BBC423001, 0xC24B8B70D0F89791, 0xC76C51A30654BE30] ++
  [0xD192E819D6EF5218, 0xD69906245565A910, 0xF40E35855771202A, 0x106AA07032BBD1B8] ++
  [0x19A4C116B8D2D0C8, 0x1E376C085141AB53, 0x2748774CDF8EEB99, 0x34B0BCB5E19B48A8] ++
  [0x391C0CB3C5C95A63, 0x4ED8AA4AE3418ACB, 0x5B9CCA4F7763E373, 0x682E6FF3D6B2B8A3] ++
  [0x748F82EE5DEFB2FC, 0x78A5636F43172F60, 0x84C87814A1F0AB72, 0x8CC702081A6439EC] ++
  [0x90BEFFFA23631E28, 0xA4506CEBDE82BDE9, 0xBEF9A3F7B2C67915, 0xC67178F2E372532B] ++
  [0xCA273ECEEA26619C, 0xD186B8C721C0C207, 0xEADA7DD6CDE0EB1E, 0xF57D4F7FEE6ED178] ++
  [0x6F067AA72176FBA, 0xA637DC5A2C898A6, 0x113F9804BEF90DAE, 0x1B710B35131C471B] ++
  [0x28DB77F523047D84, 0x32CAAB7B40C72493, 0x3C9EBE0A15C9BEBC, 0x431D67C49C100D4C] ++
  [0x4CC5D4BECB3E42B6, 0x597F299CFC657E2A, 0x5FCB6FAB3AD6FAEC, 0x6C44198C4A475817]

/-- Initial hash value of SHA-256. -/
def h256 : List Nat :=
  [0x6A09E667, 0xBB67AE85, 0x3C6EF372, 0xA54FF53A, 0x510E527F, 0x9B05688C, 0x1F83D9AB, 0x5BE0CD19]

/-- Initial hash value of SHA-384. -/
def h384 : List Nat :=
  [0xCBBB9D5DC1059ED8, 0x629A292A367CD507, 0x9159015A3070DD17, 0x152FECD8F70E5939] ++
  [0x67332667FFC00B31, 0x8EB44A8768581511, 0xDB0C2E0D64F98FA7, 0x47B5481DBEFA4FA4]

/-- The parameters of a SHA-2 function: word width, round constants, initial value, and the rotations of its four sums
(the third amount of a small sum is a shift). -/
structure Sha where
  w    : Nat
  k    : List Nat
  init : List Nat
  big0 : Nat × Nat × Nat
  big1 : Nat × Nat × Nat
  sml0 : Nat × Nat × Nat
  sml1 : Nat × Nat × Nat

def sha256 : Sha :=
  { w := 32, k := k256, init := h256, big0 := (2, 13, 22), big1 := (6, 11, 25), sml0 := (7, 18, 3), sml1 := (17, 19, 10) }
def sha384 : Sha :=
  { w := 64, k := k512, init := h384, big0 := (28, 34, 39), big1 := (14, 18, 41), sml0 := (1, 8, 7), sml1 := (19, 61, 6) }

def rotr (w n x : Nat) : Nat := (x >>> n) ||| ((x <<< (w - n)) % 2 ^ w)
def bigSum (w : Nat) (r : Nat × Nat × Nat) (x : Nat) : Nat := rotr w r.1 x ^^^ rotr w r.2.1 x ^^^ rotr w r.2.2 x
def smallSum (w : Nat) (r : Nat × Nat × Nat) (x : Nat) : Nat := rotr w r.1 x ^^^ rotr w r.2.1 x ^^^ (x >>> r.2.2)

/-- The schedule word that follows the last sixteen, oldest first. -/
def nextWord (p : Sha) : List Nat → Nat
  | [w0, w1, _, _, _, _, _, _, _, w9, _, _, _, _, w14, _] =>
    (smallSum p.w p.sml1 w14 + w9 + smallSum p.w p.sml0 w1 + w0) % 2 ^ p.w
  | _ => 0

/-- One round on the eight working variables. -/
def shaRound (p : Sha) (k w : Nat) : List Nat → List Nat
  | [a, b, c, d, e, f, g, h] =>
    let t1 := h + bigSum p.w p.big1 e + ((e &&& f) ^^^ ((2 ^ p.w - 1 - e) &&& g)) + k + w
    let t2 := bigSum p.w p.big0 a + ((a &&& b) ^^^ (a &&& c) ^^^ (b &&& c))
    [(t1 + t2) % 2 ^ p.w, a, b, c, (d + t1) % 2 ^ p.w, e, f, g]
  | l => l

def shaRounds (p : Sha) : List Nat → List Nat → List Nat → List Nat
  | [], _, v => v
  | k :: ks, ws, v => shaRounds p ks (ws.tail ++ [nextWord p ws]) (shaRound p k (ws.headD 0) v)

def compress (p : Sha) (h ws : List Nat) : List Nat :=
  List.zipWith (fun a b => (a + b) % 2 ^ p.w) h (shaRounds p p.k ws h)

/-- Big-endian bytes and their number. -/
def beNat (l : List Nat) : Nat := l.foldl (fun a b => 256 * a + b) 0
def beBytes : Nat → Nat → List Nat
  | 0, _ => []
  | n + 1, x => beBytes n (x / 256) ++ [x % 256]

/-- The first `c` runs of `n` items. -/
def runs {α : Type} (n c : Nat) (l : List α) : List (List α) := (List.range c).map fun i => (l.drop (n * i)).take n

/-- The message with a one bit, zeros and its length in bits, a whole number of blocks. -/
def shaPad (p : Sha) (m : List Nat) : List Nat :=
  let blk := 2 * p.w
  m ++ [128] ++ List.replicate ((2 * blk - 1 - p.w / 4 - m.length % blk) % blk) 0 ++ beBytes (p.w / 4) (8 * m.length)

/-- The hash of a message in `n` bytes. -/
def hash (p : Sha) (n : Nat) (m : List Nat) : List Nat :=
  let x := shaPad p m
  let h := (runs (2 * p.w) (x.length / (2 * p.w)) x).foldl
    (fun h b => compress p h ((runs (p.w / 8) 16 b).map beNat)) p.init
  (h.map (beBytes (p.w / 8))).flatten.take n

def h32 (m : List Nat) : List Nat := hash sha256 32 m
def h48 (m : List Nat) : List Nat := hash sha384 48 m

/-! ### ECDSA over P-384 (FIPS 186-5) -/

def p384 : Nat := 2 ^ 384 - 2 ^ 128 - 2 ^ 96 + 2 ^ 32 - 1
def n384 : Nat := 0xFFFFFFFFFFFFFFFFFFFFFFFFFFFFFFFFFFFFFFFFFFFFFFFFC7634D81F4372DDF581A0DB248B0A77AECEC196ACCC52973
def b384 : Nat := 0xB3312FA7E23EE7E4988E056BE3F82D19181D9C6EFE8141120314088F5013875AC656398D8A2ED19D2A85C8EDD3EC2AEF
def gx384 : Nat := 0xAA87CA22BE8B05378EB1C71EF320AD746E1D3B628BA79B9859F741E082542A385502F25DBF55296C3A545E3872760AB7
def gy384 : Nat := 0x3617DE4A96262C6F5D9E98BF9292DC29F8F41DBD289A147CE9DA3113B5F0B8C00A60B1CE1D7E819D7A431D7C90EA0E5F

/-- `x ^ e mod m` by the bits of the exponent, of which there are `bits`. -/
def powMod (bits x e m : Nat) : Nat :=
  (List.range bits).foldl (fun a i =>
    let sq := a * a % m
    if e / 2 ^ (bits - 1 - i) % 2 == 1 then sq * x % m else sq) 1

/-- The inverse modulo a prime of 384 bits. -/
def invMod (x m : Nat) : Nat := powMod 384 x (m - 2) m

/-- A point of the curve in Jacobian coordinates; `z = 0` is the point at infinity. -/
structure Point where
  x : Nat
  y : Nat
  z : Nat

def Point.zero : Point := ⟨1, 1, 0⟩

/-- Difference modulo p. -/
def subP (a b : Nat) : Nat := (a + p384 - b % p384) % p384

def Point.double (q : Point) : Point :=
  let d := q.z * q.z % p384
  let g := q.y * q.y % p384
  let b := q.x * g % p384
  let a := 3 * subP q.x d * (q.x + d) % p384
  let x := subP (a * a) (8 * b)
  ⟨x, subP (a * subP (4 * b) x) (8 * g * g), 2 * q.y * q.z % p384⟩

def Point.add (q r : Point) : Point :=
  if q.z == 0 then r
  else if r.z == 0 then q
  else
    let zz1 := q.z * q.z % p384
    let zz2 := r.z * r.z % p384
    let u1 := q.x * zz2 % p384
    let s1 := q.y * r.z % p384 * zz2 % p384
    let h := subP (r.x * zz1) u1
    let d := subP (r.y * q.z % p384 * zz1) s1
    if h == 0 then (if d == 0 then q.double else Point.zero)
    else
      let hh := h * h % p384
      let hhh := h * hh % p384
      let v := u1 * hh % p384
      let x := subP (d * d) (hhh + 2 * v)
      ⟨x, subP (d * subP v x) (s1 * hhh), q.z * r.z % p384 * h % p384⟩

/-- `u G + v Q`, both multiples by one run over the bits. -/
def mulAdd (u v : Nat) (q : Point) : Point :=
  let g : Point := ⟨gx384, gy384, 1⟩
  let gq := g.add q
  (List.range 384).foldl (fun (a : Point) i =>
    let a := a.double
    match u / 2 ^ (383 - i) % 2, v / 2 ^ (383 - i) % 2 with
    | 0, 0 => a
    | 0, _ => a.add q
    | _, 0 => a.add g
    | _, _ => a.add gq) Point.zero

/-- ECDSA P-384 verification of a message: the signature is r then s, the key 0x04 ‖ X ‖ Y, all big-endian (R51). -/
def ecdsaOk (pub sig msg : List Nat) : Bool :=
  let r := beNat (sig.take 48)
  let s := beNat ((sig.drop 48).take 48)
  let x := beNat ((pub.drop 1).take 48)
  let y := beNat ((pub.drop 49).take 48)
  pub.headD 0 == 4 && x < p384 && y < p384 && y * y % p384 == (x * x * x + (p384 - 3) * x + b384) % p384 &&
  0 < r && r < n384 && 0 < s && s < n384 &&
  (let w := invMod s n384
   let q := mulAdd (beNat (h48 msg) * w % n384) (r * w % n384) ⟨x, y, 1⟩
   q.z != 0 &&
   (let zi := invMod q.z p384
    q.x * (zi * zi % p384) % p384 % n384 == r))

/-! ### LMS and HSS (RFC 8554) -/

/-- The 67 four-bit digits of a hash and its checksum. -/
def otsDigits (q : List Nat) : List Nat :=
  let d := q.flatMap fun b => [b / 16, b % 16]
  let c := (d.map fun x => 15 - x).sum
  d ++ [c / 256 % 16, c / 16 % 16, c % 16]

/-- Steps `a` to 14 of chain `i`. -/
def otsChain (pre : List Nat) (i a : Nat) (y : List Nat) : List Nat :=
  (List.range (15 - a)).foldl (fun t j => h32 (pre ++ beBytes 2 i ++ [a + j] ++ t)) y

/-- The one-time key that a signature `C ‖ y` of a message leads to: LMOTS_SHA256_N32_W4. -/
def otsKey (ident : List Nat) (q : Nat) (sig msg : List Nat) : List Nat :=
  let pre := ident ++ beBytes 4 q
  let d := otsDigits (h32 (pre ++ [0x81, 0x81] ++ sig.take 32 ++ msg))
  let z := (runs 32 67 (sig.drop 32)).zipIdx.map fun p => otsChain pre p.2 (d.getD p.2 0) p.1
  h32 (pre ++ [0x80, 0x80] ++ z.flatten)

/-- From a node's number and value up the authentication path. -/
def lmsRoot (ident : List Nat) : Nat → List Nat → List (List Nat) → List Nat
  | _, t, [] => t
  | n, t, p :: ps =>
    lmsRoot ident (n / 2) (h32 (ident ++ beBytes 4 (n / 2) ++ [0x83, 0x83] ++ (if n % 2 == 1 then p ++ t else t ++ p))) ps

/-- An LMS signature of height `h`: its length. -/
def lmsLen (h : Nat) : Nat := 4 + 2180 + 4 + 32 * h

/-- The root that an LMS signature of height `h` leads to for a message, where its type codes are those of R52
(LMOTS 3, LMS 6 for height 10 and 7 for height 15) and its leaf is one of the tree's. -/
def lmsCandidate (h : Nat) (ident sig msg : List Nat) : Option (List Nat) :=
  let q := beNat (sig.take 4)
  if q < 2 ^ h && beNat ((sig.drop 4).take 4) == 3 && beNat ((sig.drop 2184).take 4) == (if h == 10 then 6 else 7) then
    let k := otsKey ident q ((sig.drop 8).take 2176) msg
    let leaf := h32 (ident ++ beBytes 4 (2 ^ h + q) ++ [0x82, 0x82] ++ k)
    some (lmsRoot ident (2 ^ h + q) leaf (runs 32 h (sig.drop 2188)))
  else none

/-- An LMS public key: type codes, identifier and root. -/
def lmsOk (h : Nat) (pub sig msg : List Nat) : Bool :=
  beNat (pub.take 4) == (if h == 10 then 6 else 7) && beNat ((pub.drop 4).take 4) == 3 &&
  lmsCandidate h ((pub.drop 8).take 16) sig msg == some ((pub.drop 24).take 32)

/-- HSS verification with two levels, height 10 over height 15 (R52): the top tree signs the second tree's key. -/
def hssOk (pub sig msg : List Nat) : Bool :=
  let sig1 := (sig.drop 4).take (lmsLen 10)
  let pub2 := (sig.drop (4 + lmsLen 10)).take 56
  let sig2 := (sig.drop (4 + lmsLen 10 + 56)).take (lmsLen 15)
  beNat (pub.take 4) == 2 && beNat (sig.take 4) == 1 && lmsOk 10 (pub.drop 4) sig1 pub2 && lmsOk 15 pub2 sig2 msg

/-! ### AES-256-GCM (FIPS 197, SP 800-38D) -/

/-- Product in GF(2^8) modulo x^8 + x^4 + x^3 + x + 1. -/
def aesMul (a b : Nat) : Nat :=
  ((List.range 8).foldl (fun (r : Nat × Nat) i =>
    (if b / 2 ^ i % 2 == 1 then r.1 ^^^ r.2 else r.1, if 128 ≤ r.2 then (2 * r.2) ^^^ 0x11B else 2 * r.2)) (0, a)).1

/-- The S-box: the inverse (x^254), then the affine map. -/
def subByte (x : Nat) : Nat :=
  let sq := fun (a : Nat) => aesMul a a
  let i := ([1, 1, 1, 1, 1, 1] : List Nat).foldl (fun (a : Nat) _ => aesMul (sq a) x) x
  let i := sq i
  let rot := fun (n : Nat) => (i * 2 ^ n % 256) ||| (i / 2 ^ (8 - n))
  i ^^^ rot 1 ^^^ rot 2 ^^^ rot 3 ^^^ rot 4 ^^^ 0x63

def xorBytes (a b : List Nat) : List Nat := List.zipWith (· ^^^ ·) a b

/-- The 60 words of the key schedule of a 32-byte key, oldest first. -/
def keySchedule (key : List Nat) : List (List Nat) :=
  ((List.range 52).foldl (fun (w : List (List Nat)) n =>
    let i := n + 8
    let t := w.getD (i - 1) []
    let t := if i % 8 == 0 then xorBytes ((t.drop 1 ++ t.take 1).map subByte) [2 ^ (i / 8 - 1), 0, 0, 0]
      else if i % 8 == 4 then t.map subByte else t
    w ++ [xorBytes (w.getD (i - 8) []) t]) (runs 4 8 key))

def shiftRows (s : List Nat) : List Nat := (List.range 16).map fun i => s.getD ((i + 4 * (i % 4)) % 16) 0

def mixColumns (s : List Nat) : List Nat :=
  (List.range 16).map fun i =>
    let c := fun (k : Nat) => s.getD (i / 4 * 4 + (i + k) % 4) 0
    aesMul (c 0) 2 ^^^ aesMul (c 1) 3 ^^^ c 2 ^^^ c 3

/-- AES-256 of one block under a key schedule. -/
def aesBlock (ks : List (List Nat)) (x : List Nat) : List Nat :=
  let rk := fun (r : Nat) => ((ks.drop (4 * r)).take 4).flatten
  let s := (List.range 13).foldl (fun s r => xorBytes (mixColumns (shiftRows (s.map subByte))) (rk (r + 1))) (xorBytes x (rk 0))
  xorBytes (shiftRows (s.map subByte)) (rk 14)

/-- Product in GF(2^128) as GCM orders its bits. -/
def ghashMul (x y : Nat) : Nat :=
  ((List.range 128).foldl (fun (r : Nat × Nat) i =>
    (if x / 2 ^ (127 - i) % 2 == 1 then r.1 ^^^ r.2 else r.1,
     if r.2 % 2 == 1 then (r.2 / 2) ^^^ (0xE1 * 2 ^ 120) else r.2 / 2)) (0, y)).1

/-- The bytes in blocks of 16, the last filled with zeros. -/
def blocks (l : List Nat) : List (List Nat) :=
  let n := (l.length + 15) / 16
  runs 16 n (l ++ List.replicate (16 * n - l.length) 0)

/-- Counter block `c` of a 96-bit nonce. -/
def ctrBlock (iv : List Nat) (c : Nat) : List Nat := iv ++ beBytes 4 c

/-- AES-256-GCM: the key stream over the text. -/
def gcmText (key iv text : List Nat) : List Nat :=
  let ks := keySchedule key
  ((blocks text).zipIdx.flatMap fun b => xorBytes b.1 (aesBlock ks (ctrBlock iv (b.2 + 2)))).take text.length

/-- The tag over associated data and ciphertext. -/
def gcmTag (key iv aad text : List Nat) : List Nat :=
  let ks := keySchedule key
  let h := beNat (aesBlock ks (List.replicate 16 0))
  let g := (blocks aad ++ blocks text ++ [beBytes 8 (8 * aad.length) ++ beBytes 8 (8 * text.length)]).foldl
    (fun y b => ghashMul (y ^^^ beNat b) h) 0
  xorBytes (beBytes 16 g) (aesBlock ks (ctrBlock iv 1))

end Sys2Proof.Machine.Crypto
end

