-- ==== Sys2Proof/Machine/Post.lean ====
section
/-! DEFINITION. Writing completion entries, MSI-X messages and unsolicited entries (R94 to R101, R110, R111). -/
namespace Sys2Proof.Machine

/-- The function that owns a global QP now (R85). -/
def State.fnOf (s : State) (q : Nat) : Nat := if 1 ≤ q / 16384 && q / 16384 ≤ s.link.numVfs then q / 16384 else 0

/-- The global QP of local QP `l` of function `fn` (R85). -/
def globalQp (fn l : Nat) : Nat := 16384 * fn + l

/-- Is this global QP its function's admin queue (R85)? -/
def State.isAdmin (s : State) (q : Nat) : Bool := q == 16384 * s.fnOf q

def State.qp (s : State) (q : Nat) : Qp := tabGet s.link.qps q {}
def State.setQp (s : State) (q : Nat) (f : Qp → Qp) : State :=
  s.modLink fun l => { l with qps := tabSet l.qps q (f (tabGet l.qps q {})) }
def State.fn (s : State) (v : Nat) : AdminRegs := tabGet s.link.fns v {}
def State.setFn (s : State) (v : Nat) (f : AdminRegs → AdminRegs) : State :=
  s.modLink fun l => { l with fns := tabMod l.fns v {} f }
def State.count (s : State) (v : Nat) (f : QCounts → QCounts) : State :=
  s.modLink fun l => { l with counts := tabMod l.counts v {} f }

/-- free of R98, with cq_depth = cq_depth_m1 + 1. -/
def Qp.free (q : Qp) : Nat := q.cqDepthM1 - (q.cqTail + (q.cqDepthM1 + 1) - q.cqHead) % (q.cqDepthM1 + 1)

/-- A function that posts nothing: in D3hot (R72), or behind a link that is down. -/
def State.mute (s : State) (v : Nat) : Bool := (s.fn v).d3hot || !s.link.up

/-- Is the message of this vector held: by the entry's mask, the function mask, a clear enable, or D3hot (R72, R101,
log 8)? -/
def State.msixHeld (s : State) (v vec : Nat) : Bool :=
  let f := s.fn v
  let e := tabGet s.link.msix (2048 * v + vec) {}
  s.mute v || !f.msixEn || f.msixMask || e.ctrl.getLsbD 0

/-- Send the message, or hold it pending; conditions met while one is held add no second (R101). -/
def sendMsix (v vec : Nat) (s : State) : State :=
  if s.msixHeld v vec then s.modLink fun l => { l with pba := setAdd l.pba (2048 * v + vec) }
  else (s.count v fun c => { c with msix := c.msix + 1 }).emit (.msix v vec)

/-- Release what a mask held (R101). -/
def releaseMsix (v : Nat) (s : State) : State :=
  (s.link.pba.filter fun k => k / 2048 == v).foldl (fun s k =>
    if s.msixHeld v (k % 2048) then s
    else sendMsix v (k % 2048) (s.modLink fun l => { l with pba := setDel l.pba k })) s

/-- Count one written entry towards the moderation of its QP, and send the message when a condition of R101 holds:
mod_count entries, or a status that is not success. -/
def moderate (q : Nat) (success : Bool) (s : State) : State :=
  let c := s.qp q
  if !c.intrEn then s
  else if !success || max 1 c.modCount ≤ c.since + 1 then
    sendMsix (s.fnOf q) c.vector (s.setQp q fun c => { c with since := 0, modDue := none })
  else s.setQp q fun c => { c with
    since := c.since + 1
    modDue := if c.since == 0 && c.modTime != 0 then some (s.time.mono + 1600 * c.modTime) else c.modDue }

/-- The 16 bytes of an entry with a phase bit (R95, R110). -/
def cqeBytes (phase : Bool) (e : Cqe) : List Byte :=
  leBytes 2 e.tag.toNat ++ leBytes 1 e.status ++ leBytes 1 (bit phase + 2 * qualCode e.quality + 16 * e.kind) ++
  leBytes 4 e.result.toNat ++ leBytes 8 e.vt.toNat

/-- Write one entry at cq_tail with the current phase, in one TLP, and move on (R95). -/
def writeCqe (q : Nat) (e : Cqe) (s : State) : State :=
  let c := s.qp q
  let wraps := c.cqTail == c.cqDepthM1
  let s := s.emit (.cqeWrite q c.cqTail (c.cqBase + w64 (16 * c.cqTail)) (cqeBytes c.phase e))
  let s := s.setQp q fun c => { c with
    cqTail := if wraps then 0 else c.cqTail + 1
    phase := if wraps then !c.phase else c.phase }
  moderate q (e.status == 0) s

/-- The opening or closing QUEUE_FULL entry (R99): result 0 or the dropped count. -/
def queueFullEntry (result : Nat) (vt : W64) (ql : Quality) : Cqe :=
  { tag := 0xFFFF, status := 0x10, kind := 1, quality := ql, result := w32 result, vt := vt }

/-- Open an overflow at its first drop, and write the opening entry into the reserved slot (R98, R99); in D3hot the
entry is held until the function is back in D0 (log 15). -/
def openOverflow (q : Nat) (e : Cqe) (s : State) : State :=
  let held := s.mute (s.fnOf q)
  let s := s.setQp q fun c => { c with
    overflow := true, openHeld := held, firstDrop := e.vt, firstQual := e.quality, qfTotal := satAdd 32 c.qfTotal 1 }
  let s := s.count (s.fnOf q) fun c => { c with opened := c.opened + 1 }
  let s := s.modStroke fun k => { k with loaded := true }
  if held then s
  else (writeCqe q (queueFullEntry 0 e.vt e.quality) s).count (s.fnOf q) fun c => { c with unsol := c.unsol + 1 }

/-- Post one unsolicited entry to a QP, or drop it (R98, R99). A QP that is not ACTIVE gets none (R94, R112). -/
def postUnsol (q : Nat) (e : Cqe) (s : State) : State :=
  let c := s.qp q
  if c.state != .active then s
  else if !c.overflow && !s.mute (s.fnOf q) && c.owed + 2 ≤ c.free then
    (writeCqe q e s).count (s.fnOf q) fun c => { c with unsol := c.unsol + 1 }
  else
    let s := if c.overflow then s else openOverflow q e s
    let s := s.setQp q fun c => { c with
      dropCount := satAdd 32 c.dropCount 1, lastDrop := e.vt, lastQual := e.quality }
    s.count (s.fnOf q) fun c => { c with dropped := c.dropped + 1 }

/-- An unsolicited entry of a kind that carries SUCCESS (R111). -/
def unsolEntry (s : State) (kind : Nat) (result : W32) (vt : W64) : Cqe :=
  { tag := 0xFFFF, status := 0, kind := kind, quality := s.quality, result := result, vt := vt }

/-- The QPs of the bindings of a kind that cover a source, in handle order; a source 0xFFFF covers all (R112). -/
def boundQps (s : State) (kind src : Nat) : List Nat :=
  (s.link.binds.filter fun b => b.2.kind == kind && (b.2.source == src || b.2.source == 0xFFFF)).map (·.2.qp)

/-- Post a FAULT or STROKE entry: to the bindings that cover its source, else to the PF admin queue (R112). -/
def postCovered (kind src : Nat) (e : Cqe) (s : State) : State :=
  match boundQps s kind src with
  | [] => postUnsol 0 e s
  | qs => qs.foldl (fun s q => postUnsol q e s) s

/-- Give every binding of an EVENT, TIMER_SEN or LOG source its entry, with the binding's own sequence (R111). A LOG
entry's result is the record's number instead. -/
def postBound (kind : Nat) (srcs : Nat → Bool) (result : Option W32) (vt : W64) (ql : Quality) (s : State) : State :=
  s.link.binds.foldl (fun s hb =>
    let (h, b) := hb
    if b.kind == kind && srcs b.source then
      let r := result.getD (w32 (65536 * h + b.seq % 65536))
      let e : Cqe := { tag := 0xFFFF, status := 0, kind := kind, quality := ql, result := r, vt := vt }
      s.modLink fun l => { l with
        binds := tabMod l.binds h b fun b => { b with seq := b.seq + 1 }
        posting := l.posting ++ [{ qp := b.qp, cqe := e }] }
    else s) s

/-- A queue fault (R94): the QP stops; its admin queue gets a QFAULT entry, or the fault is shown in AQ_STAT and
signalled on vector 0 where the QP is the admin queue itself. Commands owed, those of an outstanding SQ read among them, run
to completion. -/
def qpFault (q cause : Nat) (s : State) : State :=
  let v := s.fnOf q
  let s1 := s.setQp q fun c => { c with state := .faulted, cause := cause }
  if s.isAdmin q then
    sendMsix v 0 (s1.setFn v fun a => { a with cause := cause, fault := true, rdy := false })
  else
    postUnsol (16384 * v)
      { tag := 0xFFFF, status := 0x11, kind := 3, quality := s.quality, result := w32 (cause * 2 ^ 20 + q),
        vt := s.now } s1

/-- The QP number under which a command forwarded by the lead runs on a follower (R496, R497). -/
def cubeQp : Nat := 2 ^ 40

/-- Record a command's completion; COMPLETION_POST writes it in submission order (R114, R115). -/
def finishRaw (q cid status : Nat) (result : W32) (vt : W64) (ql : Quality) (s : State) : State :=
  s.setQp q fun c => { c with cmds := c.cmds.map fun m =>
    if m.cid == cid then
      { m with phase := .done { tag := m.sub.tag, status := status, kind := 0, quality := ql, result := result,
                                vt := vt } }
    else m }

/-- A command has finished here. One the lead forwarded is reported to it, and on the lead a cube command then waits for
the other devices (R497). -/
def finishAt (q cid status : Nat) (result : W32) (vt : W64) (ql : Quality) (s : State) : State :=
  if q == cubeQp then s.emit (.brlReport status result [])
  else if s.brl.cmds.any fun c => c.qp == q && c.cid == cid then
    s.modBrl fun b => { b with cmds := b.cmds.map fun c =>
      if c.qp == q && c.cid == cid then
        { c with own := some { cubeId := s.cubeId, status := w8 status, result := result,
                               data := match c.own with | some r => r.data | none => [] }
                 vt := vt, ql := ql }
      else c }
  else finishRaw q cid status result vt ql s

/-- Complete a command now: its effects are visible at VT64 now (R116). -/
def finish (q cid status : Nat) (result : W32) (s : State) : State := finishAt q cid status result s.now s.quality s

end Sys2Proof.Machine
end

