-- ==== Sys2Proof/Machine/Faults.lean ====
section
/-! DEFINITION. The fault collection unit: sources, records, severities, the safe state, the journal (R506 to R522)
and retirement proposals (R508, R527). -/
namespace Sys2Proof.Machine

/-! ### Source IDs (R552) -/
namespace Src
def tjWarn := 0x001
def tjCrit := 0x002
def thermtrip := 0x003
def pbxLockstep := 0x004
def healthAging := 0x005
def healthPropLost := 0x006
def spareNone := 0x007
def shadowDefer := 0x008
def fwInternal := 0x009
def pcieCie := 0x00A
def pcieUie := 0x00B
def bootFail := 0x00C
def vtStep := 0x100
def vtRange := 0x101
def servoHoldover := 0x102
def holdoverExpired := 0x103
def servoUnlock := 0x104
def ref10Lost := 0x105
def oscPath := 0x106
def tdcCal := 0x107
def stkOverrun := 0x180
def overload := 0x181
def planOff := 0x182
def powerEnvelope := 0x183
def senStorm (ch : Nat) := 0x200 + ch
def dramCe (c : Nat) := 0x400 + c
def dramUe (c : Nat) := 0x404 + c
def emrCe := 0x408
def emrUe := 0x409
def dramTrain := 0x40A
def dramRemapFull := 0x40B
def fabDecerr := 0x40C
def fabTimeout := 0x40D
def sramCe (i : Nat) := 0x440 + i
def sramUe (i : Nat) := 0x448 + i
def lgsGeom := 0x500
def lgsUe := 0x501
def lgsShed := 0x502
def lgsTrigLost := 0x503
def lgsAppErr := 0x504
def lgsSpareLow := 0x505
def lgsLifeLow := 0x506
def lgsIndex := 0x507
def ingRefused := 0x600
def csiErr := 0x601
def ethLink := 0x602
def canErr := 0x603
def spiOverlap := 0x604
def brlLane := 0x700
def brlDown := 0x701
def brlTopo := 0x702
def brlLeadLost := 0x703
def brlTimeout := 0x704
def course (n off : Nat) := 0x800 + 0x40 * n + off
def lspCe (n p : Nat) := course n p
def lspUe (n p : Nat) := course n (0x10 + p)
def csmCe (n : Nat) := course n 0x20
def csmUe (n : Nat) := course n 0x21
def lspStarve (n : Nat) := course n 0x22
def veHalt (n : Nat) := course n 0x23
def veAsyncLost (n : Nat) := course n 0x24
def seqCsErr (n : Nat) := course n 0x25
def seqCtxBad (n : Nat) := course n 0x26
def dmaErr (n : Nat) := course n 0x27
def courseBist (n : Nat) := course n 0x28
end Src

/-- Default severity of an implemented source; none where the ID is not implemented (R510, R552 and the tables of
R171, R200, R355, R386, R397, R447, R482, R503, R517, R545). -/
def srcDefault (id : Nat) : Option Nat :=
  if id < 0x100 then
    match id with
    | 1 => some 1 | 2 => some 3 | 3 => some 3 | 4 => some 2 | 5 => some 1 | 6 => some 1 | 7 => some 1 | 8 => some 0
    | 9 => some 1 | 10 => some 0 | 11 => some 2 | 12 => some 3 | _ => none
  else if id < 0x180 then
    match id - 0x100 with
    | 0 => some 0 | 1 => some 1 | 2 => some 1 | 3 => some 2 | 4 => some 1 | 5 => some 1 | 6 => some 2 | 7 => some 1
    | _ => none
  else if id < 0x200 then
    match id - 0x180 with
    | 0 => some 0 | 1 => some 1 | 2 => some 1 | 3 => some 1 | _ => none
  else if id < 0x240 then some 1
  else if id < 0x400 then none
  else if id < 0x500 then
    match id - 0x400 with
    | 0 | 1 | 2 | 3 => some 0 | 4 | 5 | 6 | 7 => some 2 | 8 => some 0 | 9 => some 3 | 10 => some 2 | 11 => some 1
    | 12 => some 0 | 13 => some 2
    | n => if inRange n 0x40 0x48 then some 0 else if inRange n 0x48 0x50 then some 2 else none
  else if id < 0x600 then
    match id - 0x500 with
    | 0 => some 2 | 1 => some 1 | 2 => some 0 | 3 => some 1 | 4 => some 1 | 5 => some 2 | 6 => some 1 | 7 => some 3
    | _ => none
  else if id < 0x700 then
    match id - 0x600 with
    | 0 => some 0 | 1 => some 0 | 2 => some 1 | 3 => some 1 | 4 => some 0 | _ => none
  else if id < 0x800 then
    match id - 0x700 with
    | 0 => some 1 | 1 => some 2 | 2 => some 2 | 3 => some 1 | 4 => some 1 | _ => none
  else if id < 0xC00 then
    let o := id % 0x40
    if o < 13 then some 0
    else if inRange o 0x10 0x1D then some 2
    else match o with
      | 0x20 => some 0 | 0x21 => some 2 | 0x22 => some 1 | 0x23 => some 2 | 0x24 => some 1 | 0x25 => some 2
      | 0x26 => some 1 | 0x27 => some 1 | 0x28 => some 2 | _ => none
  else none

def srcImpl (id : Nat) : Bool := (srcDefault id).isSome

/-- The LEVEL sources of R507 and R545; every other is EVENT. -/
def srcLevel (id : Nat) : Bool :=
  id == Src.overload || id == Src.tjWarn || id == Src.tjCrit || id == Src.powerEnvelope || id == Src.brlDown ||
  id == Src.lgsSpareLow || id == Src.lgsLifeLow || id == Src.healthAging || inRange id 0x200 0x240

/-- Sources whose severity is fixed at 3 (R509, R510). -/
def srcFixed (id : Nat) : Bool :=
  id == Src.tjCrit || id == Src.emrUe || id == Src.thermtrip || id == Src.bootFail

/-- Severity in force (R509). -/
def State.sevOf (s : State) (id : Nat) : Nat :=
  if srcFixed id then 3 else tabGet s.em.sev id ((srcDefault id).getD 0)

def State.frec (s : State) (id : Nat) : FaultRec := tabGet s.fcu.recs id {}
def State.setRec (s : State) (id : Nat) (f : FaultRec → FaultRec) : State :=
  s.modFcu fun u => { u with recs := tabMod u.recs id {} f }

/-- Engine-raised sources carry their unit; all others 0xFFFF (R521). -/
def unitNone : W16 := 0xFFFF
def unitEng (course phys : Nat) : W16 := w16 (256 * course + phys)

/-! ### The journal (R520, R521) -/

/-- Append one entry; one overwritten above FJ_EXPSEQ counts in FJ_LOST. -/
def journal (typ src sev : Nat) (inj : Bool) (merges : Nat) (vt info : W64) (unit : W16) (s : State) : State :=
  let u := s.fcu
  let e : JEntry := { vt, src, sev, inj, merges, seq := u.head, info, typ, quality := s.quality, era := s.time.era,
                      unit, stroke := s.stroke.num % 2 ^ 32 }
  let lostOne := match tabFind u.ring (u.head % 4096) with
    | some old => u.fill == 4096 && (old.seq + 2 ^ 32 - u.exp) % 2 ^ 32 < 2 ^ 31
    | none => false
  s.modFcu fun u => { u with
    ring := tabSet u.ring (u.head % 4096) e
    head := (u.head + 1) % 2 ^ 32
    fill := min 4096 (u.fill + 1)
    lost := if lostOne then (u.lost + 1) % 2 ^ 32 else u.lost }

/-- The entries held, oldest first. -/
def journalHeld (u : Fcu) : List JEntry :=
  (List.range u.fill).filterMap fun i => tabFind u.ring ((u.head + 2 ^ 32 - u.fill + i) % 4096)

/-- The 32 bytes of an entry (R521). -/
def journalBytes (e : JEntry) : List Byte :=
  leBytes 8 e.vt.toNat ++ leBytes 2 (e.src + 4096 * e.sev + 16384 * bit e.inj) ++ leBytes 2 e.merges ++
  leBytes 4 e.seq ++ leBytes 8 e.info.toNat ++ leBytes 1 (qualCode e.quality + 16 * e.typ) ++ leBytes 1 e.era ++
  leBytes 2 e.unit.toNat ++ leBytes 4 e.stroke

/-- Copy the whole journal into a capsule: a slot without an uncommitted one, else the newer is replaced (R522). -/
def copyCapsule (s : State) : State :=
  let c : Capsule := { vt := s.now, quality := s.quality, era := s.time.era, stroke := s.stroke.num,
                       entries := journalHeld s.fcu, lost := s.fcu.lost }
  s.modEm fun e => { e with capsules := e.capsules.take 1 ++ [c] }

/-! ### The safe state (R514, R515) -/

/-- JOB_SUBMIT jobs of the running stroke not yet released complete with SAFE_STATE at entry, with their handle
(R189). -/
def safeJobs (s : State) : State :=
  let waiting := (s.stroke.gates.map fun kg => kg.2.queue.filterMap (·.adhoc)).flatten
  waiting.foldl (fun s j => finish j.qp j.cid 0x0F (w32 j.handle) s)
    (s.modStroke fun k => { k with
      gates := k.gates.map fun kg => (kg.1, { kg.2 with queue := kg.2.queue.filter (·.adhoc.isNone) }) })

/-- Commands of retirements and reinstatements under way complete with SAFE_STATE; the sequences stay (R533). -/
def safeSeqs (s : State) : State :=
  let ws := s.health.seqs.filterMap (·.waiter)
  ws.foldl (fun s w => finish w.1 w.2 0x0F 0 s)
    (s.modHealth fun h => { h with seqs := h.seqs.map fun q => { q with waiter := none } })

/-- Enter the safe state: FAULT_N low, balls to their safe levels, CAN_TXD recessive and PPS_OUT held, the SAFE entry, the capsule
copy. What else R514 and R515 stop is stopped where it would act, by `fcu.safe`. -/
def enterSafe (id : Nat) (info : W64) (unit : W16) (s : State) : State :=
  if s.fcu.safe then s
  else
    let s := s.modPins fun p => { p with faultN := false, safeHeld := true, canTxd := 0xF }
    let s := s.modTime fun t => { t with ppsFall := none }
    let s := s.modFcu fun u => { u with safe := true, safeSrc := id, safeVt := s.now }
    let s := journal 2 id 3 (s.frec id).injected 0 s.now info unit s
    safeSeqs (safeJobs (copyCapsule s))

/-! ### Raising and clearing (R508, R511, R512) -/

/-- The FAULT entry of a raise (R111). -/
def faultEntry (id merges sev : Nat) (s : State) : State :=
  postCovered 6 id (unsolEntry s 6 (w32 (65536 * merges + 4096 * sev + id)) s.now) s

/-- Open or merge the record of a source (R511); without proposals. -/
def openFault (id : Nat) (info : W64) (unit : W16) (s : State) : State :=
  if !s.fcu.running || !srcImpl id then s
  else
    let sev := s.sevOf id
    let r := s.frec id
    if r.isOpen then
      let s := s.setRec id fun r => { r with merges := satAdd 16 r.merges 1, last := s.now }
      let s := s.modFcu fun u => { u with merged := u.merged + 1 }
      if sev == 3 then enterSafe id info unit s else s
    else
      let inj := s.fcu.injecting
      let s := s.setRec id fun r => { r with
        isOpen := true, merges := 0, first := s.now, last := s.now, info := info, sev := sev, injected := inj,
        unit := unit }
      let s := s.modFcu fun u => { u with
        opened := u.opened.set! sev (u.opened[sev]! + 1), degraded := u.degraded || 2 ≤ sev }
      let s := journal 0 id sev inj 0 s.now info unit s
      let s := if 1 ≤ sev then (faultEntry id 0 sev s).emit (.pegboxIrq id) else s
      if sev == 3 then enterSafe id info unit s else s

/-- Put a proposal into the table (R527): not twice for one unit; HEALTH_PROP_LOST where the table is full. Row and
block classes carry index 0xFFFF and are told apart by their detail (R543). -/
def propose (cls index reason src : Nat) (detail : W64) (s : State) : State :=
  if s.health.props.any fun p => p.2.cls == cls && p.2.index == index && p.2.detail == detail && p.2.state != 0
  then s
  else match tabFresh s.health.props 64 with
    | some k => s.modHealth fun h => { h with
        props := tabSet h.props k { state := 1, cls, index, reason, src, detail, stroke := s.stroke.num,
                                    fret := s.fretNow } }
    | none => openFault Src.healthPropLost 0 unitNone s

/-- The data address of codeword `idx` of a DRAM channel (R372, R376). -/
def dramData (c idx : Nat) : Nat :=
  let x := 32 * idx
  ((4 * (x / 2048) + c) * 29 + x % 2048 / 64) * 64 + x % 64

/-- The unit a source names, as class, index and detail (R508, R528): an engine, a CSM bank, the active pegbox pair,
the failed crystal path, a DRAM or eMRAM row; a memory's CE source names what its UE source names (log 16). -/
def unitOfSource (s : State) (id : Nat) (info : W64) (unit : W16) : Option (Nat × Nat × W64) :=
  if inRange id 0x800 0xC00 then
    let n := (id - 0x800) / 0x40
    let o := (id - 0x800) % 0x40
    if o < 13 then some (0, 13 * n + o, 0)
    else if inRange o 0x10 0x1D then some (0, 13 * n + (o - 0x10), 0)
    else if o == 0x20 || o == 0x21 then some (1, 128 * n + bitsAt info.toNat 4 7, 0)
    else if (o == 0x23 || o == 0x25) && unit != unitNone then some (0, 13 * n + bitsAt unit.toNat 0 4, 0)
    else none
  else if id == Src.pbxLockstep then some (3, s.em.pbxPair, 0)
  else if id == Src.oscPath then some (4, 1 - bit s.time.path, 0)
  else if inRange id 0x400 0x408 then some (7, 0xFFFF, w64 (dramData (id % 4) (bitsAt info.toNat 0 32)))
  else if id == Src.emrCe || id == Src.emrUe then some (6, 0xFFFF, w64 (bitsAt info.toNat 0 32))
  else none

/-- Raise a source (R508, R511): open or merge its record, and propose the unit it names when severity 2 or 3 opens
a record. -/
def raiseFault (id : Nat) (info : W64) (unit : W16) (s : State) : State :=
  let opens := s.fcu.running && srcImpl id && !(s.frec id).isOpen && 2 ≤ s.sevOf id
  let s1 := openFault id info unit s
  if opens then
    match unitOfSource s id info unit with
    | some (c, i, d) => propose c i 1 id d s1
    | none => s1
  else s1

/-- Begin or end the lasting condition of a LEVEL source (R507): raised when it begins. -/
def setCause (id : Nat) (present : Bool) (info : W64) (s : State) : State :=
  let was := (s.frec id).cause
  if was == present then s
  else
    let s := s.setRec id fun r => { r with cause := present }
    if present then raiseFault id info unitNone s else s

/-- Close a record (R512): the result is whether the cause is absent; a closed source answers true and writes
nothing. -/
def closeFault (id : Nat) (s : State) : Bool × State :=
  let r := s.frec id
  if !r.isOpen then (true, s)
  else if r.cause then (false, s)
  else (true, journal 1 id r.sev r.injected r.merges s.now r.last r.unit
                (s.setRec id fun r => { r with isOpen := false }))

/-- FCU_SRC[id] as a word (R519). -/
def srcWord (s : State) (id : Nat) : W32 :=
  if !srcImpl id then 0
  else
    let r := s.frec id
    w32 (65536 * r.merges + 2 ^ 15 * bit r.isOpen + 2 ^ 14 * bit r.cause + 2 ^ 13 * bit (srcLevel id) +
      2 ^ 12 * bit (srcFixed id) + 2 ^ 11 + s.sevOf id)

/-- Records open now. -/
def openCount (s : State) : Nat := (s.fcu.recs.filter fun r => r.2.isOpen).length

/-- FCU_STAT (R519). -/
def fcuStat (s : State) : W32 :=
  w32 (2 ^ 31 * bit s.fcu.safe + 2 ^ 30 * bit s.fcu.degraded + 65536 * s.fcu.safeSrc + openCount s)

/-- Set READY_MAP bits and report each one that sets after pcie_admin on the PF admin queue (R62, R64, R111). -/
def setReady (b : Nat) (s : State) : State :=
  if s.ready b then s
  else
    let s1 := s.modBoot fun x => { x with readyMap := putBit x.readyMap b true }
    if s.ready 1 then postUnsol 0 (unsolEntry s 2 (w32 b) s.now) s1 else s1

/-- Snapshot group 2 (R524). -/
def group2 (s : State) : List W32 :=
  let opn := s.fcu.recs.filter fun r => r.2.isOpen
  let ids := opn.map (·.1)
  let bySev := fun k => w32 ((opn.filter fun r => r.2.sev == k).length)
  let storm := fun base => w32 ((List.range 32).foldl (fun a i =>
    a + 2 ^ i * bit (s.frec (0x200 + base + i)).cause) 0)
  let idAt := fun i => (ids[i]?).getD 0xFFFF
  [fcuStat s, lo32 s.fcu.safeVt, hi32 s.fcu.safeVt, bySev 0, bySev 1, bySev 2, bySev 3, w32 s.fcu.head,
    w32 s.fcu.lost, w32 (2 ^ min 2 s.em.capsules.length - 1), w32 s.fcu.opened[0], w32 s.fcu.opened[1],
    w32 s.fcu.opened[2], w32 s.fcu.opened[3], w32 s.fcu.merged, storm 0, storm 32] ++
  (List.range 32).map (fun i => w32 (idAt (2 * i) + 65536 * idAt (2 * i + 1))) ++
  [w32 (ids.length - 64)] ++ List.replicate 14 0

end Sys2Proof.Machine
end

