-- ==== Sys2Proof/Machine/Clock.lean ====
section
/-! DEFINITION. Elapsed time (R9, R10, R134; log 4, log 5), and the tuning table (R540 to R542). -/
namespace Sys2Proof.Machine

/-! ### Engines by course and physical engine -/

def engKey (course phys : Nat) : Nat := 13 * course + phys
def State.engine (s : State) (e : Eng) : Engine := tabGet s.eng.tab (engKey e.course e.phys) {}
def State.setEngine (s : State) (e : Eng) (f : Engine → Engine) : State :=
  s.modEng fun g => { g with tab := tabMod g.tab (engKey e.course e.phys) {} f }

/-- The physical engine that holds the place of one (R535): where that one has left its slot, the engine there now. -/
def State.nowHolds (s : State) (course phys : Nat) : Nat :=
  if phys < 12 then tabGet s.em.slotPhys (12 * course + phys) phys else phys

/-! ### Elapsed time -/

/-- Fortieths of an ECLK cycle in one vt (R9): 0.8, 1.2 and 1.6 GHz. -/
def eclkFrac (code : Nat) : Nat := code + 2

/-- The first instruction of an entered handler issues: the interrupt's pend bit clears, and the entry is over (R274,
R276). -/
def Engine.endEntry (e : Engine) : Engine :=
  match e.entry with
  | some r => { e with entry := none, irqPend := match r.source with | some n => putBit e.irqPend n false | none => e.irqPend }
  | none => e

/-- Cycles until the first instruction of a handler being entered issues. -/
def Engine.entryLeft (e : Engine) : Nat := match e.entry with | some r => r.due - r.age | none => 0

/-- `c` cycles pass for a core: CYCLE counts, a division goes on, an entry goes on, and the window of a handler that has
begun shrinks (R206, R249, R274, R281). -/
def Engine.cycles (c : Nat) (e : Engine) : Engine :=
  if e.st == .run || e.st == .shadow then
    let k := e.entryLeft
    let e : Engine := { e with
      cycle := e.cycle + w64 c, window := e.window - (c - k), div := e.div.map fun d => { d with cycles := d.cycles - c }
      entry := e.entry.map fun r => { r with age := r.age + c } }
    if k ≤ c then e.endEntry else e
  else e

/-- `c` cycles pass for a fret gate: the budget of a running job counts down, and the cycles past it are its excess
(R186, R193). -/
def Gate.cycles (c : Nat) (g : Gate) : Gate :=
  if g.cur.isSome then { g with remain := g.remain - c, excess := if g.ovr then g.excess + c else g.excess } else g

/-- Units of TE_FREQ in the whole rate: 2^-16 ppm (R151, R167). -/
def rateUnit : Int := 65536000000

/-- `d` vt of the time base pass, in which VT64 moves by `dv` where it counts and keeps `rest` of a vt (log 4): the elapsed
count, and the ECLK cycles they hold. -/
def State.elapse (d dv : Nat) (rest : Int) (s : State) : State :=
  let units := s.eng.frac + d * eclkFrac s.stroke.eclk
  let c := units / 40
  let s := s.modTime fun t => { t with
    vt64 := if t.counting then t.vt64 + w64 dv else t.vt64, mono := t.mono + d, rateFrac := if t.counting then rest else t.rateFrac }
  let s := s.modEng fun g => { g with frac := units % 40, tab := g.tab.map fun p => (p.1, p.2.cycles c) }
  s.modStroke fun k => { k with gates := k.gates.map fun p => (p.1, p.2.cycles c) }

/-- `d` vt of the time base pass: VT64 moves at its rate, which TE_FREQ adjusts (R134, R151, R152). -/
def State.advance (d : Nat) (s : State) : State :=
  let acc := s.time.rateFrac + d * s.time.freq
  s.elapse d (d + acc / rateUnit).toNat (acc % rateUnit)

/-- VT64 moves by `n`: the least time of the time base that takes. -/
def State.advanceVt (n : Nat) (s : State) : State :=
  let rate := rateUnit + s.time.freq
  let d := (n * rateUnit - s.time.rateFrac + rate - 1) / rate
  s.elapse d.toNat n (s.time.rateFrac + d * rate - n * rateUnit)

/-- Bring the elapsed time to `m` where it is not there yet (log 5). -/
def State.bringTo (m : Nat) (s : State) : State := s.advance (m - s.time.mono)

/-- Bring VT64 to `v` where it is not there yet (log 5). -/
def State.bringVt (v : W64) (s : State) : State :=
  if (v - s.now).toNat < 2 ^ 63 then s.advanceVt (v - s.now).toNat else s

/-- The vt that `c` ECLK cycles take. -/
def State.vtOfCycles (s : State) (c : Nat) : Nat :=
  (40 * c - s.eng.frac + eclkFrac s.stroke.eclk - 1) / eclkFrac s.stroke.eclk

/-- The SEN cycle now: 20 vt each. -/
def State.senCycle (s : State) : Nat := s.time.mono / 20

/-! ### The tuning table -/

/-- Is the item in the table of R541? -/
def tuneImpl (i : Nat) : Bool :=
  inRange i 1 4 || inRange i 0x10 0x13 || inRange i 0x100 0x13A || inRange i 0x140 0x150 || inRange i 0x150 0x154

def tuneMult (i : Nat) : Bool := i == 0x12

/-- Factory value of an item (R541); TEMP_GAIN's is fused (log 10). -/
def tuneFactory (i : Nat) : Int :=
  if i == 1 then 1577836800 else if i == 2 then 1 else if i == 0x12 then (Config.fused 4).toNat else 0

/-- Effective value with a user entry (R540). -/
def tuneEffOf (i : Nat) (user : W32) : Int :=
  if tuneMult i then (tuneFactory i * user.toNat + 2 ^ 19) / 2 ^ 20 else tuneFactory i + user.toInt

/-- Effective value in force: the factory value without an entry. -/
def State.tune (s : State) (i : Nat) : Int :=
  match tabFind s.em.tune i with
  | some u => tuneEffOf i u
  | none => tuneFactory i

/-- The effective range of an item (R541); ±3 ppm in units of 2^-16 ppm. -/
def tuneInRange (i : Nat) (v : Int) : Bool :=
  if i == 1 then 0 ≤ v && v < 2 ^ 32
  else if i == 2 then 0 ≤ v && v ≤ 3
  else if i == 3 then v == 0 || v == 1
  else if i == 0x10 || i == 0x11 then -196608 ≤ v && v ≤ 196608
  else if i == 0x12 then 99 * tuneFactory i ≤ 100 * v && 100 * v ≤ 101 * tuneFactory i
  else if inRange i 0x100 0x13A then -16000 ≤ v && v ≤ 16000
  else if inRange i 0x140 0x150 then -1600000 ≤ v && v ≤ 1600000
  else -1600 ≤ v && v ≤ 1600

end Sys2Proof.Machine
end

