-- ==== Sys2Proof/Machine/Svu.lean ====
section
/-! DEFINITION. The element operations of the short-vector unit (R292 to R301). A vector register file is 32 registers
of 512 bits; an element of width w lies at bit i x w of its group. -/
namespace Sys2Proof.Machine

abbrev VFile := Vector (BitVec 512) 32

/-- Element i of width w of the group at r, as a number; registers past v31 are not reached by legal groups. -/
def velem (v : VFile) (r w i : Nat) : Nat := bitsAt (v[(r + i * w / 512) % 32]!).toNat (i * w % 512) w

/-- Set element i of width w of the group at r. -/
def vput (v : VFile) (r w i x : Nat) : VFile :=
  let k := (r + i * w / 512) % 32
  let o := i * w % 512
  let old := v[k]!
  let mask : BitVec 512 := BitVec.ofNat 512 ((2 ^ w - 1) * 2 ^ o)
  v.set! k ((old &&& ~~~ mask) ||| BitVec.ofNat 512 (x % 2 ^ w * 2 ^ o))

/-- Bit i of a mask register. -/
def vmask (v : VFile) (r i : Nat) : Bool := (v[r]!).getLsbD i

/-- Signed reading and wrapping back. -/
def toN (w : Nat) (x : Int) : Nat := (x % 2 ^ w).toNat

/-- Fixed-point rounding of an exact value shifted right by d (R292). -/
def roundShift (mode : Nat) (v : Int) (d : Nat) : Int :=
  if d == 0 then v
  else
    let q := v / 2 ^ d
    let r := (v % 2 ^ d).toNat
    let h := 2 ^ (d - 1) ≤ r
    let t := r % 2 ^ (d - 1) != 0
    match mode with
    | 0 => if h && (t || q % 2 != 0) then q + 1 else q
    | 1 => if h then q + 1 else q
    | 2 => q
    | _ => if (h || t) && q % 2 == 0 then q + 1 else q

/-- Saturate into lo..hi: value and the sat flag (R301). -/
def sat (lo hi v : Int) : Int × Nat := if v < lo then (lo, 32) else if hi < v then (hi, 32) else (v, 0)
def satS (w : Nat) (v : Int) : Nat × Nat :=
  let r := sat (-2 ^ (w - 1)) (2 ^ (w - 1) - 1) v
  (toN w r.1, r.2)
def satU (w : Nat) (v : Int) : Nat × Nat :=
  let r := sat 0 (2 ^ w - 1) v
  (toN w r.1, r.2)

/-- Integer operations, major 0x31 func 0 to 17 (R298); the mask operation VSEL takes its choice from `sel`. -/
def viOp (func w a b d : Nat) (sel : Bool) : Nat :=
  let sa := sgn w a
  let sb := sgn w b
  match func with
  | 0 => (a + b) % 2 ^ w
  | 1 => toN w ((a : Int) - b)
  | 2 => toN w ((b : Int) - a)
  | 3 => a &&& b
  | 4 => a ||| b
  | 5 => a ^^^ b
  | 6 => a * 2 ^ (b % w) % 2 ^ w
  | 7 => a / 2 ^ (b % w)
  | 8 => toN w (sa / 2 ^ (b % w))
  | 9 => if sa ≤ sb then a else b
  | 10 => if sa ≤ sb then b else a
  | 11 => min a b
  | 12 => max a b
  | 13 => a * b % 2 ^ w
  | 14 => toN w (sa * sb / 2 ^ w)
  | 15 => a * b / 2 ^ w
  | 16 => (d + a * b) % 2 ^ w
  | _ => if sel then b else a

/-- VCEQ, VCNE, VCLT, VCLTU, VCLE, VCLEU as 0 to 5 (R298). -/
def vcOp (k w a b : Nat) : Bool :=
  match k with
  | 0 => a == b
  | 1 => a != b
  | 2 => sgn w a < sgn w b
  | 3 => a < b
  | 4 => sgn w a ≤ sgn w b
  | _ => a ≤ b

/-- Fixed-point operations, major 0x32 (R298): a is of 2 x w for VNARS and VNARU. -/
def vqOp (func w frnd a b d : Nat) : Nat × Nat :=
  let sa := sgn w a
  let sb := sgn w b
  match func with
  | 0 => satS w (sa + sb)
  | 1 => satU w ((a : Int) + b)
  | 2 => satS w (sa - sb)
  | 3 => satU w ((a : Int) - b)
  | 4 => (toN w (roundShift frnd (sa + sb) 1), 0)
  | 5 => (toN w (roundShift frnd ((a : Int) + b) 1), 0)
  | 6 => (toN w (roundShift frnd (sa - sb) 1), 0)
  | 7 => (toN w (roundShift frnd ((a : Int) - b) 1), 0)
  | 8 => satS w (roundShift frnd (sa * sb) (w - 1))
  | 9 => (toN w (roundShift frnd (a : Int) (b % w)), 0)
  | 10 => (toN w (roundShift frnd sa (b % w)), 0)
  | 11 => satS w (roundShift frnd (sgn (2 * w) a) (b % (2 * w)))
  | 12 => satU w (roundShift frnd (a : Int) (b % (2 * w)))
  | _ => satS w (sgn w d + sa * sb)

/-- A float as an integer of a range: a number out of it saturates, and no NaN does (R260, R301; log 158). -/
def fsatInt (f : FFmt) (rm : Nat) (lo hi : Int) (x : Nat) : Int × Nat :=
  let r := ftoInt f rm lo hi x
  (r.1, if bitsAt r.2 4 1 == 1 && !fisNan f x then r.2 ||| 32 else r.2)

def ffmtOf (w : Nat) : FFmt := if w == 64 then f64 else f32

/-- Floating-point operations, major 0x33 func 0 to 5, 9, 10 (R298). -/
def vfOp (func w rm a b d : Nat) : Nat × Nat :=
  let f := ffmtOf w
  match func with
  | 0 => fadd f rm a b
  | 1 => fsub f rm a b
  | 2 => fmul f rm a b
  | 3 => fma f rm a b d
  | 4 => fminmax f false a b
  | 5 => fminmax f true a b
  | 9 => fofInt f rm (sgn w a)
  | _ =>
    let r := fsatInt f rm (-2 ^ (w - 1)) (2 ^ (w - 1) - 1) a
    (toN w r.1, r.2)

/-- Widening operations, major 0x34 func 0 to 4, at 2 x w (R298). -/
def vwOp (func w a b d : Nat) : Nat :=
  match func with
  | 0 => toN (2 * w) (sgn w a + sgn w b)
  | 1 => a + b
  | 2 => toN (2 * w) (sgn w a * sgn w b)
  | 3 => a * b
  | _ => toN (2 * w) (sgn (2 * w) d + sgn w a * sgn w b)

/-- The fixed tree of R300: neighbours added, level by level, an odd one carried. -/
def treePass (f : FFmt) (rm : Nat) : List Nat → List Nat × Nat
  | a :: b :: l =>
    let r := fadd f rm a b
    let t := treePass f rm l
    (r.1 :: t.1, r.2 ||| t.2)
  | l => (l, 0)
def treeSum (f : FFmt) (rm : Nat) : Nat → List Nat → Option Nat × Nat
  | 0, _ => (none, 0)
  | _ + 1, [] => (none, 0)
  | _ + 1, [x] => (some x, 0)
  | k + 1, l =>
    let p := treePass f rm l
    let r := treeSum f rm k p.1
    (r.1, p.2 ||| r.2)

/-- The shape in force: SEW, group size, VLMAX, rounding (R292, R293). -/
structure Shape where
  sew  : Nat
  grp  : Nat
  vlmax : Nat
  frnd : Nat
deriving DecidableEq, Repr

def shapeOf (vs : W32) : Shape :=
  let sew := 8 * 2 ^ bitsAt vs.toNat 2 2
  let grp := 2 ^ bitsAt vs.toNat 0 2
  { sew, grp, vlmax := 512 * grp / sew, frnd := bitsAt vs.toNat 4 2 }

/-- Do two register groups overlap? -/
def overlap (a na b nb : Nat) : Bool := a < b + nb && b < a + na

/-- Widening and narrowing operations of the VA majors. -/
def vaWidens (major func : Nat) : Bool := major == 0x34 && func ≤ 4
def vaNarrows (major func : Nat) : Bool := (major == 0x34 && 5 ≤ func) || (major == 0x32 && (func == 11 || func == 12))
def vaCompare (major func : Nat) : Bool :=
  (major == 0x31 && 18 ≤ func) || (major == 0x33 && inRange func 6 9)

/-- The ILLEGAL cases of R295 for a VA word. -/
def vaIllegal (sh : Shape) (major vd x vs2 : Nat) (vm : Bool) (src func : Nat) : Bool :=
  let g := sh.grp
  let wid := vaWidens major func
  let nar := vaNarrows major func
  let cmp := vaCompare major func
  let red := major == 0x35 && func ≤ 3
  let gv := major == 0x35 && func == 8
  let pv := major == 0x35 && func == 9
  let perm := major == 0x35 && inRange func 4 8
  let nd := if wid then 2 * g else if cmp || red || gv || pv then 1 else g
  let n2 := if nar then 2 * g else if gv then 1 else g
  let n1 := if red || (major == 0x35 && func == 7) then 1 else g
  let vv := src == 0 && !gv && !pv
  (!gv && vd % nd != 0) || (!pv && vs2 % n2 != 0) || (vv && x % n1 != 0) ||
  ((src == 1 || pv) && sh.sew == 64 && !even x) || (gv && sh.sew == 64 && !even vd) ||
  ((major == 0x33 || (major == 0x35 && func == 3)) && sh.sew ≤ 16) ||
  ((wid || nar) && (sh.sew == 64 || g == 8)) ||
  (wid && (overlap vd nd vs2 n2 || (vv && overlap vd nd x n1))) ||
  (nar && overlap vd nd vs2 n2) ||
  (perm && (overlap vd nd vs2 n2 || (vv && overlap vd nd x n1))) ||
  (!vm && !cmp && !gv && vd == 0) ||
  (major == 0x31 && func == 17 && vm) || (major == 0x35 && func == 7 && !vm)

/-- What a VA word leaves: the vector registers, the g registers it writes and its flags. -/
structure VRes where
  v      : VFile
  writes : List (Nat × W32) := []
  flags  : Nat := 0

/-- The second operand of element i: VV, VX or VI (R294). -/
def voperand (v : VFile) (g : Nat → W32) (w x src i : Nat) : Nat :=
  if src == 0 then velem v x w i
  else if src == 1 then (if w == 64 then (g x).toNat + (g (x + 1)).toNat * 2 ^ 32 else (g x).toNat % 2 ^ w)
  else toN w (sgn 5 x)

/-- Run a legal VA word over elements vpos to vl - 1 (R297, R298). -/
def vaRun (sh : Shape) (rm : Nat) (g : Nat → W32) (v : VFile) (vpos vl : Nat) (major vd x vs2 : Nat) (vm : Bool)
    (src func : Nat) : VRes :=
  let w := sh.sew
  let els := (List.range vl).drop vpos
  let act := els.filter fun i => vm || vmask v 0 i
  let opnd := voperand v g w x src
  if els.isEmpty then { v := v }
  else if vaCompare major func then
    act.foldl (fun r i =>
      let a := velem v vs2 w i
      let c := if major == 0x31 then (vcOp (func - 18) w a (opnd i), 0)
        else let q := fcompare (ffmtOf w) (func - 6) a (opnd i); (q.1 == 1, q.2)
      { r with v := vput r.v vd 1 i (bit c.1), flags := r.flags ||| c.2 }) { v := v }
  else if major == 0x31 then
    let es := if func == 17 then els else act
    es.foldl (fun r i => { r with v := vput r.v vd w i (viOp func w (velem v vs2 w i) (opnd i) (velem v vd w i) (vmask v 0 i)) }) { v := v }
  else if major == 0x32 then
    act.foldl (fun r i =>
      let a := if func == 11 || func == 12 then velem v vs2 (2 * w) i else velem v vs2 w i
      let q := vqOp func w sh.frnd a (opnd i) (velem v vd w i)
      { r with v := vput r.v vd w i q.1, flags := r.flags ||| q.2 }) { v := v }
  else if major == 0x33 then
    act.foldl (fun r i =>
      let q := vfOp func w rm (velem v vs2 w i) (opnd i) (velem v vd w i)
      { r with v := vput r.v vd w i q.1, flags := r.flags ||| q.2 }) { v := v }
  else if major == 0x34 then
    act.foldl (fun r i =>
      if func ≤ 4 then
        { r with v := vput r.v vd (2 * w) i (vwOp func w (velem v vs2 w i) (opnd i) (velem v vd (2 * w) i)) }
      else
        let a := velem v vs2 (2 * w) i
        let k := min (opnd i) (2 * w)
        { r with v := vput r.v vd w i (toN w (if func == 5 then ((a / 2 ^ k : Nat) : Int) else sgn (2 * w) a / 2 ^ k)) })
      { v := v }
  else match func with
    | 0 => { v := vput v vd w 0 (act.foldl (fun s i => s + velem v vs2 w i) (velem v x w 0)) }
    | 1 => { v := vput v vd w 0 (act.foldl (fun s i => viOp 9 w s (velem v vs2 w i) 0 false) (velem v x w 0)) }
    | 2 => { v := vput v vd w 0 (act.foldl (fun s i => viOp 10 w s (velem v vs2 w i) 0 false) (velem v x w 0)) }
    | 3 =>
      let t := treeSum (ffmtOf w) rm 12 (act.map fun i => velem v vs2 w i)
      match t.1 with
      | none => { v := vput v vd w 0 (velem v x w 0) }
      | some s =>
        let q := fadd (ffmtOf w) rm s (velem v x w 0)
        { v := vput v vd w 0 q.1, flags := t.2 ||| q.2 }
    | 4 => act.foldl (fun r i =>
        if opnd i ≤ i && i - opnd i < sh.vlmax then { r with v := vput r.v vd w i (velem v vs2 w (i - opnd i)) }
        else r) { v := v }
    | 5 => act.foldl (fun r i => { r with v := vput r.v vd w i (if i + opnd i < sh.vlmax then velem v vs2 w (i + opnd i) else 0) }) { v := v }
    | 6 => act.foldl (fun r i => { r with v := vput r.v vd w i (if opnd i < sh.vlmax then velem v vs2 w (opnd i) else 0) }) { v := v }
    | 7 =>
      let src := els.filter fun i => vmask v x i
      (src.foldl (fun (p : VRes × Nat) i =>
        ({ p.1 with v := vput p.1.v vd w p.2 (velem v vs2 w i) }, p.2 + 1)) ({ v := v }, 0)).1
    | 8 =>
      if !act.contains 0 then { v := v } else
      let e := toN 64 (sgn w (velem v vs2 w 0))
      { v := v, writes := if w == 64 then [(vd, w32 e), (vd + 1, w32 (e / 2 ^ 32))] else [(vd, w32 e)] }
    | _ =>
      if !act.contains 0 then { v := v }
      else { v := vput v vd w 0 (if w == 64 then (g x).toNat + (g (x + 1)).toNat * 2 ^ 32 else (g x).toNat % 2 ^ w) }

end Sys2Proof.Machine
end

