-- ==== Sys2Proof/Machine/StreamOps.lean ====
section
/-! DEFINITION. What a chord computes (R316 to R334): descriptors, their checks, the element operations, and the writes
of the last operation. Memory is read through a function, which answers bytes or a status code. -/
namespace Sys2Proof.Machine

/-! ### Engine-local regions (R59, R204, R550) -/

/-- Where an engine-local address falls. -/
inductive Region where
  | lsp (off : Nat) | rom (off : Nat) | csm (off : Nat) | courseWin (off : Nat) | csmOf (course off : Nat)
  | regWin (off : Nat) | remote (w off : Nat) | dram (off : Nat) | unmapped
deriving DecidableEq, Repr

def regionOf (remap : Bool) (a : Nat) : Region :=
  if a < 0x10000 then (if remap then .rom a else .lsp a)
  else if a < 0x40000 then .lsp a
  else if inRange a 0x08000000 0x08010000 then
    (if remap then .lsp (a - 0x08000000) else .rom (a - 0x08000000))
  else if inRange a 0x0C000000 0x0C100000 then .courseWin (a - 0x0C000000)
  else if inRange a 0x10000000 0x10400000 then .csm (a - 0x10000000)
  else if inRange a 0x20000000 0x24000000 then .csmOf ((a - 0x20000000) / 0x400000) (a % 0x400000)
  else if inRange a 0x40000000 0x44000000 then .regWin (a - 0x40000000)
  else if inRange a 0x60000000 0x80000000 then .remote ((a - 0x60000000) / 0x2000000) (a % 0x2000000)
  else if inRange a 0x80000000 0x100000000 then .dram (a - 0x80000000)
  else .unmapped

/-- The contiguous run of one region that holds an address, as low and high ends; none for refused windows (R319). -/
def regionSpan (remap : Bool) (dest : Bool) (a : Nat) : Option (Nat × Nat) :=
  match regionOf remap a with
  | .lsp _ =>
    if a < 0x40000 then some (if remap then 0x10000 else 0, 0x40000) else some (0x08000000, 0x08010000)
  | .rom _ => if dest then none else if a < 0x10000 then some (0, 0x10000) else some (0x08000000, 0x08010000)
  | .csm _ => some (0x10000000, 0x10400000)
  | .dram _ => some (0x80000000, 0x100000000)
  | _ => none

/-! ### Descriptors (R316 to R318) -/

/-- A stream specification with its controls. -/
structure Lane where
  ty    : Nat
  base  : Nat
  step  : Nat
  tbase : Nat
  ts    : Bool
  idx   : Bool
  chn   : Bool
deriving DecidableEq, Repr

structure Desc where
  op      : Nat
  irq     : Bool
  link    : Bool
  rm      : Nat
  tsel    : Nat
  polpost : Bool
  pol     : Bool
  flg     : Bool
  len     : Nat
  param   : Nat
  flgbase : Nat
  s0      : Lane
  s1      : Lane
  s2      : Lane
  d       : Lane
  rsvd    : Bool
deriving DecidableEq, Repr

def descWord (bs : List Byte) (i : Nat) : Nat := leNat ((bs.drop (4 * i)).take 4)

def laneAt (bs : List Byte) (ty ctl w : Nat) : Lane :=
  { ty, base := descWord bs w, step := descWord bs (w + 1), tbase := descWord bs (w + 2),
    ts := bitsAt ctl 0 1 == 1, idx := bitsAt ctl 1 1 == 1, chn := bitsAt ctl 2 1 == 1 }

def parseDesc (bs : List Byte) : Desc :=
  let w0 := descWord bs 0
  let w1 := descWord bs 1
  let w3 := descWord bs 3
  { op := bitsAt w0 0 8, irq := bitsAt w0 31 1 == 1, link := bitsAt w0 30 1 == 1, rm := bitsAt w0 27 3,
    tsel := bitsAt w0 24 3, polpost := bitsAt w1 26 1 == 1, pol := bitsAt w1 25 1 == 1,
    flg := bitsAt w1 24 1 == 1, len := bitsAt w1 0 24, param := descWord bs 2, flgbase := bitsAt w3 16 16,
    s0 := laneAt bs (bitsAt w0 8 4) (bitsAt w3 0 4) 4, s1 := laneAt bs (bitsAt w0 12 4) (bitsAt w3 4 4) 7,
    s2 := laneAt bs (bitsAt w0 16 4) (bitsAt w3 8 4) 10, d := laneAt bs (bitsAt w0 20 4) (bitsAt w3 12 4) 13,
    rsvd := bitsAt w1 27 5 != 0 || bitsAt w3 3 1 != 0 || bitsAt w3 7 1 != 0 || bitsAt w3 11 1 != 0 ||
      bitsAt w3 15 1 != 0 }

/-- Size and alignment of an element type (R318). -/
def tySize (t : Nat) : Nat :=
  match t with
  | 1 | 2 => 1 | 3 | 4 => 2 | 5 | 6 => 4 | 7 => 8 | 8 => 4 | 9 => 8 | 10 => 8 | 11 => 12 | 12 | 13 => 16 | 14 => 32
  | 15 => 8 | _ => 0
def tyAlign (t : Nat) : Nat :=
  match t with
  | 3 | 4 => 2 | 5 | 6 => 4 | 7 => 8 | 8 => 4 | 9 => 8 | 10 => 8 | 11 | 12 | 13 => 4 | 14 => 8 | 15 => 4 | _ => 1
def tyInt (t : Nat) : Bool := inRange t 1 8
def tyFloat (t : Nat) : Bool := t == 8 || t == 9
def tySigned (t : Nat) : Bool := t == 2 || t == 4 || t == 6 || t == 7
def tyBits (t : Nat) : Nat := 8 * tySize t
/-- The value of an integer element. -/
def tyVal (t n : Nat) : Int := if tySigned t then sgn (tyBits t) n else n
def tyLo (t : Nat) : Int := if tySigned t then -2 ^ (tyBits t - 1) else 0
def tyHi (t : Nat) : Int := if tySigned t then 2 ^ (tyBits t - 1) - 1 else 2 ^ tyBits t - 1

/-- The pipeline stage of an opcode: 0 F, 1 I, 2 P, 3 TB, 4 TI, 5 TX; none where the opcode is reserved (R325). -/
def opStage (op : Nat) : Option Nat :=
  if inRange op 0x01 0x08 then some 0
  else if inRange op 0x10 0x1A then some 1
  else if inRange op 0x20 0x23 then some 2
  else if op == 0x30 || op == 0x31 then some 3
  else if op == 0x32 || op == 0x33 then some 4
  else if op == 0x34 then some 5
  else none

/-- Elements an operation produces (R326, R333). -/
def produces (d : Desc) : Nat := if d.op == 0x30 then d.len + bitsAt d.param 0 24 else d.len

/-- A lane is present with data, or is time-only (R318). -/
def Lane.absent (l : Lane) : Bool := l.ty == 0 && !l.ts && !l.chn

/-- Does a stream carry a time: a chained one carries its producer's (R323)? -/
def Lane.timed (l : Lane) (ct : Bool) : Bool := if l.chn then ct else l.ts

/-- Types an opcode permits (R325); `ct` whether the chained source carries a time. A chained source an operation has no use
for is left to the chain's own check. -/
def typesOk (d : Desc) (ct : Bool) : Bool :=
  let a := d.s0.ty
  let b := d.s1.ty
  let c := d.s2.ty
  let r := d.d.ty
  let no1 := b == 0 && !d.s1.ts
  let no2 := c == 0 && !d.s2.ts
  let fp := a == 8 || a == 9 || a == 11 || a == 12 || a == 13
  if d.op == 4 then fp && b == a && c == a && r == a
  else if inRange d.op 1 7 then fp && b == a && no2 && r == a
  else if d.op == 7 then (tyInt a || tyFloat a) && (tyInt r || tyFloat r) && no1 && no2
  else if inRange d.op 0x10 0x16 then (tyInt a || a == 10) && b == a && r == a && no2
  else if d.op == 0x16 || d.op == 0x17 then tyInt a && b == a && r == a && no2
  else if d.op == 0x18 then tySigned a && b == a && tySigned r && tySize r ≤ tySize a && no2
  else if d.op == 0x19 then tyInt a && tyInt r && no1 && no2
  else if d.op == 0x20 then a != 0 && r == a && no1 && no2
  else if d.op == 0x21 then (tyInt a || a == 10) && r == 1 && no1 && no2
  else if d.op == 0x22 then a == 1 && (tyInt r || r == 10) && no1 && no2
  else if d.op == 0x30 then b == a && r == a && d.s0.timed ct && d.s1.timed ct && (d.d.ts || d.d.chn) && no2
  else if d.op == 0x31 then d.s0.timed ct && d.s1.timed ct && r == 15 && no2
  else if d.op == 0x32 then a == 15 && (b == 8 || b == 9 || b == 11) && r == b && no2
  else if d.op == 0x33 then a == 15 && (b == 12 || b == 14) && r == b && no2
  else if d.op == 0x34 then (a == 13 || a == 11) && r == a && b == 14 && (c == 14 || d.s2.absent)
  else false

/-- Does an operation read source k (R325)? -/
def usesSrc (d : Desc) (k : Nat) : Bool :=
  match k with
  | 0 => true
  | 1 => !(d.op == 7 || inRange d.op 0x19 0x23)
  | _ => d.op == 4 || d.op == 0x34

/-- The param's range (R325, R326). -/
def paramOk (d : Desc) : Bool :=
  if d.op == 0x18 then d.param < 256
  else if d.op == 0x21 || d.op == 0x22 then inRange d.param 1 4097
  else if d.op == 0x30 then d.param < 2 ^ 24 && d.len + d.param ≤ 16777215
  else if inRange d.op 0x31 0x34 then d.param < 2 ^ 24
  else d.param == 0

/-- A stream of type NONE keeps base and step 0, and tbase 0 without a time lane; a chained source is all 0 (R317). -/
def laneZero (l : Lane) (isD : Bool) : Bool :=
  (if l.ty == 0 then l.base == 0 && l.step == 0 && (l.ts || l.tbase == 0) && (!l.idx) else true) &&
  (if l.chn && !isD then l.base == 0 && l.step == 0 && l.tbase == 0 && !l.idx else true)

/-- Does the output carry a time: the source tsel names has one (R323); `ct` says the chained source has. -/
def hasTime (d : Desc) (ct : Bool) : Bool :=
  let t := fun (l : Lane) => l.timed ct
  match d.tsel with
  | 0 => if d.op == 0x30 then true else t d.s0
  | 1 => t d.s1
  | 2 => t d.s2
  | _ => t d.s0 || t d.s1 || t d.s2

/-- DESC_FIELD for one operation of a chord (R320): `ct` whether its chained source carries a time. -/
def fieldBad (d : Desc) (first last ct : Bool) : Bool :=
  (opStage d.op).isNone || d.rsvd || 5 ≤ d.rm || 5 ≤ d.tsel || (d.op == 0x30 && d.tsel != 0) || !typesOk d ct ||
  !paramOk d || (d.d.ts && !hasTime d ct) || (!d.d.chn && d.d.step == 0 && !d.d.idx) || (d.flg && !last) ||
  (d.irq && !first) || !laneZero d.s0 false || !laneZero d.s1 false || !laneZero d.s2 false || !laneZero d.d true

/-- DESC_CHAIN (R333): the first operation that breaks it. -/
def chainBad : List Desc → Nat → Option Desc → List Nat → Option Nat
  | [], _, _, _ => none
  | d :: ds, i, prev, stages =>
    let st := (opStage d.op).getD 9
    let ins := [d.s0, d.s1, d.s2].filter (·.chn)
    let last := ds.isEmpty
    if stages.contains st || (d.d.chn != !last) || (d.s1.chn && !usesSrc d 1) || (d.s2.chn && !usesSrc d 2) ||
      (match prev with
       | none => !ins.isEmpty
       | some p => match ins with
         | [l] => l.ty != p.d.ty || d.len != produces p
         | _ => true) ||
      ((d.op == 0x21 || d.op == 0x22) && !last) || (last && d.link) then some i
    else chainBad ds (i + 1) (some d) (st :: stages)

/-- The lane of a packed stream: its step is a capacity in bytes (R317, R331). -/
def packsD (d : Desc) : Bool := d.op == 0x21
def packsS0 (d : Desc) : Bool := d.op == 0x22

/-- The alignment of a stream's lanes, indexed ones too (R319). -/
def laneAligned (l : Lane) (n : Nat) (pack : Bool) : Bool :=
  l.chn || n == 0 || pack ||
  ((l.ty == 0 || (l.base % tyAlign l.ty == 0 && (if l.idx then l.step % 4 == 0 else sgn 32 l.step % tyAlign l.ty == 0))) &&
   (!l.ts || l.tbase % 8 == 0))

/-- The address lanes of a stream as (address of element 0, step, size, count): data, time, index. -/
def laneSpans (l : Lane) (n : Nat) (pack : Bool) : List (Nat × Int × Nat × Nat) :=
  if l.chn || n == 0 then []
  else
    let sz := tySize l.ty
    let st := sgn 32 l.step
    (if l.ty == 0 then [] else if pack then [(l.base, 1, 1, l.step)]
     else if l.idx then [(l.step, 4, 4, n)] else [(l.base, st, sz, if st == 0 then 1 else n)]) ++
    (if l.ts && !l.idx && !pack then [(l.tbase, if st == 0 && l.ty != 0 then 0 else 8, 8,
      if st == 0 && l.ty != 0 then 1 else n)] else [])

/-- Elements of each source: S1 of the time-keyed operations has n1 (R326 to R328). -/
def srcCount (d : Desc) (k : Nat) : Nat :=
  if k == 1 && inRange d.op 0x30 0x34 then bitsAt d.param 0 24 else d.len

def sourceSpans (d : Desc) : List (Nat × Int × Nat × Nat) :=
  laneSpans d.s0 (srcCount d 0) (packsS0 d) ++ laneSpans d.s1 (srcCount d 1) false ++
  laneSpans d.s2 d.len false
def destSpans (d : Desc) : List (Nat × Int × Nat × Nat) :=
  let data := laneSpans d.d (produces d) (packsD d)
  (if d.d.idx && !packsD d then [] else data) ++
  (if d.flg then [(4 * d.flgbase, 1, 1, produces d)] else [])
/-- The index lane of an indexed destination is a source. -/
def destIndexSpans (d : Desc) : List (Nat × Int × Nat × Nat) :=
  if d.d.idx && !packsD d then laneSpans d.d (produces d) false else []

def descAligned (d : Desc) : Bool :=
  laneAligned d.s0 (srcCount d 0) (packsS0 d) && laneAligned d.s1 (srcCount d 1) false && laneAligned d.s2 d.len false &&
  laneAligned d.d (produces d) (packsD d)

/-- Lowest and one past highest byte of a span. -/
def spanRange (x : Nat × Int × Nat × Nat) : Int × Int :=
  let (b, st, sz, n) := x
  let e : Int := b + st * (n - 1)
  (min (b : Int) e, max (b : Int) e + sz)

def spanRegionOk (remap dest : Bool) (x : Nat × Int × Nat × Nat) : Bool :=
  let (lo, hi) := spanRange x
  if x.2.2.2 == 0 then true
  else if lo < 0 then false
  else match regionSpan remap dest lo.toNat with
    | none => false
    | some (l, h) => (l : Int) ≤ lo && hi ≤ h

/-- Do two spans share a byte? For each element of the first, the elements of the second near it are tested: those that start
less than the 32 bytes of the largest type away. -/
def spansMeet (x y : Nat × Int × Nat × Nat) : Bool :=
  let (bx, sx, zx, nx) := x
  let (bY, sy, zy, ny) := y
  (List.range nx).any fun i =>
    let a : Int := bx + sx * i
    let hit := fun (j : Int) => 0 ≤ j && j < ny && a < bY + sy * j + zy && bY + sy * j < a + zx
    if sy == 0 then hit 0
    else
      let q := (a - bY) / sy
      (List.range 67).any fun k => hit (q - 33 + k)

def spanSame (x y : Nat × Int × Nat × Nat) : Bool := x.1 == y.1 && x.2.1 == y.2.1 && x.2.2.1 == y.2.2.1

/-- All pairs of distinct positions of a list. -/
def pairsAny {α : Type} (r : α → α → Bool) : List α → Bool
  | [] => false
  | x :: xs => xs.any (r x) || pairsAny r xs

/-- Is the chord staged: a destination lane coincides with a source lane, in restart mode (R356)? -/
def chordInPlace (ds : List Desc) : Bool :=
  match ds.getLast? with
  | none => false
  | some l => (destSpans l).any fun x => (ds.flatMap sourceSpans).any fun y => spanSame x y

/-- Bytes of the destination lanes of a staged chord, as R339 counts them: a strided or indexed lane counts 32 for an element
(R356); a packed lane counts its capacity. -/
def stagedBytes (ds : List Desc) : Nat :=
  match ds.getLast? with
  | none => 0
  | some l =>
    let n := produces l
    let each := if l.d.idx || sgn 32 l.d.step != (tySize l.d.ty : Int) then 32 else tySize l.d.ty
    (if l.d.ty == 0 then 0 else if packsD l then l.d.step else n * each) +
      (if l.d.ts && !packsD l then n * (if l.d.idx then 32 else 8) else 0) + (if l.flg then n else 0)

/-- The regions of a descriptor's lanes (R319), its destination's where it is the last. -/
def regionsOk (remap last : Bool) (d : Desc) : Bool :=
  (sourceSpans d).all (spanRegionOk remap false) &&
  (!last || ((destIndexSpans d).all (spanRegionOk remap false) && (destSpans d).all (spanRegionOk remap true) &&
    (!d.flg || produces d == 0 || (match regionOf remap (4 * d.flgbase) with | .lsp _ => true | _ => false))))

/-- The start check of a chord (R320), in the order of its table: the sub code and the first descriptor that fails, an
overlap being that of the last; none where it passes (log 159). The descriptors are those read at the address; `inLsp` says
that all of them lie in LSP. -/
def checkChord (remap restart aligned inLsp : Bool) (ds : List Desc) : Option (Nat × Nat) :=
  let n := ds.length
  let times := ds.foldl (fun (acc : List Bool × Bool) d => (acc.1 ++ [acc.2], hasTime d acc.2)) ([], false)
  let at' := (List.range n).zip (ds.zip times.1)
  let first := fun (sub : Nat) (bad : Nat × Desc × Bool → Bool) => (at'.find? bad).map fun x => (sub, x.1)
  if !aligned then some (1, 0)
  else if !inLsp then some (1, n)
  else (first 2 fun x => fieldBad x.2.1 (x.1 == 0) (x.1 + 1 == n) x.2.2).orElse fun _ =>
    ((chainBad ds 0 none []).map fun k => (3, k)).orElse fun _ =>
    if ds.all fun d => produces d == 0 then none
    else (first 4 fun x => !regionsOk remap (x.1 + 1 == n) x.2.1).orElse fun _ =>
      (first 5 fun x => !descAligned x.2.1).orElse fun _ =>
      let srcs := ds.flatMap sourceSpans
      let dsts := match ds.getLast? with | some l => destSpans l | none => []
      if dsts.any (fun x => srcs.any fun y => spansMeet x y && !spanSame x y) || pairsAny spansMeet dsts ||
          (restart && chordInPlace ds && 8192 < stagedBytes ds) then some (6, n - 1)
      else none

/-! ### Elements -/

/-- An element produced: its bytes as a number, its time, its flag byte and its IEEE and saturation flags. -/
structure OutEl where
  val  : Nat
  time : Option Nat
  fl   : Nat := 0
  fp   : Nat := 0
deriving DecidableEq, Repr

/-- What an operation produced, and the status that stopped it. -/
structure OpOut where
  els  : List OutEl := []
  stop : Option Nat := none
deriving DecidableEq, Repr

/-- What a chord reads through: memory by engine-local address, and the remap bit for region checks. -/
structure StreamCtx where
  rd    : Nat → Nat → Except Nat (List Byte)
  remap : Bool

/-- Flags and times of elements together: all flag bytes, all IEEE and saturation flags. -/
def flOf (l : List OutEl) : Nat := l.foldl (fun f e => f ||| e.fl) 0
def fpOf (l : List OutEl) : Nat := l.foldl (fun f e => f ||| e.fp) 0

/-- An address of an indexed lane stays in the regions of R319 (R321). -/
def idxOk (remap dest : Bool) (a sz : Nat) : Bool :=
  match regionSpan remap dest a with
  | none => false
  | some (l, h) => l ≤ a && a + sz ≤ h

/-- Read element i of a source lane: value and time. -/
def srcEl (c : StreamCtx) (l : Lane) (chain : List OutEl) (i : Nat) : Except Nat OutEl := do
  if l.chn then
    match chain[i]? with
    | some e => return e
    | none => throw 0
  else
    let sz := tySize l.ty
    let st := sgn 32 l.step
    let ix ← if l.idx then do
        let bs ← c.rd (l.step + 4 * i) 4
        pure (leNat bs)
      else pure (if st == 0 && l.ty != 0 then 0 else i)
    let a : Nat := if l.idx then l.base + ix * sz else ((l.base : Int) + st * ix).toNat
    if l.idx && l.ty != 0 && !idxOk c.remap false a sz then throw 2
    let v ← if l.ty == 0 then pure 0 else do
      let bs ← c.rd a sz
      pure (leNat bs)
    let t ← if l.ts then do
        if l.idx && !idxOk c.remap false (l.tbase + 8 * ix) 8 then throw 2
        let bs ← c.rd (l.tbase + 8 * ix) 8
        pure (some (leNat bs))
      else pure none
    return { val := v, time := t }

/-- LATEST or EARLIEST of times (R323). -/
def bestTime (latest : Bool) (ts : List (Option Nat)) : Option Nat :=
  (ts.filterMap id).foldl (fun m x => some (match m with | none => x | some y => if latest then max x y else min x y)) none

/-- Times of R323. -/
def outTime (tsel : Nat) (a b c : Option Nat) : Option Nat :=
  match tsel with
  | 0 => a
  | 1 => b
  | 2 => c
  | t => bestTime (t == 3) [a, b, c]

/-- Times of R323 where S1 is a table of samples: those element i is formed from stand for its S1, the earlier for tsel 1;
where there is none the spec states no time, and it is a free value (log 157). -/
def tableTime (d : Desc) (i : Nat) (q : Option Nat) (samples : List OutEl) : Option Nat :=
  match d.tsel with
  | 0 => q
  | 1 => match samples with
    | e :: _ => e.time
    | [] => if d.s1.ts then some (Config.sampleTime i).toNat else none
  | 2 => none
  | t => bestTime (t == 3) (q :: samples.map (·.time))

/-- Run element by element until one stops. -/
def runEls (f : Nat → Except Nat OutEl) : List Nat → OpOut
  | [] => {}
  | i :: is =>
    match f i with
    | .error k => { stop := some k }
    | .ok e =>
      let r := runEls f is
      { r with els := e :: r.els }

/-- Component k of a compound of F32. -/
def comp (x k : Nat) : Nat := bitsAt x (32 * k) 32
def ofComps : List Nat → Nat
  | [] => 0
  | c :: cs => c + 2 ^ 32 * ofComps cs

/-- A floating-point operation on one element, compound types per component (R325). -/
def fpEl (op rm ty a b c : Nat) : Nat × Nat :=
  let fn := match op with | 1 => 0 | 2 => 1 | 3 => 2 | 4 => 3 | 5 => 4 | _ => 5
  if ty == 9 then fpOp fn true rm a b c
  else
    let n := tySize ty / 4
    let rs := (List.range n).map fun k => fpOp fn false rm (comp a k) (comp b k) (comp c k)
    (ofComps (rs.map (·.1)), rs.foldl (fun f r => f ||| r.2) 0)

/-- FCVT over every integer width and both formats (R325). -/
def cvtEl (rm ta td a : Nat) : Nat × Nat :=
  if tyFloat ta then
    let f := if ta == 9 then f64 else f32
    if tyFloat td then (if ta == td then (a, 0) else fconv f (if td == 9 then f64 else f32) rm a)
    else
      let r := fsatInt f rm (tyLo td) (tyHi td) a
      (toN (tyBits td) r.1, r.2)
  else if tyFloat td then fofInt (if td == 9 then f64 else f32) rm (tyVal ta a)
  else
    let r := sat (tyLo td) (tyHi td) (tyVal ta a)
    (toN (tyBits td) r.1, r.2)

/-- Integer operations (R325). -/
def intEl (op param ta td a b : Nat) : Nat × Nat :=
  let w := tyBits ta
  let x := tyVal ta a
  let y := tyVal ta b
  let clip := fun (v : Int) =>
    let r := sat (tyLo td) (tyHi td) v
    (toN (tyBits td) r.1, r.2)
  match op with
  | 0x10 => ((a + b) % 2 ^ w, 0)
  | 0x11 => (toN w ((a : Int) - b), 0)
  | 0x12 => (a * b % 2 ^ w, 0)
  | 0x13 => (a &&& b, 0)
  | 0x14 => (a ||| b, 0)
  | 0x15 => (a ^^^ b, 0)
  | 0x16 => clip (x + y)
  | 0x17 => clip (x - y)
  | 0x18 => clip (roundShift (bitsAt param 6 2) (x * y) (bitsAt param 0 6))
  | _ => clip x

/-- The flag byte a set of IEEE and saturation flags gives an element (R324). -/
def flByte (fp : Nat) : Nat := 8 * bitsAt fp 5 1 + 16 * bitsAt fp 4 1

/-- Interpolate one component: w = 0 gives a exactly (R328). -/
def lerp (dbl : Bool) (rm w a b : Nat) : Nat × Nat :=
  let f := if dbl then f64 else f32
  if w % 2 ^ 31 == 0 then (a, 0)
  else
    let d := fsub f rm b a
    let r := fma f rm (if dbl then (fconv f32 f64 0 w).1 else w) d.1 a
    (r.1, d.2 ||| r.2)

/-- dot of two quaternions, in the order of R329. -/
def dot4 (rm a b : Nat) : Nat × Nat :=
  (List.range 3).foldl (fun (s : Nat × Nat) k =>
    let r := fma f32 rm (comp a (k + 1)) (comp b (k + 1)) s.1
    (r.1, s.2 ||| r.2)) (fmul f32 rm (comp a 0) (comp b 0))

/-- The normalised interpolation of a quaternion (R329). -/
def nlerpQ (rm w a b : Nat) : Nat × Nat :=
  let d := if w % 2 ^ 31 == 0 then (0, 0) else dot4 rm a b
  let pos := !fisNan f32 d.1 && (!fsign f32 d.1 || d.1 % 2 ^ 31 == 0)
  let b2 := if pos then b else ofComps ((List.range 4).map fun k => fneg f32 (comp b k))
  let ms := (List.range 4).map fun k => lerp false rm w (comp a k) (comp b2 k)
  let m := ofComps (ms.map (·.1))
  let mm := dot4 rm m m
  let fl := ms.foldl (fun f r => f ||| r.2) (d.2 ||| mm.2)
  if mm.1 % 2 ^ 31 == 0 then (ofComps (List.replicate 4 f32.nan), fl ||| 16)
  else
    let q := fsqrt f32 rm mm.1
    let rs := (List.range 4).map fun k => fdiv f32 rm (comp m k) q.1
    (ofComps (rs.map (·.1)), rs.foldl (fun f r => f ||| r.2) (fl ||| q.2))

/-- The default NaN in every component of a type; POSE's padding stays 0 (R328, R318). -/
def nanEl (ty : Nat) : Nat :=
  if ty == 9 then f64.nan
  else if ty == 14 then ofComps (List.replicate 7 f32.nan)
  else ofComps (List.replicate (tySize ty / 4) f32.nan)

/-- What TINTERP and TNLERP make of a bracket: value, IEEE flags, the samples it is computed from, and those that give its
time. -/
structure Interp where
  val     : Nat
  fp      : Nat := 0
  samples : List OutEl := []
  timed   : List OutEl := []
deriving DecidableEq, Repr

/-- TINTERP and TNLERP of one element: the bracket word pair, a reader of S1's elements (R328, R329). A flagged element that
is not substituted holds a, whatever w. -/
def interpEl (d : Desc) (brk : Nat) (s1 : Nat → Except Nat OutEl) : Except Nat Interp := do
  let jw := bitsAt brk 0 32
  let j := bitsAt jw 0 30
  let noprior := bitsAt jw 31 1 == 1
  let nopost := bitsAt jw 30 1 == 1
  let w := bitsAt brk 32 32
  let n1 := bitsAt d.param 0 24
  let ty := d.d.ty
  if (noprior && (d.pol || n1 == 0)) || (nopost && d.polpost) then
    let timed ← if d.tsel != 0 && j < n1 then do
        let a ← s1 j
        pure [a]
      else pure []
    return { val := nanEl ty, timed := timed }
  if n1 ≤ j || (w % 2 ^ 31 != 0 && n1 ≤ j + 1) then throw 2
  let a ← s1 j
  if noprior || nopost then return { val := a.val, samples := [a], timed := [a] }
  let ab ← if w % 2 ^ 31 == 0 then pure [a] else do
      let b ← s1 (j + 1)
      pure [a, b]
  let b := ab.getLastD a
  if d.op == 0x33 then
    let q := nlerpQ d.rm w (a.val % 2 ^ 128) (b.val % 2 ^ 128)
    if ty == 12 then return { val := q.1, fp := q.2, samples := ab, timed := ab }
    let tr := (List.range 3).map fun k => lerp false d.rm w (comp a.val (4 + k)) (comp b.val (4 + k))
    return { val := q.1 + 2 ^ 128 * ofComps (tr.map (·.1)), fp := tr.foldl (fun f r => f ||| r.2) q.2, samples := ab, timed := ab }
  else if ty == 9 then
    let r := lerp true d.rm w a.val b.val
    return { val := r.1, fp := r.2, samples := ab, timed := ab }
  else
    let rs := (List.range (tySize ty / 4)).map fun k => lerp false d.rm w (comp a.val k) (comp b.val k)
    return { val := ofComps (rs.map (·.1)), fp := rs.foldl (fun f r => f ||| r.2) 0, samples := ab, timed := ab }

/-! The vector steps of R330, each with the flags gathered so far. -/

def map3 (f : Nat → Nat × Nat) (fl : Nat) : Nat × Nat :=
  let rs := (List.range 3).map f
  (ofComps (rs.map (·.1)), rs.foldl (fun a r => a ||| r.2) fl)
/-- u x v, each component fma(a, b, -(c d)). -/
def crossSub (rm u v fl : Nat) : Nat × Nat :=
  map3 (fun k =>
    let i := (k + 1) % 3
    let j := (k + 2) % 3
    let p := fmul f32 rm (comp u j) (comp v i)
    let r := fma f32 rm (comp u i) (comp v j) (if fisNan f32 p.1 then p.1 else fneg f32 p.1)
    (r.1, p.2 ||| r.2)) fl
def rot (rm q v fl : Nat) : Nat × Nat :=
  let c := crossSub rm q v fl
  let t := map3 (fun k => fmul f32 rm 0x40000000 (comp c.1 k)) c.2
  let r := map3 (fun k => fma f32 rm (comp q 3) (comp t.1 k) (comp v k)) t.2
  let x := crossSub rm q t.1 r.2
  map3 (fun k => fadd f32 rm (comp r.1 k) (comp x.1 k)) x.2

/-- TDESKEW of one point (R330). -/
def deskewEl (rm p pose1 : Nat) (ref : Option Nat) : Nat × Nat :=
  let r := rot rm (pose1 % 2 ^ 128) p 0
  let d := map3 (fun k => fadd f32 rm (comp r.1 k) (comp pose1 (4 + k))) r.2
  let e := match ref with
    | none => d
    | some p2 =>
      let q := ofComps [fneg f32 (comp p2 0), fneg f32 (comp p2 1), fneg f32 (comp p2 2), comp p2 3]
      let m := map3 (fun k => fsub f32 rm (comp d.1 k) (comp p2 (4 + k))) d.2
      rot rm q m.1 m.2
  (e.1 + 2 ^ 96 * comp p 3, e.2)

/-- One element of an operation that works element by element. -/
def elementOf (c : StreamCtx) (d : Desc) (chain : List OutEl) (i : Nat) : Except Nat OutEl := do
  let get := fun (l : Lane) => if l.absent then pure { val := 0, time := none } else srcEl c l chain i
  let a ← get d.s0
  if d.op == 0x32 || d.op == 0x33 then
    let r ← interpEl d a.val (fun j => srcEl c d.s1 chain j)
    return { val := r.val, time := tableTime d i a.time r.timed,
             fl := a.fl ||| bitsAt a.val 31 1 ||| 2 * bitsAt a.val 30 1 ||| flOf r.samples ||| flByte r.fp,
             fp := a.fp ||| fpOf r.samples ||| r.fp }
  let b ← get d.s1
  let e ← get d.s2
  let r :=
    if inRange d.op 1 7 then fpEl d.op d.rm d.s0.ty a.val b.val e.val
    else if d.op == 7 then cvtEl d.rm d.s0.ty d.d.ty a.val
    else if inRange d.op 0x10 0x1A then intEl d.op d.param d.s0.ty d.d.ty a.val b.val
    else if d.op == 0x34 then
      (let q := deskewEl d.rm a.val b.val (if d.s2.absent then none else some e.val)
       (q.1 % 2 ^ tyBits d.d.ty, q.2))
    else (a.val, 0)
  return { val := r.1, time := outTime d.tsel a.time b.time e.time,
           fl := a.fl ||| b.fl ||| e.fl ||| flByte r.2, fp := a.fp ||| b.fp ||| e.fp ||| r.2 }

/-- TMERGE's walk in time order; a decrease of either lane stops with ORDER (R326). -/
def mergeRun (c : StreamCtx) (d : Desc) (chain : List OutEl) (n n1 : Nat) :
    Nat → Nat → Nat → Nat → Nat → OpOut
  | 0, _, _, _, _ => {}
  | fuel + 1, i, j, ta, tb =>
    let a := if i < n then some (srcEl c d.s0 chain i) else none
    let b := if j < n1 then some (srcEl c d.s1 chain j) else none
    match a, b with
    | some (.error k), _ => { stop := some k }
    | _, some (.error k) => { stop := some k }
    | some (.ok x), b =>
      let tx := x.time.getD 0
      let takeA : Bool := match b with | some (.ok y) => decide (tx ≤ y.time.getD 0) | _ => true
      if tx < ta then { stop := some 5 }
      else if takeA then
        let r := mergeRun c d chain n n1 fuel (i + 1) j tx tb
        { r with els := x :: r.els }
      else match b with
        | some (.ok y) =>
          if y.time.getD 0 < tb then { stop := some 5 }
          else
            let r := mergeRun c d chain n n1 fuel i (j + 1) ta (y.time.getD 0)
            { r with els := { y with fl := y.fl ||| 4 } :: r.els }
        | _ => {}
    | none, some (.ok y) =>
      if y.time.getD 0 < tb then { stop := some 5 }
      else
        let r := mergeRun c d chain n n1 fuel i (j + 1) ta (y.time.getD 0)
        { r with els := { y with fl := y.fl ||| 4 } :: r.els }
    | none, none => {}

/-- Advance the bracket cursor while the next sample is not after q; a decrease stops with ORDER (R327). -/
def bracketWalk (t : Nat → Except Nat Nat) (n1 q : Nat) : Nat → Nat → Except Nat Nat
  | 0, j => .ok j
  | fuel + 1, j =>
    if n1 ≤ j + 1 then .ok j
    else do
      let a ← t j
      let b ← t (j + 1)
      if b < a then throw 5
      if b ≤ q then bracketWalk t n1 q fuel (j + 1) else return j

/-- The weight as an F32: the exact ratio rounded to nearest even (R327). The quotient is taken to 30 bits or more, and a bit
below them says whether a rest is left. -/
def ratioF32 (num den : Nat) : Nat × Nat :=
  let k := 30 + Nat.log2 den - Nat.log2 num
  let n := num * 2 ^ k
  fround f32 0 false (2 * (n / den) + bit (n % den != 0)) (-((k : Int) + 1))

/-- TBRACKET over the queries (R327). -/
def bracketRun (c : StreamCtx) (d : Desc) (chain : List OutEl) (n1 : Nat) :
    List Nat → Nat → Nat → OpOut
  | [], _, _ => {}
  | i :: is, j, lastQ =>
    let s1 := srcEl c d.s1 chain
    let t := fun k => (s1 k).map fun e => e.time.getD 0
    let step : Except Nat (OutEl × Nat × Nat) := do
      let a ← srcEl c d.s0 chain i
      let q := a.time.getD 0
      if q < lastQ then throw 5
      let mk := fun (jj w fl fp : Nat) (ss : List OutEl) =>
        ({ val := jj + 2 ^ 31 * bitsAt fl 0 1 + 2 ^ 30 * bitsAt fl 1 1 + 2 ^ 32 * w,
           time := tableTime d i a.time ss, fl := a.fl ||| flOf ss ||| fl, fp := a.fp ||| fpOf ss ||| fp : OutEl }, jj, q)
      if n1 == 0 then return mk 0 0 1 0 []
      let e0 ← s1 0
      if q < e0.time.getD 0 then return mk 0 0 1 0 [e0]
      let jj ← bracketWalk t n1 q n1 j
      let ej ← s1 jj
      let tj := ej.time.getD 0
      if jj + 1 == n1 then return (if q == tj then mk jj 0 0 0 [ej] else mk jj 0 2 0 [ej])
      let en ← s1 (jj + 1)
      let w := ratioF32 (q - tj) (en.time.getD 0 - tj)
      return mk jj w.1 0 w.2 [ej, en]
    match step with
    | .error k => { stop := some k }
    | .ok (e, j2, q2) =>
      let r := bracketRun c d chain n1 is j2 q2
      { r with els := e :: r.els }

/-- One operation of a chord, TPACK and TUNPACK excepted. -/
def runOp (c : StreamCtx) (d : Desc) (chain : List OutEl) : OpOut :=
  let n := d.len
  let n1 := bitsAt d.param 0 24
  if d.op == 0x30 then mergeRun c d chain n n1 (n + n1) 0 0 0 0
  else if d.op == 0x31 then bracketRun c d chain n1 (List.range n) 0 0
  else runEls (elementOf c d chain) (List.range n)

/-! ### TPACK and TUNPACK (R331) -/

/-- Zig-zag of a delta modulo 2^w, and back. -/
def zig (w prev x : Nat) : Nat :=
  let d := sgn w ((x + 2 ^ w - prev) % 2 ^ w)
  if 0 ≤ d then (2 * d).toNat else (-2 * d - 1).toNat
def unzig (w prev z : Nat) : Nat :=
  let d : Int := if z % 2 == 0 then (z / 2 : Nat) else -((z / 2 + 1 : Nat) : Int)
  toN w ((prev : Int) + d)

def zigs (w : Nat) : List Nat → List Nat
  | a :: b :: l => zig w a b :: zigs w (b :: l)
  | _ => []
/-- Field width of a block: 0, or one more than the highest set bit. -/
def fieldWidth (zs : List Nat) : Nat :=
  zs.foldl (fun m z => if z == 0 then m else max m (Nat.log2 z + 1)) 0
/-- Values packed least significant bit first. -/
def packBits (b : Nat) : List Nat → Nat
  | [] => 0
  | z :: zs => z + 2 ^ b * packBits b zs

/-- One packed block. -/
def packBlock (w : Nat) (times : Bool) (els : List OutEl) : List Byte :=
  let xs := els.map (·.val)
  let ts := els.map fun e => e.time.getD 0
  let zx := zigs w xs
  let zt := zigs 64 ts
  let bv := fieldWidth zx
  let bt := if times then fieldWidth zt else 0
  let c := els.length
  leBytes 1 bv ++ leBytes 1 bt ++ leBytes 2 c ++ leBytes (w / 8) (xs.headD 0) ++
  (if times then leBytes 8 (ts.headD 0) else []) ++
  leBytes (((c - 1) * bv + 7) / 8) (packBits bv zx) ++
  (if times then leBytes (((c - 1) * bt + 7) / 8) (packBits bt zt) else [])

/-- A packed block: where it begins, its bytes, its elements. -/
structure Packed where
  off   : Nat
  bytes : List Byte
  els   : List OutEl
deriving DecidableEq, Repr

/-- Pack block after block within the capacity; the answer is the blocks, and OVERFLOW. -/
def packRun (w : Nat) (times : Bool) (blk cap : Nat) : Nat → List OutEl → Nat → List Packed × Option Nat
  | 0, _, _ => ([], none)
  | _ + 1, [], _ => ([], none)
  | fuel + 1, els, off =>
    let b := packBlock w times (els.take blk)
    if cap < off + b.length then ([], some 6)
    else
      let r := packRun w times blk cap fuel (els.drop blk) (off + b.length)
      ({ off := off, bytes := b, els := els.take blk } :: r.1, r.2)

/-- Rebuild c values from the first and the packed deltas. -/
def unpackVals (w b : Nat) : Nat → Nat → Nat → List Nat
  | 0, _, _ => []
  | c + 1, prev, bits =>
    let x := unzig w prev (bits % 2 ^ b)
    x :: unpackVals w b c x (bits / 2 ^ b)

/-- Unpack blocks until `want` elements; FORMAT as R331 states. Answers the elements, the bytes consumed with each one's
block, and the status. A block whose bt is not 0 holds times whether D takes them or not (log 160). -/
def unpackRun (c : StreamCtx) (w : Nat) (times : Bool) (blk cap base : Nat) :
    Nat → Nat → Nat → List OutEl → List Nat → List OutEl × List Nat × Option Nat
  | 0, _, _, acc, ends => (acc, ends, none)
  | fuel + 1, want, off, acc, ends =>
    if want == 0 then (acc, ends, none)
    else
      let cnt := min blk want
      if cap < off + 4 then (acc, ends, some 7)
      else match c.rd (base + off) 4 with
        | .error k => (acc, ends, some k)
        | .ok h =>
          let bv := leNat (h.take 1)
          let bt := leNat ((h.drop 1).take 1)
          let n := leNat (h.drop 2)
          let held := times || bt != 0
          let hdrLen := 4 + w / 8 + (if held then 8 else 0)
          let lv := ((cnt - 1) * bv + 7) / 8
          let lt := if held then ((cnt - 1) * bt + 7) / 8 else 0
          if w < bv || 64 < bt || n != cnt || cap < off + hdrLen + lv + lt then (acc, ends, some 7)
          else match c.rd (base + off) (hdrLen + lv + lt) with
            | .error k => (acc, ends, some k)
            | .ok bs =>
              let x0 := leNat ((bs.drop 4).take (w / 8))
              let t0 := leNat ((bs.drop (4 + w / 8)).take 8)
              let xs := x0 :: unpackVals w bv (cnt - 1) x0 (leNat ((bs.drop hdrLen).take lv))
              let tm := t0 :: unpackVals 64 bt (cnt - 1) t0 (leNat ((bs.drop (hdrLen + lv)).take lt))
              let els := (xs.zip tm).map fun p =>
                ({ val := p.1, time := if times then some p.2 else none } : OutEl)
              let stop := off + hdrLen + lv + lt
              unpackRun c w times blk cap base fuel (want - cnt) stop (acc ++ els) (ends ++ List.replicate cnt stop)

/-! ### A whole chord -/

/-- One write of a lane: 3 data, 7 time, 11 flag, as LANE words number them (R344); its address and bytes. -/
structure LaneWrite where
  lane  : Nat
  addr  : Nat
  bytes : List Byte
deriving DecidableEq, Repr

/-- What running a chord from the start gives: the writes of the last operation by item, the elements an item holds, the
bytes packed or consumed with each item, the outputs of every operation, and the ending. -/
structure ChordRun where
  writes  : List (List LaneWrite) := []
  unit    : Nat := 1
  bytesAt : List Nat := []
  index   : Nat := 0
  code    : Nat := 0
  opx     : Nat := 0
  els     : List OutEl := []
  outs    : List (List OutEl) := []
  /-- Flags of the elements a chained S1 holds as a table (R322). -/
  side    : Nat := 0
deriving DecidableEq, Repr

/-- Items whole among the first `k` elements. -/
def ChordRun.items (r : ChordRun) (k : Nat) : Nat := if r.index ≤ k then r.writes.length else k / r.unit

/-- The operation that ends a chord: one whose chained input has run out is ended by its producer; any other stop lies at a
lower element than the stops before it (R334). -/
def nextStop (k : Nat) (own : Option Nat) (prev : Option (Nat × Nat)) : Option (Nat × Nat) :=
  match own with
  | none | some 0 => prev
  | some code => some (k, code)

/-- Flags of a chained S1 that an operation holds as a table. -/
def sideOf (d : Desc) (chain : List OutEl) : Nat := if d.s1.chn && inRange d.op 0x31 0x34 then fpOf chain else 0

/-- The operations before the last: their outputs, which one stopped, and the flags beside the elements. -/
structure ChainRun where
  outs : List (List OutEl) := []
  stop : Option (Nat × Nat) := none
  side : Nat := 0

/-- Operations up to the last, each fed by the one before. -/
def runChain (c : StreamCtx) : List Desc → Nat → List OutEl → ChainRun → ChainRun
  | [], _, _, r => r
  | d :: ds, k, els, r =>
    let o := runOp c d els
    runChain c ds (k + 1) o.els
      { outs := r.outs ++ [o.els], stop := nextStop k o.stop r.stop, side := r.side ||| sideOf d els }

/-- The writes of element i of the last operation: data, time and flag byte; IDX_REGION where an indexed address leaves
the regions (R318, R321, R324). -/
def elWrites (c : StreamCtx) (d : Desc) (i : Nat) (e : OutEl) : Except Nat (List LaneWrite) := do
  let l := d.d
  let sz := tySize l.ty
  let ix ← if l.idx then do
      let bs ← c.rd (l.step + 4 * i) 4
      pure (leNat bs)
    else pure i
  let a : Nat := if l.idx then l.base + ix * sz else ((l.base : Int) + sgn 32 l.step * i).toNat
  if l.idx && !idxOk c.remap true a sz then throw 2
  if l.idx && l.ts && !idxOk c.remap true (l.tbase + 8 * ix) 8 then throw 2
  return [{ lane := 3, addr := a, bytes := leBytes sz (if l.ty == 14 then e.val % 2 ^ 224 else e.val) }] ++
    (match e.time with
     | some t => if l.ts then [{ lane := 7, addr := l.tbase + 8 * ix, bytes := leBytes 8 t }] else []
     | none => []) ++
    (if d.flg then [{ lane := 11, addr := 4 * d.flgbase + i, bytes := [w8 e.fl] }] else [])

def writesOf (c : StreamCtx) (d : Desc) : List OutEl → Nat → List (List LaneWrite) × Option Nat
  | [], _ => ([], none)
  | e :: es, i =>
    match elWrites c d i e with
    | .error k => ([], some k)
    | .ok w =>
      let r := writesOf c d es (i + 1)
      (w :: r.1, r.2)

/-- The end of a run: none is DONE. -/
def ChordRun.ending (r : ChordRun) (st : Option (Nat × Nat)) : ChordRun :=
  match st with
  | some (o, code) => { r with code := code, opx := o }
  | none => r

/-- TPACK as the last operation: an item is a block with the flag bytes of its elements. A block a stop leaves short is not
written (R324, R331, R334). -/
def packChord (c : StreamCtx) (l : Desc) (k : Nat) (chain : List OutEl) (prev : Option (Nat × Nat)) : ChordRun :=
  let src := runEls (fun i => srcEl c l.s0 chain i) (List.range l.len)
  let whole := if src.els.length == l.len then src.els else src.els.take (src.els.length / l.param * l.param)
  let p := packRun (tyBits l.s0.ty) (src.els.any fun e => e.time.isSome) l.param l.d.step (l.len + 1) whole 0
  let starts := (List.range p.1.length).map (l.param * ·)
  ChordRun.ending
    { writes := (p.1.zip starts).map fun b =>
        [{ lane := 3, addr := l.d.base + b.1.off, bytes := b.1.bytes }] ++
        (if l.flg then [{ lane := 11, addr := 4 * l.flgbase + b.2, bytes := b.1.els.map fun e => w8 e.fl }] else [])
      unit := l.param, bytesAt := p.1.map fun b => b.off + b.bytes.length
      index := min whole.length (l.param * p.1.length), els := src.els }
    (match p.2 with
     | some x => some (k, x)
     | none => nextStop k src.stop prev)

/-- Run a checked chord whole (R332, R334). -/
def runChord (c : StreamCtx) (ds : List Desc) : ChordRun :=
  match ds.getLast? with
  | none => {}
  | some l =>
    let k := ds.length - 1
    let pre := runChain c (ds.take k) 0 [] {}
    let chain := pre.outs.getLastD []
    let r :=
      if l.op == 0x21 then packChord c l k chain pre.stop
      else if l.op == 0x22 then
        let u := unpackRun c (tyBits l.d.ty) l.d.ts l.param l.s0.step l.s0.base (l.len + 1) l.len 0 [] []
        let ws := writesOf c l u.1 0
        ChordRun.ending { writes := ws.1, index := ws.1.length, bytesAt := u.2.1, els := u.1 }
          ((ws.2.orElse fun _ => u.2.2).map fun x => (k, x))
      else
        let o := runOp c l chain
        let ws := writesOf c l o.els 0
        ChordRun.ending { writes := ws.1, index := ws.1.length, els := o.els }
          (match ws.2 with
           | some x => some (k, x)
           | none => nextStop k o.stop pre.stop)
    { r with outs := pre.outs ++ [r.els], side := pre.side ||| sideOf l chain }

end Sys2Proof.Machine
end

