-- ==== Sys2Proof/Machine/Memory.lean ====
section
/-! DEFINITION. The memories under their symbol code (R364, R368 to R373, R376), the usable maps (R78, R376, R458), and
the default target (R384, R385). -/
namespace Sys2Proof.Machine

/-! ### The symbol code (R368, R369) -/

/-- Product in GF(2^8) with x^8 + x^4 + x^3 + x^2 + 1. -/
def gfMul (a b : Byte) : Byte :=
  ((List.range 8).foldl (fun (acc : Byte × Byte) i =>
    let (r, x) := acc
    (if b.getLsbD i then r ^^^ x else r, if x.getLsbD 7 then (x <<< 1) ^^^ 0x1D else x <<< 1)) ((0 : Byte), a)).1

/-- α^n, α = 0x02. -/
def gfPow : Nat → Byte
  | 0 => 1
  | n + 1 => gfMul (gfPow n) 2

/-- The syndrome S_i of an error pattern: the code is linear, so the codeword itself adds nothing. -/
def syndrome (i : Nat) (pat : List (Nat × Byte)) : Byte :=
  pat.foldl (fun a p => a ^^^ gfMul p.2 (gfPow (i * p.1))) 0

/-- What the decoder of R369 finds. -/
inductive EccOut where
  | clean | corrected (j : Nat) (by' : Byte) | uncorrectable
deriving DecidableEq, Repr

def eccDecode (k : Nat) (pat : List (Nat × Byte)) : EccOut :=
  let s0 := syndrome 0 pat
  let s1 := syndrome 1 pat
  let s2 := syndrome 2 pat
  if s0 == 0 && s1 == 0 && s2 == 0 then .clean
  else if s0 != 0 && s1 != 0 && s2 != 0 && gfMul s1 s1 == gfMul s0 s2 then
    match (List.range (k + 3)).find? fun j => gfMul s0 (gfPow j) == s1 with
    | some j => .corrected j s0
    | none => .uncorrectable
  else .uncorrectable

/-- XOR a byte into a pattern. -/
def patXor (pat : List (Nat × Byte)) (j : Nat) (b : Byte) : List (Nat × Byte) :=
  let v := b ^^^ tabGet pat j 0
  if v == 0 then tabDel pat j else tabSet pat j v

/-- The pattern of inverted check bytes (R373). -/
def checkMask (m : Nat) : List (Nat × Byte) :=
  ([0, 1, 2] : List Nat).filterMap fun i => if bitsAt m i 1 == 1 then some (i, 0xFF) else none

/-! ### Memories and codewords -/

/-- A memory addressed by byte. -/
inductive MemRef where
  | lsp (course phys : Nat) | rom (course phys : Nat) | csm (course : Nat) | dram | emram
deriving DecidableEq, Repr

/-- Instances of R372 by key. -/
def instLsp (n p : Nat) : Nat := engKey n p
def instCsm (n : Nat) : Nat := 208 + n
def instDram (c : Nat) : Nat := 224 + c
def instEmram : Nat := 228
def instSram (i : Nat) : Nat := 230 + i
def MemInst.key : MemInst → Nat
  | .lsp n p => instLsp n p
  | .csm n => instCsm n
  | .dram c => instDram c
  | .emram => instEmram
  | .sram i => instSram i

/-- Data bytes of a codeword (R368). -/
def instK (key : Nat) : Nat := if inRange key 208 224 || 230 ≤ key then 16 else 32

/-- CE and UE source of an instance (R386, R552). -/
def ceSource (key : Nat) : Nat :=
  if key < 208 then Src.lspCe (key / 13) (key % 13)
  else if key < 224 then Src.csmCe (key - 208)
  else if key < 228 then Src.dramCe (key - 224)
  else if key == 228 then Src.emrCe else Src.sramCe (key - 230)
def ueSource (key : Nat) : Nat :=
  if key < 208 then Src.lspUe (key / 13) (key % 13)
  else if key < 224 then Src.csmUe (key - 208)
  else if key < 228 then Src.dramUe (key - 224)
  else if key == 228 then Src.emrUe else Src.sramUe (key - 230)

/-- One codeword an access touches: instance, index in it, address of its first data byte, data bytes. -/
structure Cw where
  key   : Nat
  idx   : Nat
  start : Nat
  k     : Nat
deriving DecidableEq, Repr

/-- Channel and channel-local address of a data address (R376). -/
def dramPlace (a : Nat) : Nat × Nat :=
  let l := a / 64
  let g := l / 29
  (g % 4, g / 4 * 2048 + 64 * (l % 29) + a % 64)

/-- The codeword that holds byte `a`. The boot ROM's codewords follow the LSP's in their shared instance. -/
def cwOf (m : MemRef) (a : Nat) : Cw :=
  match m with
  | .lsp n p => { key := instLsp n p, idx := a / 32, start := a / 32 * 32, k := 32 }
  | .rom n p => { key := instLsp n p, idx := 8192 + a / 32, start := a / 32 * 32, k := 32 }
  | .csm n => { key := instCsm n, idx := a / 16, start := a / 16 * 16, k := 16 }
  | .dram =>
    let p := dramPlace (a / 32 * 32)
    { key := instDram p.1, idx := p.2 / 32, start := a / 32 * 32, k := 32 }
  | .emram => { key := instEmram, idx := a / 32, start := a / 32 * 32, k := 32 }

/-- The codewords an access of `n` bytes at `a` touches, in address order. -/
def cwsOf (m : MemRef) (a n : Nat) : List Cw :=
  let k := match m with | .csm _ => 16 | _ => 32
  if n == 0 then [] else (List.range ((a + n - 1) / k - a / k + 1)).map fun i => cwOf m ((a / k + i) * k)

/-- ECC_ADDR of a codeword (R372): byte offset, or the codeword's index for DRAM. -/
def Cw.addr (c : Cw) : Nat := if inRange c.key 224 228 then c.idx else c.idx * c.k

def State.ecc (s : State) (key : Nat) : EccRec := tabGet s.fab.ecc key {}
def State.setEcc (s : State) (key : Nat) (f : EccRec → EccRec) : State :=
  s.modFab fun b => { b with ecc := tabMod b.ecc key {} f }

/-- ECC_UE.sym (R369): data byte d_j is at x^(j+3). -/
def symOf (k j : Nat) : Nat := if j < 3 then k + j else j - 3

/-- The unit of an instance whose corrected reads R527 counts by the hour: an engine's LSP, or a CSM logical bank. -/
def ceUnit (c : Cw) : Option Nat :=
  if c.key < 208 then (if c.idx < 8192 then some 0 else none) else if c.key < 224 then some (c.idx % 128) else none

/-- What the CE monitor keeps of a corrected read at `now` (R527): a second correction of the codeword within 24 h after a
write-back, and a unit's 65th within one hour. -/
def ceWatch (c : Cw) (now : Nat) (r : EccRec) : EccRec :=
  let again := match tabFind r.last c.idx with | some (t, back) => back && now ≤ t + 24 * 57600000000000 | none => false
  let r := { r with last := tabSet r.last c.idx (now, false), twice := if again then setAdd r.twice c.idx else r.twice }
  match ceUnit c with
  | none => r
  | some u =>
    let ts := (now :: tabGet r.times u []).take 65
    { r with times := tabSet r.times u ts
             dense := if ts.length == 65 && now < ts.getLastD 0 + 57600000000000 then setAdd r.dense u else r.dense }

/-- Record a corrected read (R369, R372): the codeword is to be written back unless its memory holds no error. -/
def eccCe (c : Cw) (j : Nat) (stored : Bool) (s : State) : State :=
  let s := s.setEcc c.key fun r => ceWatch c s.time.mono { r with
    ce := r.ce + 1, sym := symOf c.k j, lastUe := false, addr := w32 c.addr
    back := if stored && !r.back.contains c.idx then r.back ++ [c.idx] else r.back }
  raiseFault (ceSource c.key) (w64 (c.addr + 2 ^ 32 * symOf c.k j)) unitNone s

/-- Record an uncorrectable read (R370, R372). -/
def eccUe (c : Cw) (s : State) : State :=
  let s := s.setEcc c.key fun r => { r with ue := (r.ue + 1) % 65536, lastUe := true, addr := w32 c.addr }
  raiseFault (ueSource c.key) (w64 (c.addr + 2 ^ 32 * (s.ecc c.key).sym)) unitNone s

/-- The codeword as the checker meets it, and whether by an injection: what is stored wrong, and on the first codeword of a
read an armed READ injection, which is used up (R373). -/
def eccMeet (c : Cw) (first : Bool) (s : State) : List (Nat × Byte) × Bool × State :=
  let r := s.ecc c.key
  let stored := tabGet r.bad c.idx []
  let inj := r.injected.contains c.idx
  match r.armed with
  | some (1, m) =>
    if first then ((checkMask m).foldl (fun p x => patXor p x.1 x.2) stored, true,
      s.setEcc c.key fun r => { r with armed := none })
    else (stored, inj, s)
  | _ => (stored, inj, s)

/-- A raise an injection brings about: the record it opens is marked (R523). -/
def asInjected (inj : Bool) (f : State → State) (s : State) : State :=
  if inj then (f (s.modFcu fun u => { u with injecting := true })).modFcu fun u => { u with injecting := false } else f s

/-- Read-check one codeword: none is a UE; else the error left in what is delivered (R369). A read an injection meets is
not written back (R373). -/
def eccCheck (c : Cw) (first : Bool) (s : State) : Option (List (Nat × Byte)) × State :=
  let r := s.ecc c.key
  if r.bad.isEmpty && r.armed.isNone then (some [], s)
  else
    let reading := first && (match r.armed with | some (1, _) => true | _ => false)
    let (pat, inj, s) := eccMeet c first s
    match eccDecode c.k pat with
    | .clean => (some pat, s)
    | .corrected j b => (some (patXor pat j b), asInjected inj (eccCe c j ((tabFind r.bad c.idx).isSome && !reading)) s)
    | .uncorrectable => (none, asInjected inj (eccUe c) s)

/-- Contents of a memory. eMRAM's layout is not in the spec (log 10): its bytes are values the spec leaves open. -/
def State.memOf (s : State) (m : MemRef) : Mem :=
  match m with
  | .lsp n p => (s.engine ⟨n, p⟩).lsp
  | .csm n => tabGet s.fab.csm n []
  | .dram => s.fab.dram
  | _ => []
def State.setMem (s : State) (m : MemRef) (v : Mem) : State :=
  match m with
  | .lsp n p => s.setEngine ⟨n, p⟩ fun e => { e with lsp := v }
  | .csm n => s.modFab fun b => { b with csm := tabSet b.csm n v }
  | .dram => s.modFab fun b => { b with dram := v }
  | _ => s

/-- One byte as stored. -/
def State.memByte (s : State) (m : MemRef) (a : Nat) : Byte :=
  match m with
  | .rom _ _ => Config.engineRom a
  | .emram => (Config.freeValue (s.free + a)).setWidth 8
  | _ => memRead (s.memOf m) a

/-- Read `n` bytes at `a`: a byte of an uncorrectable codeword is none (R369, R370). -/
def memLoad (m : MemRef) (a n : Nat) (s : State) : List (Option Byte) × State :=
  let s0 := s
  let r := (cwsOf m a n).foldl (fun (acc : List (Cw × Option (List (Nat × Byte))) × State) c =>
    let (o, s) := eccCheck c acc.1.isEmpty acc.2
    (acc.1 ++ [(c, o)], s)) ([], s)
  let s1 := r.2
  let bytes := (List.range n).map fun i =>
    let x := a + i
    match r.1.find? fun c => c.1.start ≤ x && x < c.1.start + c.1.k with
    | some (_, none) => none
    | some (c, some pat) => some (s0.memByte m x ^^^ tabGet pat (x - c.start + 3) 0)
    | none => some (s0.memByte m x)
  (bytes, match m with | .emram => { s1 with free := s1.free + 1 } | _ => s1)

/-- The bytes, if none is missing. -/
def allBytes (l : List (Option Byte)) : Option (List Byte) := l.mapM id

/-- The codeword `c` has been written: it holds no error, but for an armed STORE injection, which is used up (R373). -/
def eccWritten (c : Cw) (first : Bool) (s : State) : State :=
  let r := s.ecc c.key
  let s := if r.bad.isEmpty && r.back.isEmpty then s else
    s.setEcc c.key fun r => { r with bad := tabDel r.bad c.idx, back := r.back.filter (· != c.idx), injected := setDel r.injected c.idx }
  match r.armed with
  | some (0, mask) =>
    if first then s.setEcc c.key fun r => { r with armed := none, bad := tabSet r.bad c.idx (checkMask mask), injected := setAdd r.injected c.idx }
    else s
  | _ => s

/-- What a merge read delivered wrong is stored with the rest of the codeword (R369, R370). -/
def storeResidue (m : MemRef) (c : Cw) (pat : List (Nat × Byte)) (s : State) : State :=
  pat.foldl (fun s p =>
    if p.1 < 3 then s
    else
      let a := c.start + p.1 - 3
      s.setMem m (memWriteList (s.memOf m) a [memRead (s.memOf m) a ^^^ p.2])) s

/-- Store to one codeword (R370, R373): a write of the whole codeword replaces it; a smaller one merges, and is
discarded where the merge read is uncorrectable. The result is whether it was stored. -/
def storeCw (m : MemRef) (c : Cw) (first : Bool) (a : Nat) (bytes : List Byte) (s : State) : Bool × State :=
  let whole := a ≤ c.start && c.start + c.k ≤ a + bytes.length
  let (ok, s) := if whole then (some [], s) else eccCheck c first s
  match ok with
  | none => (false, s)
  | some pat =>
    let lo := max a c.start
    let hi := min (a + bytes.length) (c.start + c.k)
    let s := storeResidue m c pat s
    (true, eccWritten c first (s.setMem m (memWriteList (s.memOf m) lo ((bytes.drop (lo - a)).take (hi - lo)))))

/-- An access to the codeword at byte `o` of on-die SRAM `i`: whether its check lets it pass (R370, R373, R552). -/
def sramCheck (i o : Nat) (s : State) : Bool × State :=
  let r := eccCheck { key := instSram i, idx := o / 16, start := o / 16 * 16, k := 16 } true s
  (r.1.isSome, r.2)

/-- A word is written there: merged with its codeword, where that can be read. -/
def sramWrite (i o : Nat) (s : State) : Bool × State :=
  let (ok, s) := sramCheck i o s
  (ok, if ok then eccWritten { key := instSram i, idx := o / 16, start := o / 16 * 16, k := 16 } true s else s)

/-- Write bytes at `a`; false is the error response of R370. A store to the boot ROM or eMRAM writes nothing and is
refused (R204, R547). -/
def memStore (m : MemRef) (a : Nat) (bytes : List Byte) (s : State) : Bool × State :=
  match m with
  | .rom _ _ | .emram => (false, s)
  | _ =>
    let cs := cwsOf m a bytes.length
    cs.foldl (fun (acc : Bool × State) c =>
      let (ok, s) := storeCw m c (some c == cs.head?) a bytes acc.2
      (acc.1 && ok, s)) (true, s)

/-! ### Usable maps (R78, R376, R458) -/

/-- U: 29/32 of the fitted capacity, 0x3A000000 bytes of each GiB. -/
def State.dramU (s : State) : Nat := 0x3A000000 * s.boot.dramGib

/-- The end of the data addresses others than firmware may use: the history ring of Ring mode lies above it. -/
def State.dramEnd (s : State) : Nat := s.dramU - (if s.lgs.mode == 0 then 0x100000 * s.lgs.ringMib else 0)

def State.dramOk (s : State) (a n : Nat) : Bool := s.ready Rdy.dram && 0x10000000 ≤ a && a + n ≤ s.dramEnd

/-- A course's CSM and LSP aperture are mapped until it is powered down (R179). -/
def State.csmOk (s : State) (n : Nat) : Bool := n < 16 && s.stroke.powered.getLsbD n

/-! ### The default target (R384, R385) -/

/-- FAB_ERR's master codes. -/
def fabMaster : Master → Nat
  | .pf | .vf _ => 0x11
  | .pegbox => 0x10
  | .engine n _ => n
  | .courseDma n => n
  | .link k => 0x12 + k

/-- Record a decode error or a timeout, and raise its source. -/
def fabError (timeout write : Bool) (master addr : Nat) (s : State) : State :=
  let s := if s.fab.errValid then s.modFab fun b => { b with errCount := satAdd 16 b.errCount 1 }
    else s.modFab fun b => { b with
      errValid := true, errTimeout := timeout, errWrite := write, errMaster := master, errAddr := addr % 2 ^ 40 }
  raiseFault (if timeout then Src.fabTimeout else Src.fabDecerr) 0 unitNone s

def decodeError (write : Bool) (m : Master) (addr : Nat) (s : State) : State :=
  fabError false write (fabMaster m) addr s

/-! ### 40-bit addresses (R387) -/

inductive Target where
  | dram (a : Nat) | csm (n a : Nat) | lsp (p a : Nat) | bar0 (b : Nat) | remote (w off : Nat) | none
deriving DecidableEq, Repr

def target40 (a : Nat) : Target :=
  if a < 0x800000000 then .dram a
  else if inRange a 0x1000000000 0x1004000000 then .csm ((a - 0x1000000000) / 0x400000) (a % 0x400000)
  else if inRange a 0x2000000000 0x2000340000 then .lsp ((a - 0x2000000000) / 0x40000) (a % 0x40000)
  else if inRange a 0x3000000000 0x3004000000 then .bar0 (a - 0x3000000000)
  else if inRange a 0x8000000000 0xC000000000 then .remote ((a - 0x8000000000) / 0x400000000) (a % 0x400000000)
  else .none

/-- The memory and offset behind a target, if it is a memory that is mapped for `n` bytes; an LSP is one of course
`own`. -/
def State.memAt (s : State) (own : Nat) (t : Target) (n : Nat) : Option (MemRef × Nat) :=
  match t with
  | .dram a => if s.dramOk a n then some (.dram, a) else .none
  | .csm c a => if s.csmOk c && a + n ≤ 0x400000 then some (.csm c, a) else .none
  | .lsp p a => if s.csmOk own && p < 13 && a + n ≤ 0x40000 then some (.lsp own p, a) else .none
  | _ => .none

end Sys2Proof.Machine
end

