-- ==== Sys2Proof/Machine/Image.lean ====
section
/-! DEFINITION. Images as bytes: the header of R51, the checks of R53, the patch body of R349, and where images stand
(R48, R50, R54, R58, R123). -/
namespace Sys2Proof.Machine

/-! ### The header (R51) -/

/-- `n` bytes of an image at an offset, and the little-endian number they spell. -/
def imgBytes (i : List Byte) (off n : Nat) : List Byte := (i.drop off).take n
def imgNat (i : List Byte) (off n : Nat) : Nat := leNat (imgBytes i off n)

def imgType (i : List Byte) : Nat := imgNat i 0x06 2
def imgSvn (i : List Byte) : Nat := imgNat i 0x08 4
def imgFlags (i : List Byte) : Nat := imgNat i 0x0C 4
def imgLen (i : List Byte) : Nat := imgNat i 0x10 4
def imgKeySlot (i : List Byte) : Nat := imgNat i 0x1C 4

/-- The payload as stored, after the 6 KiB header. -/
def imgStored (i : List Byte) : List Byte := imgBytes i 0x1800 (imgLen i)

/-- The reserved bytes of the header: offset and size of each run. -/
def imgReserved : List (Nat × Nat) := [(0x1A, 2), (0x5C, 4), (0x70, 144), (0x1C1, 3), (0x1674, 396)]
def imgRsvdZero (i : List Byte) : Bool := imgReserved.all fun r => imgBytes i r.1 r.2 == List.replicate r.2 0

def payloadLimit (t : Nat) : Nat := match t with | 2 => 0x10000 | 4 => 0x200000 | _ => 0x400000

/-! ### The cryptographic steps (R52, R53) -/

def natBytes (l : List Byte) : List Nat := l.map (·.toNat)

/-- SHA-384 of ecdsa_pub ‖ hss_pub. -/
def imgKeyHash (i : List Byte) : Nat :=
  Crypto.beNat (Crypto.h48 (natBytes (imgBytes i 0x160 97 ++ imgBytes i 0x1C4 60)))

/-- The bytes both signatures cover. -/
def imgSigned (i : List Byte) : List Nat := natBytes (imgBytes i 0 0x100)

def imgDigestOk (i : List Byte) : Bool := Crypto.h48 (natBytes (imgStored i)) == natBytes (imgBytes i 0x20 48)
def imgEcdsaOk (i : List Byte) : Bool :=
  Crypto.ecdsaOk (natBytes (imgBytes i 0x160 97)) (natBytes (imgBytes i 0x100 96)) (imgSigned i)
def imgHssOk (i : List Byte) : Bool :=
  Crypto.hssOk (natBytes (imgBytes i 0x1C4 60)) (natBytes (imgBytes i 0x200 5236)) (imgSigned i)

/-- The AES-256 key (R53: derived from a fused device-unique secret; log 10). -/
def imgKey : List Nat := (List.range 32).map fun n => (Config.imageKey n).toNat
def imgTagOk (i : List Byte) : Bool :=
  Crypto.gcmTag imgKey (natBytes (imgBytes i 0x50 12)) (imgSigned i) (natBytes (imgStored i)) == natBytes (imgBytes i 0x60 16)

/-- The payload in the clear. -/
def imgPayload (i : List Byte) : List Byte :=
  if bitsAt (imgFlags i) 0 1 == 1 then
    (Crypto.gcmText imgKey (natBytes (imgBytes i 0x50 12)) (natBytes (imgStored i))).map w8
  else imgStored i

/-! ### The patch body (R349) -/

/-- The body that a payload of type UCODE spells. -/
def patchOf (p : List Byte) : PatchBody :=
  let n := imgNat p 0x0A 2
  { magic := imgNat p 0 4, version := imgNat p 4 2, level := w16 (imgNat p 6 2), romId := imgNat p 8 2
    wordCount := w16 n, rsvdZero := imgBytes p 0x0C 52 == List.replicate 52 0
    dispatch := (List.range 256).map fun k => w32 (imgNat p (0x40 + 4 * k) 4)
    words := (List.range n).map fun k => w64 (imgNat p (0x440 + 8 * k) 8) }

/-- Microaddress in the ROM or the loaded words (R346, R349). -/
def microMapped (count a : Nat) : Bool := a < 0x4000 || inRange a 0x4000 (0x4000 + count)

/-- A microword of reserved cls, func or cond, or with its tgt outside the ROM and the loaded words (R349). -/
def wordBad (count : Nat) (w : W64) : Bool :=
  let n := w.toNat
  let cls := bitsAt n 60 4
  10 < cls || 9 < bitsAt n 50 4 || (cls == 1 && 8 < bitsAt n 28 4) || !microMapped count (bitsAt n 32 16)

/-- A dispatch entry outside the ROM and the loaded words, or a valid one for an op R325 does not list (R349). -/
def entryBad (count op : Nat) (e : W32) : Bool :=
  !microMapped count (bitsAt e.toNat 0 16) || (e.getLsbD 31 && (opStage op).isNone)

/-- The checks of a UCODE body (R349). -/
def patchBad (p : PatchBody) (payloadLen : Nat) : Bool :=
  let n := p.wordCount.toNat
  p.magic != 0x444F4355 || p.version != 1 || p.romId != 0xA1 || n % 2 != 0 || 7936 < n || payloadLen != 1088 + 8 * n ||
  !p.rsvdZero || p.words.any (wordBad n) || p.dispatch.zipIdx.any fun e => entryBad n e.2 e.1

/-! ### Verification (R53) -/

/-- The fused hash for a key slot. -/
def fusedHash (f : Fuses) (k : Nat) : Nat := ((f.keyHash.toList[k]?).getD 0).toNat

/-- The fused security-version floor of an image type. -/
def svnFloor (f : Fuses) (t : Nat) : Nat := ((f.floors.toList[t]?).getD 0).toNat

/-- Steps 1 and 2: the header is that of an image of type `t`. R53's steps name no error for a payload_len that is not a
multiple of 16, nor for a reserved bit of flags: DESIGN CHOICE, BAD_HDR for both (log 135). -/
def headerOk (t : Nat) (i : List Byte) : Bool :=
  imgNat i 0 4 == 0x494D4C5A && imgNat i 4 2 == 1 && imgNat i 0x18 2 == 0xA1 && imgRsvdZero i && imgFlags i < 2 && imgType i == t &&
  imgLen i % 16 == 0 && imgLen i ≤ payloadLimit t

/-- Step 3. A key_slot above 3 has no fused hash: DESIGN CHOICE, BAD_KEY (log 135). -/
def keyOk (f : Fuses) (i : List Byte) : Bool :=
  imgKeySlot i < 4 && !f.revoked.getLsbD (imgKeySlot i) && imgKeyHash i == fusedHash f (imgKeySlot i)

/-- The first failing check of R53, with the body checks of R349 after them: 0 where all pass, else BOOT_STAT.error. A
payload cut short of payload_len has no digest: BAD_DIGEST (log 135). -/
def verifyImage (s : State) (t : Nat) (i : List Byte) : Nat :=
  if !headerOk t i then 1
  else if !keyOk s.fuses i then 2
  else if imgSvn i < svnFloor s.fuses t then 3
  else if (imgStored i).length != imgLen i || !imgDigestOk i then 4
  else if !imgEcdsaOk i then 5
  else if !imgHssOk i then 6
  else if bitsAt (imgFlags i) 0 1 == 1 && !imgTagOk i then 7
  else if t == 2 && patchBad (patchOf (imgPayload i)) (imgLen i) then 1
  else 0

/-! ### Where images stand (R48, R50, R58) -/

/-- The slot of a target and an image type: an xSPI region of CS0 or CS1, or the eMRAM recovery image. -/
def flashKey (target t : Nat) : Nat := if target == 2 then 4 else 2 * target + bit (t == 2)

/-- The image of type FW (1) or UCODE (2) on the device of chip select `cs`; an erased region holds no magic. -/
def flashImage (cs t : Nat) (s : State) : List Byte := tabGet s.em.flash (flashKey cs t) []

/-- `n` bytes of the CSM of course 0 and `k` of course 1 after them; a byte of an uncorrectable codeword leaves nothing. -/
def csmBytes (n k : Nat) (s : State) : List Byte × State :=
  let r0 := memLoad (.csm 0) 0 n s
  let r1 := memLoad (.csm 1) 0 k r0.2
  ((allBytes (r0.1 ++ r1.1)).getD [], r1.2)

/-- The delivered image: BOOT_LEN bytes at BAR4 offset 0, the CSM of course 0 and, past its 4 MiB, of course 1 (R48, R58,
R78). -/
def csmImage (s : State) : List Byte × State :=
  csmBytes (min s.boot.bootLen.toNat 0x400000) (s.boot.bootLen.toNat - 0x400000) s

/-- Put an image into its slot. -/
def putImage (key : Nat) (i : List Byte) (m : Emram) : Emram :=
  if key == 4 then { m with recovery := some i } else { m with flash := tabSet m.flash key i }

/-- A write of an image begins: until it ends its target holds no valid image (R123). -/
def beginWrite (q cid key : Nat) (i : List Byte) (s : State) : State :=
  s.modEm fun m => { putImage key [] m with writing := m.writing ++ [(q, cid, key, i)] }

/-- The writes that answer to `who` have ended: their targets hold the images. -/
def endWrites (who : Nat → Nat → Bool) (s : State) : State :=
  s.modEm fun m =>
    let done := m.writing.filter fun w => who w.1 w.2.1
    { done.foldl (fun m w => putImage w.2.2.1 w.2.2.2 m) m with writing := m.writing.filter fun w => !who w.1 w.2.1 }

/-- A reset or a power loss cuts the writes: their targets stay without a valid image (R123). -/
def cutWrites (m : Emram) : Emram := { m with writing := [] }

end Sys2Proof.Machine
end

