-- ==== Sys2Proof/Machine/Sen.lean ====
section
/-! DEFINITION. The event network, the timers and the TIO pins (R399 to R422): events and their delivery, counting,
compares, captures, and the registers of R401, R403, R411, R417 and R422. -/
namespace Sys2Proof.Machine

def Sen.timer (n : Sen) (t : Nat) : Timer := tabGet n.timers t {}
def State.timer (s : State) (t : Nat) : Timer := s.sen.timer t
def State.setTimer (s : State) (t : Nat) (f : Timer → Timer) : State :=
  s.modSen fun n => { n with timers := tabMod n.timers t {} f }

/-- TIO_CFG of a pin; drv resets to 1 (R422). -/
def Sen.tioCfg (n : Sen) (p : Nat) : W32 := tabGet n.tio p 0x40
def tioFunc (w : W32) : Nat := bitsAt w.toNat 0 2
def tioEdgeSel (w : W32) : Nat := bitsAt w.toNat 3 2
def tioTmr (w : W32) : Nat := bitsAt w.toNat 8 8

/-- Does an edge field select an edge of this direction (R422): 1 rising, 2 falling, 3 both? -/
def edgeSelected (sel : Nat) (rising : Bool) : Bool := if rising then sel % 2 == 1 else 2 ≤ sel

/-! ### Producers (R399, R400, R404) -/

/-- Hop delay of a producer (R400). -/
def hopDelay (id : Nat) : Nat := if inRange id 64 224 || inRange id 508 512 then 1 else 2

/-- The consumer inputs that select a channel now (R402, R403, R411). -/
def Sen.consumers (n : Sen) (ch : Nat) : List SenConsumer :=
  (n.sensel.map fun kv =>
    ([0, 1] : List Nat).filterMap fun h =>
      let f := bitsAt kv.2.toNat (16 * h) 8
      if f / 128 == 1 && f % 64 == ch then
        some (.irq (kv.1 / 8 / 13) (kv.1 / 8 % 13) (2 * (kv.1 % 8) + h))
      else none).flatten ++
  (n.timers.map fun kv =>
    let t := kv.2
    (if t.mode == 2 && t.evch == ch then [.count kv.1] else []) ++
    (if t.sten && t.stch == ch then [.start kv.1] else []) ++
    ([0, 1] : List Nat).filterMap fun k =>
      if bitsAt t.capsel.toNat (16 * k) 8 == 192 + ch then some (.capture kv.1 k) else none).flatten

/-- The captures that watch a pin (R415). -/
def Sen.pinConsumers (n : Sen) (p : Nat) : List SenConsumer :=
  (n.timers.map fun kv => ([0, 1] : List Nat).filterMap fun k =>
    if bitsAt kv.2.capsel.toNat (16 * k) 8 == 128 + p then some (.capture kv.1 k) else none).flatten

/-- Put an event on its way; a producer asserts its line once in a SEN cycle (R399). -/
def Sen.put (n : Sen) (e : SenEvent) : Sen :=
  if n.inflight.any fun x => x.prod == e.prod && x.ch == e.ch && x.due == e.due then n
  else { n with inflight := n.inflight ++ [e] }

/-- A producer asserts its line in SEN cycle `c`: one event through every channel whose mask enables it, its routing
fixed now (R399, R404). -/
def Sen.assert (n : Sen) (id c : Nat) : Sen :=
  (List.range 64).foldl (fun n ch =>
    if (tabGet n.pmask (16 * ch + id / 32) (0 : W32)).getLsbD (id % 32) then
      n.put { prod := id, ch, due := c + hopDelay id, consumers := n.consumers ch }
    else n) n

def assertProducer (id : Nat) (s : State) : State := s.modSen fun n => n.assert id s.senCycle

/-! ### Timers (R409 to R420) -/

/-- Frozen by a debug halt (R419, R535). -/
def State.frozen (s : State) (t : Nat) : Bool :=
  let x := s.timer t
  x.dbgf && s.sen.debugHalt.contains (if t < 32 then 208 else engKey ((t - 32) / 8) (s.nowHolds ((t - 32) / 8) x.deng))

/-- Does the timer's course have power (R409)? -/
def State.timerPowered (s : State) (t : Nat) : Bool := t < 32 || s.stroke.powered.getLsbD ((t - 32) / 8)

/-- A compare is passed (R412). -/
def passed (cnt v : W64) : Bool := (cnt - v).toNat < 2 ^ 63

/-- The event line of a timer (R400, R411): producers 64 to 223 are the timers in order. -/
def eventLine (t : Nat) (s : State) : State := assertProducer (64 + t) s

/-- Every TIO pin in timer-output function that names `t` follows its out 4 SEN cycles later (R414). -/
def followOut (t : Nat) (lvl : Bool) (s : State) : State :=
  let due := s.senCycle + 4
  s.modSen fun n => { n with
    ballDue := n.ballDue ++ (List.range 48).filterMap fun p =>
      if tioFunc (n.tioCfg p) == 1 && tioTmr (n.tioCfg p) == t then some (p, due, lvl) else none }

/-- Set out of a timer and let its pins follow. -/
def setOut (t : Nat) (lvl : Bool) (s : State) : State :=
  if (s.timer t).out == lvl then s else followOut t lvl (s.setTimer t fun x => { x with out := lvl })

/-- One armed compare matches (R412). -/
def matchOne (t c : Nat) (s : State) : State :=
  let x := s.timer t
  let act := bitsAt x.cmpctl.toNat (4 * c) 2
  let s := s.setTimer t fun x => { x with arm := putBit x.arm c false, m := putBit x.m c true }
  let s := match act with
    | 1 => setOut t true s
    | 2 => setOut t false s
    | 3 => setOut t (!x.out) s
    | _ => s
  let s := if x.cmpctl.getLsbD (4 * c + 2) then eventLine t s else s
  postBound 5 (fun src => src == 0x4000 + 4 * t + c) none s.now s.quality s

/-- Every armed compare up to `c` that the count has passed matches, in ascending order (R412, R413). -/
def matchUpTo (t c : Nat) (s : State) : State :=
  (List.range (c + 1)).foldl (fun s i =>
    let x := s.timer t
    if x.arm.getLsbD i && passed x.cnt x.cmp[i]! then matchOne t i s else s) s

/-- A carry goes to the timer above if it is LINK; whether that one is frozen counts when the carry arrives (R410, R419,
R420). -/
def sendCarry (t : Nat) (s : State) : State :=
  let u := t + 1
  let linkable := inRange u 1 32 || (inRange u 32 160 && u % 8 != 0)
  if linkable && (s.timer u).mode == 1 then
    s.setTimer u fun x => { x with carry := true, carryDue := s.senCycle + 2 }
  else s

/-- The count advances by 1; a wrap sets ovf, may assert the event line, and carries (R410, R411, R420). Compares
still due from the cycle before match first. -/
def countOne (t : Nat) (s : State) : State :=
  let s := matchUpTo t 3 s
  let s := s.setTimer t fun x => { x with cnt := x.cnt + 1 }
  let x := s.timer t
  if x.cnt == 0 then
    let s := s.setTimer t fun x => { x with ovf := true }
    let s := if x.cmpctl.getLsbD 18 then eventLine t s else s
    sendCarry t s
  else s

/-- May the timer count now? -/
def State.counts (s : State) (t : Nat) : Bool := (s.timer t).run && !s.frozen t && s.timerPowered t

/-- Set run; a CLOCK timer then takes its first count pre + 1 SEN cycles later (R410). -/
def setRun (t : Nat) (on : Bool) (s : State) : State :=
  s.setTimer t fun x => { x with run := on, lastTick := if on && !x.run then s.senCycle else x.lastTick }

/-- A capture reaches its channel: it waits to land; a third one waiting replaces the later and sets ovr (R416). The
value is the count now. -/
def capture (t k : Nat) (stamp : W64) (ql : Quality) (s : State) : State :=
  s.setTimer t fun x =>
    let w : CapWait := { value := x.cnt, stamp, ql }
    let q := if k == 0 then x.wait0 else x.wait1
    let q' := q.take 1 ++ [w]
    let x := if 2 ≤ q.length then { x with ovr := putBit x.ovr k true } else x
    if k == 0 then { x with wait0 := q' } else { x with wait1 := q' }

/-- The oldest waiting capture lands (R416), one per SEN cycle and not in the cycle of a read. -/
def landCapture (t k : Nat) (s : State) : State :=
  let x := s.timer t
  match if k == 0 then x.wait0 else x.wait1 with
  | [] => s
  | w :: rest =>
    let s := s.bringTo (20 * x.landFrom[k]!)
    let s := s.setTimer t fun x =>
      let x := { x with
        cap := x.cap.set! k w.value
        ovr := if x.fresh.getLsbD k then putBit x.ovr k true else x.ovr
        fresh := putBit x.fresh k true
        landFrom := x.landFrom.set! k (s.senCycle + 1) }
      if k == 0 then { x with wait0 := rest } else { x with wait1 := rest }
    let s := if x.cmpctl.getLsbD (16 + k) then eventLine t s else s
    postBound 5 (fun src => src == 0x8000 + 4 * t + k) none w.stamp w.ql s

/-- A read of TMR_CAP[k]_LO: the value, latched, and fresh cleared (R416). -/
def readCapLo (t k : Nat) (s : State) : W32 × State :=
  let v := (s.timer t).cap[k]!
  (lo32 v, s.setTimer t fun x => { x with
    capLatch := x.capLatch.set! k (hi32 v)
    fresh := putBit x.fresh k false
    landFrom := x.landFrom.set! k (s.senCycle + 1) })

/-- A compare value lands and arms; a match of the old value that is due is not cancelled (R412, R413; log 161). -/
def armCompare (t c : Nat) (v : W64) (s : State) : State :=
  let x := s.timer t
  let s := if x.arm.getLsbD c && passed x.cnt x.cmp[c]! then matchOne t c s else s
  s.setTimer t fun x => { x with cmp := x.cmp.set! c v, arm := putBit x.arm c true }

/-- A count lands; ignored while run is 1 (R411). Compares that the old count has passed match first (R412; log 161). -/
def writeCount (t : Nat) (v : W64) (s : State) : State :=
  if (s.timer t).run then s else (matchUpTo t 3 s).setTimer t fun x => { x with cnt := v }

/-! ### Delivery (R402, R404, R405) -/

/-- Count a coincidence on the inputs that have a counter (R405). -/
def coincide (c : SenConsumer) (s : State) : State :=
  match c with
  | .irq n p k => s.modSen fun x => { x with
      sensel := tabMod x.sensel (8 * engKey n p + k / 2) 0 fun w =>
        let h := 16 * (k % 2) + 8
        w32 (w.toNat + 2 ^ h * (if bitsAt w.toNat h 8 == 255 then 0 else 1)) }
  | .capture t k => s.setTimer t fun x => { x with
      capsel := w32 (x.capsel.toNat + 2 ^ (16 * k + 8) * (if bitsAt x.capsel.toNat (16 * k + 8) 8 == 255 then 0 else 1)) }
  | .count t => s.setTimer t fun x => { x with coinc := min 255 (x.coinc + 1) }
  | _ => s

/-- What a consumer input does at an event (R402). Counting comes before capturing, so that the value captured is the
count at the end of the cycle (R415). -/
def consume (c : SenConsumer) (stamp : W64 × Quality) (s : State) : State :=
  match c with
  | .irq n p k => s.setEngine ⟨n, p⟩ fun e =>
      if e.st == .off then e else { e with irqPend := putBit e.irqPend (5 + k) true }
  | .count t => if s.counts t then countOne t s else s
  | .start t => if s.timerPowered t then setRun t true s else s
  | .capture t k => capture t k stamp.1 stamp.2 s

def SenConsumer.rank : SenConsumer → Nat
  | .count _ => 0 | .start _ => 1 | _ => 2

/-- The earliest SEN cycle at whose end an event reaches its consumers. -/
def Sen.firstDue (n : Sen) : Option Nat :=
  n.inflight.foldl (fun a e => match a with | none => some e.due | some d => some (min d e.due)) none

/-! ### SPI data-ready events (R445, R446), which a SEN channel can also raise -/

/-- Sensor port `p` of a type (R424). -/
def State.sport (s : State) (ty p : Nat) : Port := tabGet s.ports.ports (8 * ty + p) {}
def State.setSport (s : State) (ty p : Nat) (f : Port → Port) : State :=
  s.modPorts fun x => { x with ports := tabMod x.ports (8 * ty + p) {} f }

def Port.byte (x : Port) (i : Nat) : Nat := ((x.cfg[i]?).getD 0).toNat
def Port.word (x : Port) (i n : Nat) : Nat := leNat ((x.cfg.drop i).take n)

/-- A port counter counts (R447). -/
def Port.tick (x : Port) (w : Nat) : Port := { x with cnt := tabMod x.cnt w 0 (· + 1) }

/-- A data-ready event: producer and bound events act; it starts a transaction unless one runs. -/
def dataReady (p : Nat) (stamp : W64) (ql : Quality) (s : State) : State :=
  let s := assertProducer (500 + p) s
  let s := postBound 4 (fun src => src == 0x4000 + 256 * p) none stamp ql s
  if (s.sport 3 p).spiRun.isSome then
    raiseFault Src.spiOverlap (w64 p) unitNone
      (s.setSport 3 p fun x => { (x.tick 2) with overlaps := x.overlaps + 1, lastOverlap := stamp })
  else (s.setSport 3 p fun x => { x with spiRun := some (stamp, ql), spiLen := x.byte 0x10 }).emit (.spiStart p)

/-- SPI ports whose data-ready source is a SEN channel (R445). -/
def senReady (ch : Nat) (s : State) : State :=
  (List.range 4).foldl (fun s p =>
    let x := s.sport 3 p
    if x.byte 0x13 == 1 && x.byte 0x11 == 1 && x.byte 0x12 == ch then dataReady p s.now s.quality s else s) s

/-- One channel carries one event for all that reach its consumers together (R399, R405). -/
def deliverChannel (ch : Nat) (es : List SenEvent) (s : State) : State :=
  match es with
  | [] => s
  | e :: _ =>
    let all := (es.map (·.consumers)).flatten
    let once := all.eraseDups
    let stamp := e.stamp.getD (s.now, s.quality)
    let s := if ch < 64 then
        postBound 5 (fun src => src == ch) none s.now s.quality
          (s.modSen fun n => { n with
            chcnt := tabMod n.chcnt ch 0 (· + 1)
            storm := tabMod n.storm ch 0 (· + 1) })
      else s
    let s := once.foldl (fun s c => if 1 < all.count c then coincide c s else s) s
    let s := if ch < 64 then senReady ch s else s
    ([0, 1, 2] : List Nat).foldl (fun s r =>
      once.foldl (fun s c => if c.rank == r then consume c stamp s else s) s) s

/-- Deliver the events of the earliest due SEN cycle, time brought to its end (R404; log 5). -/
def deliverNext (s : State) : State :=
  match s.sen.firstDue with
  | none => s
  | some d =>
    let now := s.sen.inflight.filter fun e => e.due == d
    let s := (s.bringTo (20 * d)).modSen fun n => { n with inflight := n.inflight.filter fun e => e.due != d }
    let s := (List.range 112).foldl (fun s ch =>
      deliverChannel ch (now.filter fun e => e.ch == ch) s) s
    s

/-! ### Pins (R154, R156, R414, R415, R422) -/

/-- The stamp of a pin now (R154): VT64 and the pin's TDC_OFS. -/
def State.stamp (s : State) (pin : Nat) : W64 := s.now + i64 (s.tune (0x100 + pin))

/-- Is an edge on the pin stamped: 4 ns or more after the last stamped edge (R156)? -/
def State.edgeStamped (s : State) (pin : Nat) : Bool :=
  match tabFind s.sen.lastEdge pin with
  | none => true
  | some m => m + 64 ≤ s.time.mono

def markEdge (pin : Nat) (s : State) : State :=
  s.modSen fun n => { n with lastEdge := tabSet n.lastEdge pin s.time.mono }

/-- An edge that is not stamped counts in the pin's miss count (R156). -/
def missEdge (pin : Nat) (s : State) : State := s.modSen fun n => { n with edgeMiss := tabMod n.edgeMiss pin 0 (· + 1) }

/-- A change of the level at a TIO ball: where TIO_CFG.edge selects the edge and it is stamped, its producer asserts,
the captures of the pin act, and its bound events post; an edge not stamped counts as a miss (R154, R156, R415). -/
def tioBallEdge (p : Nat) (rising : Bool) (s : State) : State :=
  let cfg := s.sen.tioCfg p
  let s := s.modPins fun x => { x with tioIn := putBit x.tioIn p rising }
  if !edgeSelected (tioEdgeSel cfg) rising then s
  else if !s.edgeStamped p then
    let w := w32 (cfg.toNat + 2 ^ 24 * (if bitsAt cfg.toNat 24 8 == 255 then 0 else 1))
    s.modSen fun n => { n with tio := tabSet n.tio p w }
  else
    let st := s.stamp p
    let s := markEdge p s
    let c := s.senCycle
    let s := s.modSen fun n => (n.assert p c).put
      { prod := p, ch := 64 + p, due := c + 2, consumers := n.pinConsumers p, stamp := some (st, s.quality) }
    postBound 4 (fun src => src == 0x5000 + p) none st s.quality s

/-- Drive a ball: nothing changes while the safe state holds it (R33). -/
def driveBall (p : Nat) (lvl : Bool) (s : State) : State :=
  if s.pins.safeHeld then s else s.modPins fun x => { x with tioOut := putBit x.tioOut p lvl }

/-- Write TIO_CFG (R8, R422): miss is RC, a reserved func or drv leaves its field unchanged. A pin set to follow a
timer takes its out; one that names no timer is driven low. -/
def writeTioCfg (p : Nat) (val : W32) (s : State) : State :=
  let old := (s.sen.tioCfg p).toNat
  let v := val.toNat
  let func := if v % 4 == 3 || (v % 4 == 2 && 16 ≤ p) then old % 4 else v % 4
  let drv := if bitsAt v 6 2 == 3 then bitsAt old 6 2 else bitsAt v 6 2
  let w := 2 ^ 24 * bitsAt old 24 8 + 256 * bitsAt v 8 8 + 64 * drv + 32 * bitsAt v 5 1 + 8 * bitsAt v 3 2 + func
  let s := s.modSen fun n => { n with tio := tabSet n.tio p (w32 w) }
  let s := s.modPins fun x => { x with tioSafe := putBit x.tioSafe p (bitsAt v 5 1 == 1) }
  if func == 1 then
    let t := bitsAt v 8 8
    let lvl := t < 160 && (s.timer t).out
    s.modSen fun n => { n with ballDue := n.ballDue ++ [(p, s.senCycle + 4, lvl)] }
  else s

/-! ### Register words -/

/-- TMR_CTL (R411). -/
def Timer.ctl (x : Timer) : W32 :=
  w32 (2 ^ 12 * x.pre + 2 ^ 8 * x.deng + 2 ^ 7 * bit x.dbgf + 2 * x.mode + bit x.run)

/-- TMR_EVCTL (R411). -/
def Timer.evctl (x : Timer) : W32 :=
  w32 (2 ^ 16 * x.coinc + 2 ^ 15 * bit x.sten + 2 ^ 8 * x.stch + x.evch)

/-- TMR_STAT (R411). -/
def Timer.stat (x : Timer) : W32 :=
  w32 (2 ^ 23 * bit x.carry + 2 ^ 22 * bit x.out + 2 ^ 21 * bit x.ovf + 2 ^ 18 * x.ovr.toNat +
    2 ^ 16 * x.fresh.toNat + 2 ^ 8 * x.m.toNat + x.arm.toNat)

/-- Write TMR_CTL (R8, R410, R411): the reserved modes leave mode unchanged; deng of 13 to 15, and deng of a global
timer, stay as they are. -/
def writeTmrCtl (t : Nat) (val : W32) (s : State) : State :=
  let v := val.toNat
  let noLink := t == 0 || (32 ≤ t && t % 8 == 0)
  let s := s.setTimer t fun x => { x with
    pre := bitsAt v 12 8
    deng := if t < 32 || 13 ≤ bitsAt v 8 4 then x.deng else bitsAt v 8 4
    dbgf := bitsAt v 7 1 == 1
    mode := if bitsAt v 1 2 == 3 || (bitsAt v 1 2 == 1 && noLink) then x.mode else bitsAt v 1 2 }
  setRun t (v % 2 == 1) s

/-- Write TMR_EVCTL and TMR_CAPSEL: their coinc fields are RC (R411). -/
def writeEvctl (val : W32) (x : Timer) : Timer :=
  { x with sten := val.getLsbD 15, stch := bitsAt val.toNat 8 6, evch := bitsAt val.toNat 0 6 }
def writeCapsel (val : W32) (x : Timer) : Timer :=
  { x with capsel := (val &&& 0x00FF00FF) ||| (x.capsel &&& 0xFF00FF00) }

/-- Write one word of a timer at its offset (R411); TMR_CNT and TMR_CMP come through `writeCount` and `armCompare`. -/
def writeTimer (t off : Nat) (val : W32) (s : State) : State :=
  match off with
  | 0x00 => writeTmrCtl t val s
  | 0x04 => s.setTimer t (writeEvctl val)
  | 0x08 => s.setTimer t fun x => { x with cmpctl := val &&& 0x00077777 }
  | 0x0C => s.setTimer t (writeCapsel val)
  | 0x10 => s.setTimer t fun x => { x with
      ovf := x.ovf && !val.getLsbD 21
      ovr := x.ovr &&& ~~~ (BitVec.ofNat 2 (bitsAt val.toNat 18 2))
      m := x.m &&& ~~~ (BitVec.ofNat 4 (bitsAt val.toNat 8 4)) }
  | _ => s

/-- A read of TMR_EVCTL or TMR_CAPSEL clears its coinc fields (R411). -/
def readEvctl (t : Nat) (s : State) : W32 × State :=
  ((s.timer t).evctl, s.setTimer t fun x => { x with coinc := 0 })
def readCapsel (t : Nat) (s : State) : W32 × State :=
  ((s.timer t).capsel, s.setTimer t fun x => { x with capsel := x.capsel &&& 0x00FF00FF })

/-- A read of TIO_CFG clears miss; one of VE_SENSEL clears its coinc fields (R403, R422). -/
def readTioCfg (p : Nat) (s : State) : W32 × State :=
  (s.sen.tioCfg p, s.modSen fun n => { n with tio := tabSet n.tio p (n.tioCfg p &&& 0x00FFFFFF) })
def senselKey (e : Eng) (j : Nat) : Nat := 8 * engKey e.course e.phys + j
def readSensel (e : Eng) (j : Nat) (s : State) : W32 × State :=
  let w := tabGet s.sen.sensel (senselKey e j) 0
  (w, s.modSen fun n => { n with sensel := tabSet n.sensel (senselKey e j) (w &&& 0x00FF00FF) })
def writeSensel (e : Eng) (j : Nat) (val : W32) (s : State) : State :=
  s.modSen fun n => { n with
    sensel := tabMod n.sensel (senselKey e j) 0 fun w => (val &&& 0x00BF00BF) ||| (w &&& 0xFF00FF00) }

/-- One word of a timer as read, with what the read clears (R411, R416). -/
def readTimer (t off : Nat) (s : State) : W32 × State :=
  let x := s.timer t
  if off == 0x00 then (x.ctl, s)
  else if off == 0x04 then readEvctl t s
  else if off == 0x08 then (x.cmpctl, s)
  else if off == 0x0C then readCapsel t s
  else if off == 0x10 then (x.stat, s)
  else if off == 0x18 then (lo32 x.cnt, s)
  else if off == 0x1C then (hi32 x.cnt, s)
  else if inRange off 0x20 0x40 then
    let v := x.cmp[(off - 0x20) / 8]!
    (if off % 8 == 0 then lo32 v else hi32 v, s)
  else if off == 0x40 || off == 0x48 then readCapLo t ((off - 0x40) / 8) s
  else if off == 0x44 || off == 0x4C then (x.capLatch[(off - 0x44) / 8]!, s)
  else (0, s)

/-- Start or stop every armed timer of a powered course (R417). -/
def gstart (on : Bool) (s : State) : State :=
  (List.range 160).foldl (fun s t =>
    if (tabGet s.sen.garm (t / 32) (0 : W32)).getLsbD (t % 32) && s.timerPowered t then setRun t on s else s) s

/-- A write of SEN_SWPULSE (R401). -/
def swPulse (val : W32) (s : State) : State :=
  (List.range 4).foldl (fun s i => if val.getLsbD i then assertProducer (508 + i) s else s) s

/-- The end of a storm window of 8,192 SEN cycles (R517); a limit of 0 disables the monitor (R519). -/
def stormEnd (s : State) : State :=
  let s := s.bringTo ((s.time.mono / 163840 + 1) * 163840)
  let counts := s.sen.storm
  let s := s.modSen fun n => { n with storm := [] }
  (List.range 64).foldl (fun s ch =>
    setCause (Src.senStorm ch) (s.fcu.stormLimit != 0 && s.fcu.stormLimit < tabGet counts ch 0) 0 s) s

/-! ### The commands -/

/-- The event network and the timers run (R546). -/
def State.senUp (s : State) : Bool := s.alive && s.ready Rdy.senTmr

end Sys2Proof.Machine
end

