-- ==== Sys2Proof/Machine/Time.lean ====
section
/-! DEFINITION. The time engine: sources and samples, the servo, steps, the time base, gPTP, PPS and PTM
(spec/06). -/
namespace Sys2Proof.Machine

/-! ### Sources (R138 to R143) -/

def State.isFollower (s : State) : Bool := s.brl.leadKnown && s.brl.lead != s.cubeId
def State.isLead (s : State) : Bool := !s.brl.leadKnown || s.brl.lead == s.cubeId

/-- The list in force (R139): BRL first on a follower, ignored elsewhere. -/
def State.sources (s : State) : List Nat :=
  let l := s.em.prio.filter (· != 4)
  if s.isFollower then 4 :: l else l

def State.track (s : State) (c : Nat) : Track := tabGet s.time.tracks c {}
def State.setTrack (s : State) (c : Nat) (f : Track → Track) : State :=
  s.modTime fun t => { t with tracks := tabMod t.tracks c {} f }

/-- LOCAL is always valid; another source is while its last valid sample is within its timeout (R138). -/
def State.srcValid (s : State) (c : Nat) : Bool := c == 5 || (s.track c).valid

/-- Lock threshold of a source (R138, R143). -/
def State.threshold (s : State) (c : Nat) : Nat :=
  if s.time.lockThr != 0 then s.time.lockThr
  else match c with | 1 => 1600 | 2 => 320 | 3 => 3200 | _ => 16

/-- Timeout of a source in vt (R138). -/
def State.timeoutOf (s : State) (c : Nat) : Nat :=
  match c with
  | 1 =>
    let slave := s.time.ports.find? fun p => p.2.state == 2
    let k : Int := match slave with | some p => p.2.logSync | none => -3
    48000000000 / 2 ^ (-k).toNat
  | 2 => 24000000000
  | 3 => 480000000
  | _ => 8000000

/-- The most-preferred valid source; 0 for none. -/
def State.bestValid (s : State) : Nat := (s.sources.find? s.srcValid).getD 0

/-- The most-preferred qualified source (R141); 0 for none. -/
def State.bestQual (s : State) : Nat := (s.sources.find? fun c => (s.track c).qualified).getD 0

/-- Is `a` listed before `b`? -/
def State.prefers (s : State) (a b : Nat) : Bool :=
  s.sources.contains a && !((s.sources.takeWhile (· != a)).contains b) && a != b

/-! ### TE_FREQ and the time spent LOCKED (R145, R151, R152) -/

/-- ±200 ppm in units of 2^-16 ppm. -/
def freqMax : Nat := 13107200

/-- Servo bandwidth ceiling of a profile in mHz (R177). -/
def profileCeil (p : Nat) : Nat := match p with | 0 => 250 | 3 => 100 | _ => 1000

/-- The loop bandwidth in force (R143): as configured, up to the ceiling of the current profile; 0 selects the ceiling. -/
def State.loopBandwidth (s : State) : Nat :=
  if s.time.bandwidth == 0 then profileCeil s.stroke.profile else min s.time.bandwidth (profileCeil s.stroke.profile)

/-- The servo's next frequency estimate: the spec bounds it, and its change by the loop bandwidth, and gives no law (R151;
log 7). -/
def drawFreq (s : State) : Int × State :=
  let v := Config.servoLaw s.loopBandwidth s.free
  (((v.toNat % (2 * freqMax + 1) : Nat) : Int) - freqMax, { s with free := s.free + 1 })

/-- Keep at most 60 s of segments. -/
def trimSegs : Nat → List (Nat × Int) → List (Nat × Int)
  | _, [] => []
  | room, (d, f) :: l => if room == 0 then [] else (min d room, f) :: trimSegs (room - min d room) l

/-- Close the running LOCKED segment. -/
def closeSeg (t : TimeEng) : TimeEng :=
  if t.servo == .locked then
    { t with lockSegs := trimSegs 960000000000 ((t.mono - t.segFrom, t.freq) :: t.lockSegs), segFrom := t.mono }
  else { t with segFrom := t.mono }

def setFreq (f : Int) (t : TimeEng) : TimeEng := { closeSeg t with freq := f }

/-- The mean TE_FREQ over the segments, rounded down (R152). -/
def segMean (l : List (Nat × Int)) (dflt : Int) : Int :=
  let tot : Nat := l.foldl (fun (a : Nat) (p : Nat × Int) => a + p.1) 0
  let w : Int := l.foldl (fun (a : Int) (p : Nat × Int) => a + (p.1 : Int) * p.2) 0
  if tot == 0 then dflt else w / (tot : Int)

/-! ### Servo states (R144) -/

/-- Enter a servo state on a source. LOCAL means LEAD; a pending step is dropped when the servo leaves ACQUIRE or
moves to another source (R149). -/
def goServo (st : Quality) (src : Nat) (s : State) : State :=
  let st := if src == 5 then .lead else st
  let old := s.time.servo
  let moved := src != s.time.source
  let s := s.modTime closeSeg
  let s := s.modTime fun t => { t with
    servo := st
    source := src
    pending := if st != .acquire || moved then none else t.pending
    lock := if st == .acquire && (old != .acquire || moved) then 0 else t.lock
    acqSamples := if st == .acquire && (old != .acquire || moved) then 0 else t.acqSamples
    unlockRun := if st == .locked && old == .locked && !moved then t.unlockRun else 0
    freq := if st == .holdover && old != .holdover then segMean t.lockSegs t.freq
            else if (st == .free || st == .lead) && old != st then 0 else t.freq
    holdFrom := if st == .holdover && old != .holdover then t.mono else t.holdFrom }
  let s := if old == .locked && st == .acquire then raiseFault Src.servoUnlock 0 unitNone s else s
  if st == .holdover && old != .holdover then raiseFault Src.servoHoldover 0 unitNone s else s

/-- The selected source is lost, by its timeout or by leaving the list (R144, R146). -/
def selectedLost (s : State) : State :=
  match s.time.servo with
  | .acquire => if s.bestValid != 0 then goServo .acquire s.bestValid s else goServo .free 0 s
  | .locked =>
    if s.bestQual != 0 then goServo .locked s.bestQual s
    else if s.bestValid != 0 then goServo .acquire s.bestValid s
    else goServo .holdover s.time.source s
  | _ => s

/-- A source loses validity and qualification (R138, R141). -/
def loseSource (c : Nat) (s : State) : State :=
  let s := s.setTrack c fun k => { k with valid := false, qualified := false, count := 0 }
  if s.time.source == c then selectedLost s else s

/-- The servo estimates frequency from the first two samples after the entry to ACQUIRE and from every one after those
(R145). -/
def estimate (s : State) : State :=
  let s := s.modTime fun t => { t with acqSamples := t.acqSamples + 1 }
  if 2 ≤ s.time.acqSamples then
    let r := drawFreq s
    r.2.modTime (setFreq r.1)
  else s

/-- The sample's part in TE_LOCK.count, or the step it orders (R145, R149). -/
def lockSample (c : Nat) (ofs : Int) (counts : Bool) (s : State) : State :=
  if s.time.servo == .acquire && 16000 ≤ ofs.natAbs then
    s.modTime fun t => { t with
      lock := 0, pending := some (c, (match t.pending with | some (_, p) => p | none => 0) - ofs) }
  else if counts && s.time.pending.isNone then
    let s := s.modTime fun t => { t with lock := if ofs.natAbs ≤ s.threshold c then min 16 (t.lock + 1) else 0 }
    if s.time.servo == .acquire && s.time.lock == 16 then goServo .locked c s else s
  else s

/-- The sample that causes the entry to ACQUIRE: it does not count, and the frequency is not estimated from it (R145). -/
def entrySample (c : Nat) (ofs : Int) (s : State) : State :=
  lockSample c ofs false (s.modTime fun t => { t with ofs := ofs })

/-- Any other sample of the selected source. `counts` is false for the first after a retrain (R495). -/
def servoSample (c : Nat) (ofs : Int) (counts : Bool) (s : State) : State :=
  lockSample c ofs counts (estimate (s.modTime fun t => { t with ofs := ofs }))

/-- A valid sample of source `c` taken at `stamp`, with its offset against VT64 (R138, R141, R144). The offset of a sample
taken while a step of its source is pending is measured after the step (R149). DESIGN CHOICE, safe: the selected source is
counted and shown as qualified like any other, R141 speaking of the others (log 151). -/
def sample (c : Nat) (stamp : W64) (ofs : Int) (counts : Bool) (s : State) : State :=
  if !s.ready Rdy.servo || !s.sources.contains c then s
  else
    let ofs := match s.time.pending with
      | some (k, p) => if k == c && s.time.source == c then ofs + p else ofs
      | none => ofs
    let within := ofs.natAbs ≤ s.threshold c
    let s := s.setTrack c fun k =>
      let n := if within then min 16 (k.count + 1) else 0
      { k with
        valid := true, count := n, qualified := n == 16
        samples := k.samples + 1
        within := if within then k.within + 1 else k.within
        lastOfs := ofs, lastVt := stamp, lastMono := s.time.mono }
    let sel := s.time.source
    match s.time.servo with
    | .free | .holdover =>
      let b := s.bestValid
      let s := goServo .acquire b s
      if b == c then entrySample c ofs s else s
    | .lead => if s.prefers c 5 then entrySample c ofs (goServo .acquire c s) else s
    | .acquire =>
      if c == sel then servoSample c ofs counts s
      else if s.prefers c sel then entrySample c ofs (goServo .acquire c s)
      else s
    | .locked =>
      if c == sel then
        let run := if 4 * s.threshold c < ofs.natAbs then s.time.unlockRun + 1 else 0
        let s := s.modTime fun t => { t with unlockRun := run }
        if run == 4 then entrySample c ofs (goServo .acquire c s) else servoSample c ofs counts s
      else if s.prefers c sel && (s.track c).qualified then goServo .locked c s
      else s

/-- Apply a pending step at the boundary, if the servo is still in ACQUIRE on the source that ordered it (R149);
the stamps of samples not yet processed, and the PPS reference, are corrected by it (R150). -/
def applyStep (s : State) : State :=
  match s.time.pending with
  | none => s
  | some (c, d) =>
    let s := s.modTime fun t => { t with pending := none }
    if s.time.servo == .acquire && s.time.source == c then
      let s := s.modTime fun t => { t with
        vt64 := t.vt64 + i64 d
        step := d
        era := (t.era + 1) % 256
        lock := 0
        ppsRef := t.ppsRef.map fun r => (r.1 + i64 d, r.2)
        ppsFall := t.ppsFall.map (· + i64 d)
        relay := t.relay.map fun x => (x.1, x.2 + i64 d)
        ports := t.ports.map fun p => (p.1, { p.2 with
          pendSync := p.2.pendSync.map fun x => (x.1, x.2.1 + i64 d, x.2.2)
          pdelayT1 := p.2.pdelayT1.map fun x => (x.1, x.2 + i64 d)
          pdelayPrev := p.2.pdelayPrev.map fun x => (x.1, x.2 + i64 d) }) }
      let s := s.modLink fun l => { l with ptmSent := l.ptmSent.map fun x => (x.1 + i64 d, x.2) }
      let s := s.modPorts fun p => { p with trigs := p.trigs.map fun x => (x.1, { x.2 with fall := x.2.fall.map (· + i64 d) }) }
      raiseFault Src.vtStep 0 unitNone s
    else s

/-- The list or the roles have changed: the selected source may have left the list, LOCAL may be first valid, or may
have left (R142, R146). -/
def sourcesChanged (s : State) : State :=
  let sel := s.time.source
  let s := s.modTime fun t => { t with
    tracks := t.tracks.map fun k => if s.sources.contains k.1 then k
      else (k.1, { k.2 with valid := false, qualified := false, count := 0 }) }
  if s.bestValid == 5 && s.time.servo != .lead then goServo .lead 5 s
  else if sel == 5 && !s.sources.contains 5 then
    if s.bestValid != 0 then goServo .acquire s.bestValid s else goServo .free 0 s
  else if sel != 0 && sel != 5 && !s.sources.contains sel then selectedLost s
  else s

/-- The servo enters ACQUIRE as though its source had just become valid (R132, R165). With LOCAL no time moves; in FREE the
servo has no source (TE_STAT.source 0), and the next one's first sample enters ACQUIRE (DEDUCED, safe; log 152). -/
def reacquire (s : State) : State :=
  match s.time.servo with
  | .acquire => s.modTime fun t => { t with lock := 0, acqSamples := 0 }
  | .locked | .holdover => goServo .acquire s.time.source s
  | .free | .lead => s

/-- TE_HOLD (R152, R167). -/
def teHold (t : TimeEng) : Nat := if t.servo == .holdover then (t.mono - t.holdFrom) / 16000000 else 0

/-- Sources qualified, or with a valid sample, one bit each from source 1 (R141, R169). -/
def srcBits (t : TimeEng) (f : Track → Bool) : Nat :=
  t.tracks.foldl (fun a k => if f k.2 && 1 ≤ k.1 then a + 2 ^ (k.1 - 1) else a) 0

/-- TE_STAT (R167). -/
def teStat (s : State) : W32 :=
  let t := s.time
  w32 (2 ^ 24 * srcBits t (·.qualified) + 2 ^ 16 * t.era + 2 ^ 11 * bit t.ref10Lost + 2 ^ 10 * bit t.ref10 +
    2 ^ 9 * bit t.path + 2 ^ 4 * t.source + qualCode s.quality)

/-! ### PTP time (R131, R133) -/

def State.epoch (s : State) : Int := s.tune 1

/-- A PTP time in vt since the epoch: a correction is in 2^-16 ns, 4,096 of them a vt, rounded to the nearest (R131; a half
upwards: log 153). -/
def ptpToVt (s : State) (p : PtpTime) : Int := ((p.sec : Int) - s.epoch) * 16000000000 + 16 * p.ns + (p.corr + 2048) / 4096

/-- VT64 as a PTP time. -/
def vtToPtp (s : State) (v : Int) : PtpTime :=
  { sec := (v / 16000000000 + s.epoch).toNat, ns := (v % 16000000000).toNat / 16, corr := 4096 * (v % 16) }

def vtRangeOk (v : Int) : Bool := 0 ≤ v && v < 2 ^ 64

/-! ### gPTP (R138, R158 to R160; log 12) -/

def State.port (s : State) (p : Nat) : GptpPort := tabGet s.time.ports p {}
def State.setPort (s : State) (p : Nat) (f : GptpPort → GptpPort) : State :=
  s.modTime fun t => { t with ports := tabMod t.ports p {} f }
def State.gptpRole (s : State) (p : Nat) : Nat := if s.time.gptpMask.getLsbD p then s.time.gptpRoles[p]! else 0

/-- The device's clock identity: not in the spec (log 14). -/
def clockIdentity : Nat := (List.range 8).foldl (fun a i => 256 * a + (Config.identity 9 i).toNat) 0

/-- A priority vector as one number, most significant first. -/
def prioVec (p1 cls acc var p2 gm steps : Nat) : Nat :=
  ((((((p1 * 256 + cls) * 256 + acc) * 65536 + var) * 256 + p2) * 2 ^ 64) + gm) * 65536 + steps
def announceVec (a : AnnounceMsg) (extra : Nat) : Nat :=
  prioVec a.priority1.toNat a.clockClass.toNat a.accuracy.toNat a.variance.toNat a.priority2.toNat a.gm.toNat
    (a.stepsRemoved.toNat + extra)
def ownVec : Nat := prioVec 246 248 0xFE 0x436A 248 clockIdentity 0

/-- BMCA over the DYNAMIC ports: slave on the port with the best vector unless the device's own is better; a port that
hears better than it would send is passive, any other master (R158; log 12). -/
def bmca (s : State) : State :=
  let dyn := (List.range 8).filter fun p => s.gptpRole p == 1
  let cand := dyn.filterMap fun p => (s.port p).announce.map fun a => (announceVec a 1, p)
  let best := cand.foldl (fun (b : Nat × Option Nat) c => if c.1 < b.1 then (c.1, some c.2) else b) (ownVec, none)
  let s := dyn.foldl (fun s p =>
    let st := if best.2 == some p then 2
      else match (s.port p).announce with
        | some a => if announceVec a 0 < best.1 then 3 else 1
        | none => 1
    s.setPort p fun g => { g with state := st }) s
  match best.2 with
  | some p => match (s.port p).announce with
    | some a => s.modTime fun t => { t with gmId := a.gm, stepsRemoved := a.stepsRemoved.toNat + 1 }
    | none => s
  | none => if dyn.isEmpty then s else s.modTime fun t => { t with gmId := w64 clockIdentity, stepsRemoved := 0 }

/-- The port states GPTP_CONFIG leaves (R159, R169). -/
def applyRoles (s : State) : State :=
  let s := (List.range 8).foldl (fun s p => s.setPort p fun g => { g with
    state := (match s.gptpRole p with | 2 => 1 | 3 => 2 | 1 => 1 | _ => 0)
    announce := none, logSync := s.time.gptpLogSync }) s
  bmca s

/-- The device's gPTP stack takes messages on this port: it runs gPTP, and the safe state is not entered (R148). -/
def State.gptpRuns (s : State) (p : Nat) : Bool :=
  s.alive && s.ready Rdy.gptp && p < 8 && s.gptpRole p != 0 && !s.fcu.safe

/-- Arrival and departure stamps of an event message: at the SerDes, less or plus the PHY's latency (R157). -/
def State.rxStamp (s : State) (p : Nat) : W64 := s.now - i64 (s.tune (0x140 + p))
def State.txStamp (s : State) (p : Nat) : W64 := s.now + i64 (s.tune (0x148 + p))

/-- A Sync's time, at its arrival, gives a sample (R138): the offset is the arrival stamp less the source's time there,
which is what the message carries plus the link delay. A time outside R133, a new grandmaster or a port not asCapable makes
it none. -/
def gptpSample (p : Nat) (arrived : W64) (time : PtpTime) (known : Bool) (s : State) : State :=
  let s := s.modTime fun t => { t with relay := some (time, arrived) }
  let src := ptpToVt s time + (s.port p).linkDelay.toNat
  if !vtRangeOk src then raiseFault Src.vtRange 0 unitNone s
  else if !known || !(s.port p).asCapable then s
  else sample 1 arrived ((arrived.toNat : Int) - src) true s

/-- GPTP_SYNC_RECEIVE: a Sync with a new grandmaster ends the source and is no sample (R138). -/
def syncReceive (p : Nat) (m : SyncMsg) (s : State) : State :=
  if m.domain.toNat != s.time.gptpDomain then s
  else
    let arrived := s.rxStamp p
    let g := s.port p
    let s := s.setPort p fun g => { g with syncRx := g.syncRx + 1 }
    if g.state != 2 then s
    else
      let fresh := match g.prevGm with | some x => x != m.gm | none => false
      let s := s.setPort p fun g => { g with prevGm := some m.gm, logSync := m.logIntvl, pendSync := none }
      let s := s.modTime fun t => { t with gmId := m.gm }
      let s := if fresh then loseSource 1 s else s
      if m.twoStep then s.setPort p fun g => { g with pendSync := some (m.seq.toNat, arrived, !fresh) }
      else gptpSample p arrived m.time (!fresh) s

/-- GPTP_FOLLOW_UP_RECEIVE (R158). -/
def followUpReceive (p : Nat) (seq : W16) (time : PtpTime) (s : State) : State :=
  let g := s.port p
  let s := s.setPort p fun g => { g with followRx := g.followRx + 1 }
  match g.pendSync with
  | some (n, arrived, known) =>
    if n == seq.toNat && g.state == 2 then
      gptpSample p arrived time known (s.setPort p fun g => { g with pendSync := none })
    else s
  | none => s

/-- GPTP_ANNOUNCE_RECEIVE (R158). -/
def announceReceive (p : Nat) (m : AnnounceMsg) (s : State) : State :=
  let s := s.setPort p fun g => { g with announceRx := g.announceRx + 1 }
  if m.domain.toNat == s.time.gptpDomain then
    if s.gptpRole p == 1 then bmca (s.setPort p fun g => { g with announce := some m })
    else if (s.port p).state == 2 then
      (s.setPort p fun g => { g with announce := some m }).modTime fun t => { t with gmId := m.gm, stepsRemoved := m.stepsRemoved.toNat + 1 }
    else s
  else s

/-- neighborRateRatio − 1 in 2^-30 from two responses' t3 and the arrivals t4 of them, as IEEE 802.1AS forms it (log 12). -/
def rateRatioOf (t3 t4 p3 p4 : W64) : Int :=
  let local' := (t4 - p4).toInt
  if local' == 0 then 0 else ((t3 - p3).toInt - local') * 2 ^ 30 / local'

/-- meanLinkDelay in vt of an exchange (log 12): half of the time it took here, at the neighbour's rate, less the time it
took there. -/
def peerDelay (t1 t2 t3 t4 : W64) (ratio : Int) : Nat :=
  let here := (t4 - t1).toInt
  ((here + here * ratio / 2 ^ 30 - (t3 - t2).toInt) / 2).toNat

/-- A response to the request outstanding on the port. -/
def pdelayAnswer (t1 t2 t3 t4 : W64) (g : GptpPort) : GptpPort :=
  let ratio := match g.pdelayPrev with | some x => rateRatioOf t3 t4 x.1 x.2 | none => g.rateRatio.toInt
  let d := peerDelay t1 t2 t3 t4 ratio
  { g with
    pdelayRx := g.pdelayRx + 1, linkDelay := w32 d, rateRatio := i32 ratio, missed := 0, asCapable := d ≤ 12800
    pdelayT1 := none, pdelayPrev := some (t3, t4) }

/-- GPTP_PDELAY_RECEIVE (R157, R158): a request is answered with the stamps of its arrival and of the answer; an exchange
sets the link delay, and asCapable while the delay is at most neighborPropDelayThresh, 800 ns; nine losses in a row clear it
(log 12). A Signaling message's interval is honoured on a port that sends Syncs, within R158's range. -/
def pdelayReceive (p : Nat) (m : PdelayMsg) (s : State) : State :=
  match m with
  | .req seq => s.emit (.gptp p (.pdelayResp seq.toNat (s.rxStamp p) (s.txStamp p)))
  | .resp seq t2 t3 =>
    match (s.port p).pdelayT1 with
    | some (n, t1) => if n == seq.toNat then s.setPort p (pdelayAnswer t1 t2 t3 (s.rxStamp p)) else s
    | none => s
  | .lost => s.setPort p fun g => { g with
      pdelayLost := g.pdelayLost + 1, missed := g.missed + 1, pdelayT1 := none
      asCapable := g.asCapable && g.missed + 1 < 9 }
  | .signaling k =>
    if (s.port p).state == 1 && decide (-7 ≤ k) && decide (k ≤ 0) then s.setPort p fun g => { g with logSync := k } else s

/-- A port relays the grandmaster's time while GPTP is the selected source (R160). -/
def State.relays (s : State) : Bool := s.time.source == 1

/-- The time a master port sends for a Sync that left at `stamp` (R160): relayed, the grandmaster's with the link delay and
the residence time added to the correction field; else VT64. -/
def masterTime (stamp : W64) (s : State) : PtpTime :=
  match s.relays, s.time.relay, s.time.ports.find? fun p => p.2.state == 2 with
  | true, some (time, arrived), some slave =>
    { time with corr := time.corr + 4096 * (slave.2.linkDelay.toNat + (stamp - arrived).toInt) }
  | _, _, _ => vtToPtp s stamp.toNat

/-- GPTP_SYNC_TRANSMIT: a two-step Sync on a master port (R158, R160). -/
def syncTransmit (p : Nat) (s : State) : State :=
  let g := s.port p
  if g.state == 1 then
    let stamp := s.txStamp p
    let s := s.setPort p fun g => { g with seqTx := g.seqTx + 1, syncTx := g.syncTx + 1 }
    (s.emit (.gptp p (.sync (g.seqTx % 65536) stamp))).emit (.gptp p (.followUp (g.seqTx % 65536) (masterTime stamp s)))
  else s

def pdelayReqTransmit (p : Nat) (s : State) : State :=
  let g := s.port p
  let stamp := s.txStamp p
  (s.setPort p fun g => { g with
    seqTx := g.seqTx + 1, pdelayTx := g.pdelayTx + 1, pdelayT1 := some (g.seqTx % 65536, stamp) }).emit
    (.gptp p (.pdelayReq (g.seqTx % 65536) stamp))

/-- The Announce of a device that is the grandmaster: the attributes of R158. -/
def ownAnnounce (s : State) : AnnounceMsg :=
  { gm := w64 clockIdentity, domain := w8 s.time.gptpDomain, priority1 := 246, clockClass := 248, accuracy := 0xFE
    variance := 0x436A, priority2 := 248, stepsRemoved := 0, timeSource := 0xA0 }

/-- The Announce a master port sends (R160): relayed, the grandmaster's as the slave port heard it; else the device itself as
the grandmaster. -/
def announceOut (s : State) : AnnounceMsg :=
  match s.relays, s.time.ports.find? fun p => p.2.state == 2 with
  | true, some slave =>
    match slave.2.announce with
    | some a => { a with stepsRemoved := a.stepsRemoved + 1 }
    | none => { ownAnnounce s with gm := s.time.gmId, stepsRemoved := w16 s.time.stepsRemoved }
  | _, _ => ownAnnounce s

def announceTransmit (p : Nat) (s : State) : State :=
  if (s.port p).state == 1 then s.emit (.gptp p (.announce (announceOut s))) else s

/-- GPTP_RECEIPT_TIMEOUT (R158). -/
def receiptTimeout (p : Nat) (isSync : Bool) (s : State) : State :=
  let s := s.setPort p fun g => { g with
    syncTimeouts := if isSync then g.syncTimeouts + 1 else g.syncTimeouts
    announce := none }
  if s.gptpRole p == 1 then bmca s else s

/-! ### PPS (R138, R156, R161, R162) -/

/-- A stamped PPS_IN edge of the configured polarity as a servo input: within 1 s ± 200 µs of the reference it is a
sample and the new reference; with no reference it becomes one; any other is not accepted (R138). -/
def ppsInput (stamp : W64) (s : State) : State :=
  let ref := match s.time.ppsRef with
    | some (v, m) => if s.time.mono < 24000000000 + m then some v else none
    | none => none
  match ref with
  | none => s.modTime fun t => { t with ppsRef := some (stamp, t.mono) }
  | some v =>
    let d : Int := (stamp - v).toInt - 16000000000
    if d.natAbs ≤ 3200000 then
      let s := s.modTime fun t => { t with ppsRef := some (stamp, t.mono) }
      let r := stamp.toNat % 16000000000
      let ofs : Int := if r < 8000000000 then r else (r : Int) - 16000000000
      let pend := match s.time.pending with | some (2, p) => if s.time.source == 2 then p else 0 | _ => 0
      let ofs' := if pend == 0 then ofs else
        let q := ((stamp.toNat : Int) + pend) % 16000000000
        (if q < 8000000000 then q else q - 16000000000) - pend
      sample 2 stamp ofs' true s
    else s

/-- PPS_IN_EDGE: the configured edge is stamped in every state, asserts producer 504, posts its bound events and is a
servo input (R161, R162, R400, R424). -/
def ppsInEdge (rising : Bool) (s : State) : State :=
  if rising != (s.time.ppsEdge == 0) then s
  else if !s.edgeStamped 48 then s.modTime fun t => { t with ppsMiss := t.ppsMiss + 1 }
  else
    let st := s.stamp 48
    let s := markEdge 48 s
    let s := assertProducer 504 s
    let s := postBound 4 (fun src => src == 0x6000) none st s.quality s
    ppsInput st s

/-- An edge of PPS_OUT, read back at the ball, is stamped (R36, R154, R156). -/
def ppsOutEdge (s : State) : State :=
  if s.edgeStamped 49 then (markEdge 49 s).modTime fun t => { t with ppsOutStamp := s.stamp 49 } else missEdge 49 s

/-- PPS_OUT_FALL (R161). -/
def ppsFall (s : State) : State :=
  match s.time.ppsFall with
  | some m => ppsOutEdge (((s.bringVt m).modPins fun p => { p with ppsOut := false }).modTime fun t => { t with ppsFall := none })
  | none => s

/-- PPS_OUT_RISE: at the next VT64 where VT64 − out_offset_vt is a multiple of 1 s, while the quality is LOCKED,
HOLDOVER or LEAD and the safe state does not hold the pin; a pulse in progress ends first (R33, R161, R162). -/
def ppsRise (s : State) : State :=
  let s := ppsFall s
  let r := ((s.now.toNat : Int) - s.time.ppsOfs) % 16000000000
  let s := if r == 0 then s else s.advanceVt (16000000000 - r).toNat
  match s.quality with
  | .locked | .holdover | .lead =>
    if s.pins.safeHeld then s
    else
      let s := s.modPins fun p => { p with ppsOut := true }
      let s := s.modTime fun t => { t with ppsFall := some (t.vt64 + w64 t.ppsWidth) }
      assertProducer 505 (ppsOutEdge s)
  | _ => s

/-! ### Time base (R26, R153, R155) -/

def ref10InLoss (s : State) : State :=
  if s.time.ref10 then
    raiseFault Src.ref10Lost 0 unitNone (s.modTime fun t => { t with ref10 := false, ref10Lost := true })
  else s

/-- A crystal path fails: where it is the one in service or standing ready, the other takes its place, unless that one
has failed as well (R153). -/
def pathFailure (path : Nat) (s : State) : State :=
  let b := path == 1
  if s.time.pathFailed.getLsbD (path % 2) then s
  else
    let s := s.modTime fun t => { t with pathFailed := putBit t.pathFailed (path % 2) true }
    let s := s.modHealth fun h => { h with oscStandby := false }
    if s.time.path == b && !s.time.pathFailed.getLsbD (if b then 0 else 1) then
      let s := s.modTime fun t => { t with path := !b }
      let s := s.modEm fun e => { e with oscB := !b }
      raiseFault Src.oscPath 0 unitNone s
    else s

/-- A calibration of one TDC: a residual above 16 vt raises TDC_CAL and keeps the codes (R155). -/
def tdcCalibrate (pin residual : Nat) (code : W32) (s : State) : State :=
  if 16 < residual then raiseFault Src.tdcCal (w64 pin) unitNone s
  else s.modTime fun t => { t with tdc := tabSet t.tdc pin code }

/-! ### PTM (R163 to R165) -/

/-- A completed dialog: a record, and a sample of PTM (R163, R165). The master time of the request's instant is t2 less
the propagation delay. -/
def ptmComplete (t2 : W64) (propNs : W32) (s : State) : State :=
  match s.link.ptmSent with
  | none => s
  | some (vt, quality, era) =>
    let host := t2.toNat - propNs.toNat
    let rec' : PtmRec := { vt, hostNs := w64 host, propNs, quality, era }
    let s := s.modLink fun l => { l with ptmSent := none }
    let s := s.modTime fun t => { t with ptmRecs := (t.ptmRecs ++ [rec']).drop (t.ptmRecs.length + 1 - 64) }
    let src : Int := 16 * host + s.time.ptmOfs.toInt
    if vtRangeOk src then sample 3 vt ((vt.toNat : Int) - src) true s else raiseFault Src.vtRange 0 unitNone s

/-- The 32 bytes of a record (R164). -/
def ptmBytes (r : PtmRec) : List Byte :=
  leBytes 8 r.vt.toNat ++ leBytes 8 r.hostNs.toNat ++ leBytes 4 r.propNs.toNat ++
  leBytes 1 (qualCode r.quality) ++ leBytes 1 r.era ++ leBytes 10 0

/-- TE_PTM_OFS takes effect at the boundary and, while PTM is selected, sends the servo into ACQUIRE (R165). -/
def applyPtmOfs (s : State) : State :=
  match s.time.ptmOfsNext with
  | none => s
  | some v =>
    let s := s.modTime fun t => { t with ptmOfs := v, ptmOfsNext := none }
    if s.time.source == 3 then reacquire s else s

/-! ### Snapshot group 0 and TIME_STATUS (R169, R170) -/

/-- A clockIdentity's bytes in transmission order from bit 0 (R169). -/
def swapBytes (v : W64) : W64 := w64 (leNat ((leBytes 8 v.toNat).reverse))

def group0 (s : State) : List W32 :=
  let t := s.time
  let states := (List.range 8).foldl (fun a p => a + (s.port p).state * 4 ^ p) 0
  let slave := t.ports.find? fun p => p.2.state == 2
  [teStat s, w32 t.lock, lo32 (i64 t.ofs), hi32 (i64 t.ofs), i32 t.freq, w32 (teHold t), lo32 (i64 t.step),
    hi32 (i64 t.step), lo32 t.ptmOfs, hi32 t.ptmOfs, lo32 (swapBytes t.gmId), hi32 (swapBytes t.gmId),
    w32 (65536 * states + t.stepsRemoved % 256), (match slave with | some p => p.2.linkDelay | none => 0),
    w32 (srcBits t (·.valid)), 0]

def wordsBytes (ws : List W32) : List Byte := (ws.map fun w => leBytes 4 w.toNat).flatten

def timeStatusBytes (s : State) (g0 : List W32) : List Byte :=
  wordsBytes g0 ++
  ((List.range 8).map fun p =>
    let g := s.port p
    leBytes 1 g.state ++ leBytes 1 (bit g.asCapable) ++ leBytes 1 (s.gptpRole p) ++ leBytes 1 (g.logSync % 256).toNat ++
    wordsBytes [g.linkDelay, g.rateRatio, g.syncRx, g.syncTx, g.followRx, g.pdelayTx, g.pdelayRx, g.pdelayLost,
      g.announceRx, g.syncTimeouts] ++ leBytes 20 0).flatten ++
  ((List.range 4).map fun i =>
    let k := s.track (i + 1)
    wordsBytes [k.samples, k.within] ++ leBytes 8 (i64 k.lastOfs).toNat ++ leBytes 8 k.lastVt.toNat ++
    wordsBytes [k.timeouts, 0]).flatten

/-- VT64 begins to count at power-on (R66): from the last saved value plus 2^34, or from 0 on a device with no history;
the servo starts in FREE, or LEAD where the stored list contains LOCAL. -/
def startVt (s : State) : State :=
  let s := s.modTime fun t => { t with
    counting := true
    vt64 := if s.em.marker then s.em.savedVt + 0x400000000 else 0
    ref10 := s.boot.straps.getLsbD 2
    path := s.em.oscB }
  if s.sources.contains 5 then goServo .lead 5 s else s

end Sys2Proof.Machine
end

