-- ==== Sys2Proof/Machine/Gates.lean ====
section
/-! DEFINITION. Plans, fret gates, jobs and overruns (R177 to R197). -/
namespace Sys2Proof.Machine

/-! ### Profiles (R177) -/

/-- Courses of a profile; Service takes every course that is ready, or the fewer of them DIAG firmware powers. -/
def profileMask (s : State) (p : Nat) : BitVec 16 :=
  match p with | 0 => 0x000F | 1 => 0x0FFF | 2 => 0xFFFF | 3 => 0x0003 | _ => s.boot.courseReady &&& s.boot.diagMask
/-- ECLK code of a profile; DIAG firmware selects it in Service. -/
def profileEclk (s : State) (p : Nat) : Nat := match p with | 0 => 0 | 1 => 1 | 2 => 2 | 3 => 0 | _ => s.boot.diagEclk
/-- Minimum stroke of a profile in ns. -/
def profileMin (p : Nat) : Nat := match p with | 0 => 100000 | 1 => 20000 | 2 => 10000 | 3 => 100000 | _ => 10000
/-- Power envelope in mW. -/
def profilePower (p : Nat) : Nat := match p with | 0 => 20000 | 1 => 50000 | 2 => 85000 | 3 => 24000 | _ => 85000

/-- Cycles of a stroke, C, and usable cycles, U, of R184; Service counts at 0.8 GHz. -/
def strokeCycles (profile period : Nat) : Nat :=
  period * (match profile with | 0 => 8 | 1 => 12 | 2 => 16 | _ => 8) / 10
def usableCycles (profile period : Nat) : Nat :=
  let c := strokeCycles profile period
  c - (c + 3999) / 4000

/-! ### Plans (R183, R184) -/

/-- A job entry, and whether its reserved flags are 0. -/
def parseJob (b : List Byte) : PlanJob × Bool :=
  let f := fun i => (b[i]?.getD 0).toNat
  ({ course := f 0, slot := f 1, fret := f 2, crit := f 3 % 2 == 1, budget := leNat ((b.drop 4).take 4),
     entry := w32 (leNat ((b.drop 8).take 4)), arg := w32 (leNat ((b.drop 12).take 4)) }, f 3 < 2)

def parseJobs (b : List Byte) : Nat → List (PlanJob × Bool)
  | 0 => []
  | n + 1 => parseJob b :: parseJobs (b.drop 16) n

/-- Field ranges, order, and at most 64 jobs per engine: the index of the first failing entry. -/
def badEntry (mask u : Nat) : List (PlanJob × Bool) → Nat → Option PlanJob → Nat → Option Nat
  | [], _, _, _ => none
  | (j, ok) :: js, i, prev, run =>
    let key := fun (x : PlanJob) => (x.course * 16 + x.slot) * 64 + x.fret
    let same := match prev with | some p => p.course == j.course && p.slot == j.slot | none => false
    let run' := if same then run + 1 else 1
    let ordered := match prev with | some p => key p ≤ key j | none => true
    if ok && j.course < 16 && bitsAt mask j.course 1 == 1 && j.slot < 12 && j.fret < 64 && 1 ≤ j.budget && j.budget ≤ u &&
       j.entry.toNat % 4 == 0 && ordered && run' ≤ 64
    then badEntry mask u js (i + 1) (some j) run'
    else some i

/-- Planned ends (R184): the index of the first entry that ends beyond U. -/
def badFit (c u : Nat) : List (PlanJob × Bool) → Nat → Option PlanJob → Nat → Option Nat
  | [], _, _, _ => none
  | (j, _) :: js, i, prev, e =>
    let same := match prev with | some p => p.course == j.course && p.slot == j.slot | none => false
    let r := max (j.fret * c / 64) (if same then e else 0)
    let e' := r + j.budget
    if e' ≤ u then badFit c u js (i + 1) (some j) e' else some i

/-- The checks of R184 in order: status and result of the first that fails, or the plan. -/
def checkPlan (b : List Byte) (len : Nat) : Except (Nat × Nat) Plan :=
  let f4 := fun i => leNat ((b.drop i).take 4)
  let f2 := fun i => leNat ((b.drop i).take 2)
  let f1 := fun i => (b[i]?.getD 0).toNat
  let n := f4 0x0C
  let hdrOk := f4 0 == 0x4E414C50 && f2 4 == 1 && f1 7 == 0 && f2 0x12 == 0 &&
    ((b.drop 0x20).take 32).all (· == 0) && f1 6 ≤ 4 && 10000 ≤ f4 8 && f4 8 ≤ 10000000 && f4 8 % 4 == 0 &&
    1 ≤ n && n ≤ 12288 && len == 64 + 16 * n
  if !hdrOk then .error (Stat.verifyFailed, 1)
  else if crc32c (listPatch (b.take len) 0x14 [0, 0, 0, 0]) != w32 (f4 0x14) then .error (Stat.verifyFailed, 4)
  else
    let jobs := parseJobs (b.drop 64) n
    let u := usableCycles (f1 6) (f4 8)
    match badEntry (f2 0x10) u jobs 0 none 0 with
    | some i => .error (Stat.invalidField, i)
    | none => match badFit (strokeCycles (f1 6) (f4 8)) u jobs 0 none 0 with
      | some i => .error (Stat.invalidField, i)
      | none => .ok { profile := f1 6, period := f4 8, mask := w16 (f2 0x10), crc := w32 (f4 0x14),
                      planId := w64 (leNat ((b.drop 0x18).take 8)), jobs := jobs.map (·.1) }

/-! ### Gates (R186 to R189) -/

def gateKey (course slot : Nat) : Nat := 12 * course + slot
def State.gate (s : State) (k : Nat) : Gate := tabGet s.stroke.gates k {}
def State.setGate (s : State) (k : Nat) (f : Gate → Gate) : State :=
  s.modStroke fun t => { t with gates := tabMod t.gates k {} f }

/-- The physical engine that holds a slot (R532). -/
def State.slotEngine (s : State) (k : Nat) : Eng := ⟨k / 12, tabGet s.em.slotPhys k (k % 12)⟩

/-- The slot a physical engine holds. -/
def State.slotOf (s : State) (e : Eng) : Option Nat :=
  (List.range 12).find? fun i => s.slotEngine (12 * e.course + i) == e

/-- Is the running stroke rated (R67, R193)? The first 256 since the start are not, whatever their numbers. -/
def Stroke.rated (t : Stroke) : Bool := 256 ≤ t.stats.strokes

/-- Planned end of an engine's list (R184, R189). -/
def plannedEnd (s : State) (k : Nat) : Nat :=
  match s.stroke.active.bind fun i => tabFind s.stroke.plans i with
  | none => 0
  | some p =>
    let c := strokeCycles p.profile p.period
    (p.jobs.filter fun j => gateKey j.course j.slot == k).foldl (fun e j => max (j.fret * c / 64) e + j.budget) 0

/-- FG_STAT.state (R188): 0 WAIT, 1 RUN, 2 NOJOB, 3 OFF. -/
def gateState (s : State) (k : Nat) : Nat :=
  if !s.stroke.powered.getLsbD (k / 12) || !s.stroke.started then 3
  else
    let g := s.gate k
    if g.cur.isSome then 1 else if g.queue.isEmpty then 2 else 0

/-- FG_STAT (R188). -/
def fgStat (s : State) (k : Nat) : W32 :=
  let g := s.gate k
  w32 (65536 * g.job + 512 * bit g.adhoc + 256 * bit g.ovr + gateState s k)

/-- Set an interrupt's pend bit: a rising edge of its source (R276). -/
def irqEdge (n : Nat) (e : Engine) : Engine :=
  if e.st == .off then e else { e with irqPend := putBit e.irqPend n true }

/-- Release the head of a gate's list if its start fret has begun and no job runs (R186). Jobs of an earlier stroke have
begun. The safe state releases none (R515). -/
def release (k : Nat) (s : State) : State :=
  let g := s.gate k
  match g.cur, g.queue with
  | none, j :: rest =>
    if s.fcu.safe then s
    else if j.fret ≤ s.fretNow || j.stroke < s.stroke.num then
      s.setGate k fun g => { g with
        cur := some j, queue := rest, entry := j.entry, arg := j.arg, remain := j.budget, job := j.index
        adhoc := j.adhoc.isSome, ovr := false, ovrRated := false, fresh := true, excess := 0, relVt := s.stroke.vt }
    else s
  | _, _ => s

/-- Count an overrun (R190, R192, R193): the STROKE entry, the statistics, STK_OVERRUN. -/
def overrun (k fret : Nat) (s : State) : State :=
  let g := s.gate k
  let isRated := s.stroke.rated
  let res := w32 (4096 * (k % 12) + 256 * (k / 12) + fret)
  let s := s.setGate k fun g => { g with
    ovr := true, ovrRated := isRated, excess := 0, ratedOvr := if isRated then satAdd 32 g.ratedOvr 1 else g.ratedOvr }
  let s := s.modStroke fun t => { t with
    hitNow := t.hitNow || isRated
    loaded := t.loaded || isRated
    stats := { t.stats with
      ovrNow := satAdd 32 t.stats.ovrNow 1
      perCourse := if isRated then tabMod t.stats.perCourse (k / 12) 0 (satAdd 32 · 1) else t.stats.perCourse
      byFret := if isRated then tabMod t.stats.byFret (fret / 8) 0 (satAdd 32 · 1) else t.stats.byFret } }
  let s := postCovered 8 (k / 12) (unsolEntry s 8 res g.relVt) s
  raiseFault Src.stkOverrun 0 unitNone s

/-- A job skipped under SHED; a submitted one completes with ABORTED (R189, R191). -/
def skipJob (j : GateJob) (s : State) : State :=
  let s := s.modStroke fun t => { t with stats := { t.stats with skipNow := satAdd 32 t.stats.skipNow 1 } }
  match j.adhoc with
  | some r => finish r.qp r.cid Stat.aborted (w32 r.handle) s
  | none => s

/-- When an overrun job ends under SHED, each later job whose start fret has begun is skipped unless critical (R191). -/
def shedLater (k : Nat) (s : State) : State :=
  let begun := fun (j : GateJob) => j.fret ≤ s.fretNow || j.stroke < s.stroke.num
  let q := (s.gate k).queue
  let gone := q.filter fun j => begun j && !j.crit
  gone.foldl (fun s j => skipJob j s) (s.setGate k fun g => { g with queue := q.filter fun j => !(begun j && !j.crit) })

/-- The current job of a gate ends (R187): its completion, its statistics, SHED, and the release of the next. -/
def endJob (k : Nat) (s : State) : State :=
  let g := s.gate k
  match g.cur with
  | none => s
  | some j =>
    let s := s.setGate k fun g => { g with cur := none, fresh := false }
    let s := match j.adhoc with
      | some r => finish r.qp r.cid 0 (w32 r.handle) s
      | none => s
    let s := s.modStroke fun t => { t with stats := { t.stats with
      least := if t.rated then tabMod t.stats.least (k / 12) 0xFFFFFFFF (min g.remain) else t.stats.least
      largest := if g.ovrRated then max t.stats.largest (min g.excess 0xFFFFFFFF) else t.stats.largest } }
    let s := if g.ovr && s.stroke.policy == 2 then shedLater k s else s
    release k s

/-- Budget expiry of the running job (R190, R191): time passes to it, an overrun unless it already is one, and under
INTERRUPT the budget interrupt. -/
def budgetExpire (k : Nat) (s : State) : State :=
  let g := s.gate k
  let s := s.advance (s.vtOfCycles g.remain)
  let s := s.setGate k fun g => { g with remain := 0 }
  let s := if g.ovr then s.setGate k fun g => { g with excess := 0 } else overrun k s.fretNow s
  if s.stroke.policy == 1 then s.setEngine (s.slotEngine k) (irqEdge 0) else s

/-- At the stroke boundary every running job that is no overrun yet becomes one, at fret 63 of the stroke it was
released in; the excess of one that is counts from the boundary that ends its own stroke (R190, R193). -/
def boundaryOverruns (s : State) : State :=
  (s.stroke.gates.map (·.1)).foldl (fun s k =>
    let g := s.gate k
    match g.cur with
    | none => s
    | some j =>
      if !g.ovr then overrun k 63 s
      else if j.stroke == s.stroke.num then s.setGate k fun g => { g with excess := 0 }
      else s) s

/-- Group 1 as the boundary captures it (R193): of the stroke just ended. -/
def group1 (s : State) : List W32 :=
  let t := s.stroke
  let n := t.stats.strokes
  let slot := t.active.getD 0
  [lo32 (w64 n), hi32 (w64 n), w32 t.stats.ratedHit, w32 t.stats.ovrNow, w32 t.stats.skipNow,
    w32 (256 * t.profile + 128 * bit (n ≤ 256) + 64 * bit t.active.isSome + 16 * slot),
    w32 t.stats.largest, w32 t.ovl] ++
  ((List.range 16).map fun c => w32 (tabGet t.stats.perCourse c 0)) ++
  ((List.range 16).map fun c => w32 (tabGet t.stats.least c 0xFFFFFFFF)) ++
  ((List.range 8).map fun g => w32 (tabGet t.stats.byFret g 0))

/-- The per-engine overrun counts of STROKE_STATS (R194). -/
def groupEng (s : State) : List W32 := (List.range 192).map fun k => w32 (s.gate k).ratedOvr

/-- A gate takes its engine's planned jobs for stroke `n`, in plan order (R186). -/
def fillGate (n : Nat) (jobs : List PlanJob) (k : Nat) (g : Gate) : Gate :=
  let mine := jobs.filter fun j => gateKey j.course j.slot == k
  let js : List GateJob := (List.range mine.length).filterMap fun i =>
    mine[i]?.map fun j => { fret := j.fret, crit := j.crit, index := i, budget := j.budget, entry := j.entry, arg := j.arg, stroke := n }
  { g with queue := g.queue ++ js }

/-- Every gate takes its planned jobs; a course removed from the profile gets none (R179). -/
def fillPlanned (s : State) : State :=
  if s.fcu.safe then s else
  match s.stroke.active.bind fun i => tabFind s.stroke.plans i with
  | none => s
  | some p =>
    let jobs := p.jobs.filter fun j => s.stroke.inProfile.getLsbD j.course
    (List.range 192).foldl (fun s k =>
      if jobs.any fun j => gateKey j.course j.slot == k then s.setGate k (fillGate s.stroke.num jobs k) else s) s

/-- A submitted job joins its gate after the planned ones, with the start fret of the last planned job (R189, R191); in
the safe state it completes instead (R515). -/
def fillSubmitted (r : JobRec) (s : State) : State :=
  if s.fcu.safe then finish r.qp r.cid Stat.safeState (w32 r.handle) s
  else
    s.setGate (gateKey r.course r.slot) fun g =>
      let now := g.queue.filter fun j => j.stroke == s.stroke.num
      let fret := match (now.filter fun j => j.adhoc.isNone).getLast? with | some j => j.fret | none => 0
      let j : GateJob := { fret, crit := false, adhoc := some r, index := now.length, budget := r.budget, entry := r.entry, arg := r.arg, stroke := s.stroke.num }
      { g with queue := g.queue ++ [j] }

/-- The stroke begins with the engines' planned jobs, then the submitted ones accepted for it (R186, R189). -/
def fillGates (s : State) : State :=
  let s := fillPlanned s
  let due := s.basut.jobs.filter fun r => r.stroke ≤ s.stroke.num
  due.foldl (fun s r => fillSubmitted r s)
    (s.modBasut fun b => { b with jobs := b.jobs.filter fun r => s.stroke.num < r.stroke })

/-- Release what has become due on every gate. -/
def releaseAll (s : State) : State :=
  (s.stroke.gates.map (·.1)).foldl (fun s k => release k s) s

/-- A course stops at once (R180), or its jobs waiting are withdrawn at its removal (R189): submitted jobs complete with
ABORTED. `running` also ends the job that runs. -/
def withdrawJobs (course : Nat) (running : Bool) (s : State) : State :=
  let s := (List.range 12).foldl (fun s i =>
    let k := gateKey course i
    let g := s.gate k
    let gone := g.queue.filterMap (·.adhoc) ++
      (if running then (match g.cur with | some j => j.adhoc.toList | none => []) else [])
    let s := if g.queue.isEmpty && !(running && g.cur.isSome) then s else
      s.setGate k fun g => { g with queue := [], cur := if running then none else g.cur, fresh := g.fresh && !running }
    gone.foldl (fun s r => finish r.qp r.cid Stat.aborted (w32 r.handle) s) s) s
  let later := s.basut.jobs.filter fun r => r.course == course
  later.foldl (fun s r => finish r.qp r.cid Stat.aborted (w32 r.handle) s)
    (s.modBasut fun b => { b with jobs := b.jobs.filter fun r => r.course != course })

end Sys2Proof.Machine
end

