-- ==== Sys2Proof/Machine/EngineBase.lean ====
section
/-! DEFINITION. Engine reset, VE_CTL, the interrupt source registers, SEQ_STAT and SEQ_CNT (R43, R60, R61, R276, R280,
R351). -/
namespace Sys2Proof.Machine

/-- The scalar core at reset; what belongs to the SVU, the stream unit, LSP and the registers of the window stays
(R206; log 17). -/
def coreReset (e : Engine) : Engine :=
  { st := e.st, remap := e.remap, run := e.run, v := e.v, vl := e.vl, vshape := e.vshape, vpos := e.vpos, vq := e.vq
    stores := e.stores, storeSeq := e.storeSeq, irqPend := e.irqPend, irqEn := e.irqEn, irqLvl0 := e.irqLvl0, irqLvl1 := e.irqLvl1
    su := e.su, lsp := e.lsp }

/-- Engine reset (R43, R205, R206, R291, R312, R338, R351): everything of the engine but its place in the course and its
interrupt source registers (log 17). -/
def Engine.reset (e : Engine) : Engine :=
  { st := match e.st with | .run | .halt => .idle | x => x
    irqPend := e.irqPend, irqEn := e.irqEn, irqLvl0 := e.irqLvl0, irqLvl1 := e.irqLvl1 }

/-- Engine reset on the device: the LSP's codewords are written anew, so none is in error. -/
def engineResetAt (e : Eng) (s : State) : State :=
  let s := s.setEngine e Engine.reset
  let k := instLsp e.course e.phys
  match tabFind s.fab.ecc k with
  | none => s
  | some _ => s.setEcc k fun r => { r with bad := r.bad.filter fun p => 8192 ≤ p.1, back := r.back.filter (8192 ≤ ·), injected := r.injected.filter (8192 ≤ ·) }

def veStateCode : VeState → Nat
  | .off => 0 | .bist => 1 | .idle => 2 | .run => 3 | .shadow => 4 | .retired => 5 | .halt => 6

/-- VE_CTL as read (R60). -/
def veCtlWord (e : Engine) : W32 := w32 (16 * veStateCode e.st + 2 * bit e.remap + bit e.run)

/-- run and remap as written (R60, R61): 0 to 1 starts the core at 0 in M, 1 to 0 holds it in reset. -/
def veCtlRunRemap (val : W32) (e : Engine) : Engine :=
  let run := val.getLsbD 0
  let remap := val.getLsbD 1
  let e1 := { e with run := run, remap := remap }
  if run && !e.run then
    match e.st with
    | .idle => { coreReset { e1 with st := .run } with fetchRemap := remap }
    | .shadow => { coreReset e1 with fetchRemap := remap }
    | _ => e1
  else if !run && e.run then
    match e.st with
    | .run => coreReset { e1 with st := .idle }
    | .halt => e1
    | _ => coreReset e1
  else e1

/-- A write of VE_CTL (R60): rst alone acts where it is set (log 17). -/
def writeVeCtl (e : Eng) (val : W32) (s : State) : State :=
  if val.getLsbD 2 then engineResetAt e s
  else s.setEngine e (veCtlRunRemap val)

/-! ### Interrupt source registers (R276) -/

def readIrq (e : Engine) (off : Nat) : W32 :=
  match off with
  | 0 => e.irqPend.setWidth 32
  | 4 => e.irqEn.setWidth 32
  | 8 => e.irqLvl0
  | 12 => e.irqLvl1.setWidth 32
  | _ => 0

/-- Clear the bits written 1, unless an edge arrives with the write. -/
def irqClear (val edges : W32) (e : Engine) : Engine :=
  { e with irqPend := (e.irqPend &&& ~~~ val.setWidth 21) ||| edges.setWidth 21 }

def irqSet (val : W32) (e : Engine) : Engine := { e with irqPend := e.irqPend ||| val.setWidth 21 }

def writeIrq (off : Nat) (val : W32) (e : Engine) : Engine :=
  match off with
  | 0 => irqClear val 0 e
  | 4 => { e with irqEn := val.setWidth 21 }
  | 8 => { e with irqLvl0 := val }
  | 12 => { e with irqLvl1 := val.setWidth 10 }
  | 16 => irqSet val e
  | _ => e

/-- Level of source n (R276). -/
def irqLevel (e : Engine) (n : Nat) : Nat :=
  if n < 16 then bitsAt e.irqLvl0.toNat (2 * n) 2 else bitsAt e.irqLvl1.toNat (2 * (n - 16)) 2

/-- Does source a come before b (R277)? -/
def irqBefore (e : Engine) (a b : Nat) : Bool := irqLevel e b < irqLevel e a || (irqLevel e a == irqLevel e b && a < b)

/-- The source of highest priority that is pending and enabled. -/
def irqTop (e : Engine) : Option Nat :=
  ((List.range 21).filter fun n => e.irqPend.getLsbD n && e.irqEn.getLsbD n).foldl (fun (best : Option Nat) n =>
    match best with
    | none => some n
    | some b => if irqBefore e n b then some n else some b) none

/-! ### Asynchronous errors (R280) -/

def pushAsync (e : Eng) (x : AsyncErr) (s : State) : State :=
  if (s.engine e).asyncQ.length < 12 then s.setEngine e fun g => { g with asyncQ := g.asyncQ ++ [x] }
  else raiseFault (Src.veAsyncLost e.course) 0 (unitEng e.course e.phys) s

/-! ### Sequencer registers (R351) -/

/-- Chords checked now run in restart mode (R352). -/
def State.restartMode (s : State) : Bool := !s.stroke.resumes || s.stroke.profile == 4

/-- Is the bank held by a chord (R348)? -/
def bankHeld (u : StreamUnit) (b : Nat) : Bool := u.chords.any fun c => c.bank == b && c.checked

def patchLevelOf (p : Option PatchBody) : Nat := match p with | some x => x.level.toNat | none => 0

/-- Micro-thread t (R341). -/
def threadOf (u : StreamUnit) (t : Nat) : UThread := (u.threads.toList[t]?).getD {}

def seqStatWord (s : State) (e : Engine) : W32 :=
  let u := e.su
  w32 (65536 * patchLevelOf (if u.bank == 0 then u.banks[0] else u.banks[1]) + 2 ^ 15 * u.bank +
    2 ^ 14 * bit (bankHeld u (1 - u.bank)) + 2 ^ 13 * bit s.restartMode + 2 ^ 11 * u.stageInUse.toNat +
    2 ^ 9 * bitsAt (memRead e.lsp 0x3FF00).toNat 0 2 +
    (List.range 4).foldl (fun a t => a + 2 ^ t * bit (threadOf u t).active) 0)

def seqCntWord (e : Engine) : W32 := w32 (65536 * e.su.restarts + e.su.traps)

end Sys2Proof.Machine
end

