-- ==== Sys2Proof/Machine/SenCmds.lean ====
section
/-! DEFINITION. The commands of the event network, the timers and the TIO pins (R154, R399 to R422, R517). -/
namespace Sys2Proof.Machine

/-- SEN_SWPULSE_WRITE (R401). -/
def execSenSwpulseWrite (val : W32) (s : State) : Res := act s.senUp (swPulse val) s

/-- SEN_EVENT_DELIVERY (R404). -/
def execSenEventDelivery (s : State) : Res := act s.alive deliverNext s

/-- Emit the value a register read returned. -/
def emitVal (r : W32 × State) : State := r.2.emit (.regValue r.1)

/-- VE_SENSEL_READ (R403). -/
def execVeSenselRead (e : Eng) (j : Nat) (s : State) : Res :=
  act (s.alive && e.course < 16 && e.phys < 13 && j < 8) (fun s => emitVal (readSensel e j s)) s

/-- One advance of a timer (R410): a CLOCK timer pre + 1 SEN cycles after its last; an EVENT timer by delivering the
event that reaches its count input. A LINK timer counts at LINKED_CARRY_ARRIVE. -/
def timerTick (t : Nat) (s : State) : State :=
  let x := s.timer t
  if x.mode == 0 then
    if s.counts t then
      let s := countOne t (s.bringTo (20 * (x.lastTick + x.pre + 1)))
      s.setTimer t fun y => { y with lastTick := s.senCycle }
    else s
  else if x.mode == 2 then
    match s.sen.firstDue with
    | some d => if s.sen.inflight.any fun e => e.due == d && e.consumers.contains (.count t) then deliverNext s else s
    | none => s
  else s

/-- TIMER_TICK (R410). -/
def execTimerTick (t : Nat) (s : State) : Res := act (s.alive && t < 160) (timerTick t) s

/-- A carry arrives two SEN cycles after the wrap: counted while run is 1 and the timer is not frozen, else discarded;
carry_pend clears (R419, R420). -/
def carryArrive (t : Nat) (s : State) : State :=
  let x := s.timer t
  if x.carry then
    let s := (s.bringTo (20 * x.carryDue)).setTimer t fun y => { y with carry := false }
    if s.counts t && x.mode == 1 then countOne t s else s
  else s

/-- LINKED_CARRY_ARRIVE (R420). -/
def execLinkedCarryArrive (t : Nat) (s : State) : Res := act (s.alive && t < 160) (carryArrive t) s

/-- TIMER_COMPARE_MATCH (R412, R413). -/
def execTimerCompareMatch (t c : Nat) (s : State) : Res := act (s.alive && t < 160 && c < 4) (matchUpTo t c) s

/-- Where a timer's registers lie in BAR0 (R409, R548). -/
def timerBase (t : Nat) : Nat :=
  if t < 32 then 0x300000 + 0x80 * t
  else 0x1003000 + 0x100000 * ((t - 32) / 8) + 0x80 * ((t - 32) % 8)

/-- Hold the low half of a pair, or answer the whole value a high half completes: the low half held, else the one in
the register (R4). -/
def holdLo (key : Nat) (v : W32) (s : State) : State :=
  s.modFab fun f => { f with heldLo := tabSet f.heldLo key v }
def withHeldLo (key : Nat) (cur : W64) (hi : W32) (s : State) : W64 × State :=
  (mk64 (tabGet s.fab.heldLo key (lo32 cur)) hi, s.modFab fun f => { f with heldLo := tabDel f.heldLo key })

/-- A 32-bit write of one half of TMR_CMP or TMR_CNT (R4, R412). -/
def writeCmpHalf (t c : Nat) (high : Bool) (val : W32) (s : State) : State :=
  let key := timerBase t + 0x20 + 8 * c
  if high then
    let r := withHeldLo key (s.timer t).cmp[c]! val s
    armCompare t c r.1 r.2
  else holdLo key val s
def writeCntHalf (t : Nat) (high : Bool) (val : W32) (s : State) : State :=
  let key := timerBase t + 0x18
  if high then
    let r := withHeldLo key (s.timer t).cnt val s
    writeCount t r.1 r.2
  else holdLo key val s

/-- TMR_CMP_WRITE (R412). -/
def execTmrCmpWrite (t c : Nat) (high : Bool) (val : W32) (s : State) : Res :=
  act (s.senUp && t < 160 && c < 4) (writeCmpHalf t c high val) s

/-- TMR_CNT_WRITE (R411, R412). -/
def execTmrCntWrite (t : Nat) (high : Bool) (val : W32) (s : State) : Res :=
  act (s.senUp && t < 160) (writeCntHalf t high val) s

/-- TMR_EVCTL_READ (R411). -/
def execTmrEvctlRead (t : Nat) (s : State) : Res := act (s.senUp && t < 160) (fun s => emitVal (readEvctl t s)) s

/-- TMR_CAPSEL_READ (R411). -/
def execTmrCapselRead (t : Nat) (s : State) : Res := act (s.senUp && t < 160) (fun s => emitVal (readCapsel t s)) s

/-- CAPTURE_LAND (R416). -/
def execCaptureLand (t k : Nat) (s : State) : Res := act (s.alive && t < 160 && k < 2) (landCapture t k) s

/-- TMR_CAP_LO_READ (R416). -/
def execTmrCapLoRead (t k : Nat) (s : State) : Res :=
  act (s.senUp && t < 160 && k < 2) (fun s => emitVal (readCapLo t k s)) s

/-- TMR_GSTART_GO (R417). -/
def execTmrGstartGo (s : State) : Res := act s.senUp (gstart true) s

/-- TMR_GSTART_STOP (R417). -/
def execTmrGstartStop (s : State) : Res := act s.senUp (gstart false) s

/-- The oldest change of out still on its way to a ball reaches it (R414). -/
def ballDrive (p : Nat) (s : State) : State :=
  match s.sen.ballDue.find? fun b => b.1 == p with
  | none => s
  | some (_, due, lvl) =>
    let s := (s.bringTo (20 * due)).modSen fun n => { n with ballDue := n.ballDue.erase (p, due, lvl) }
    if tioFunc (s.sen.tioCfg p) == 1 then driveBall p lvl s else s

/-- TIO_BALL_DRIVE (R414). -/
def execTioBallDrive (pin : Nat) (s : State) : Res := act (s.alive && pin < 48) (ballDrive pin) s

/-- TIO_CFG_READ (R422). -/
def execTioCfgRead (pin : Nat) (s : State) : Res := act (s.senUp && pin < 48) (fun s => emitVal (readTioCfg pin s)) s

/-- STORM_WINDOW_END (R517). -/
def execStormWindowEnd (s : State) : Res := act s.alive stormEnd s

/-- TIO_EDGE (R154): stamps are delivered once READY_MAP.vt is set (R62). -/
def execTioEdge (pin : Nat) (rising : Bool) (s : State) : Res :=
  act (s.alive && s.time.counting && pin < 48) (tioBallEdge pin rising) s

/-- The number a debugged core has in `Sen.debugHalt`: an engine's key, or 208 for the active pegbox pair. -/
def debugNum : DebugCore → Nat
  | .engine n p => engKey n p
  | .pegbox => 208

/-- DEBUG_HALT (R419): timers with dbgf that name the core freeze; carries on their way to them will be discarded. -/
def execDebugHalt (core : DebugCore) (s : State) : Res :=
  act s.alive (fun s => s.modSen fun n => { n with debugHalt := setAdd n.debugHalt (debugNum core) }) s

/-- DEBUG_HALT_RELEASE (R419): frozen timers resume counting in the next SEN cycle. -/
def debugRelease (core : DebugCore) (s : State) : State :=
  let thaw := (s.sen.timers.map (·.1)).filter s.frozen
  let s := s.modSen fun n => { n with debugHalt := setDel n.debugHalt (debugNum core) }
  thaw.foldl (fun s t => if s.frozen t then s else s.setTimer t fun x => { x with lastTick := s.senCycle }) s
def execDebugHaltRelease (core : DebugCore) (s : State) : Res := act s.alive (debugRelease core) s

end Sys2Proof.Machine
end

