-- ==== Sys2Proof/Machine/DmaBase.lean ====
section
/-! DEFINITION. The DMA channels' registers, starts, stops and descriptor check (R387 to R393, R397). -/
namespace Sys2Proof.Machine

def dmaKey (course ch : Nat) : Nat := 16 * course + ch
def State.dmaCh (s : State) (k : Nat) : DmaCh := tabGet s.dma.ch k {}
def State.setDma (s : State) (k : Nat) (f : DmaCh → DmaCh) : State := s.modDma fun d => { d with ch := tabMod d.ch k {} f }

def dmaRunning (c : DmaCh) : Bool := c.code == 1

/-- The fields of a descriptor (R388). -/
structure DmaDesc where
  irq     : Bool
  barrier : Bool
  chain   : Bool
  eng     : Nat
  sw      : Nat
  dw      : Nat
  signed  : Bool
  satur   : Bool
  tag     : Nat
  n0      : Nat
  n1      : Nat
  n2      : Nat
  src     : Nat
  dst     : Nat
  ss      : List Int
  ds      : List Int
  next    : W64
deriving DecidableEq, Repr

def parseDma (b : List Byte) : DmaDesc :=
  let f := fun i n => leNat ((b.drop i).take n)
  let ctl := f 0 4
  { irq := bitsAt ctl 31 1 == 1, barrier := bitsAt ctl 30 1 == 1, chain := bitsAt ctl 29 1 == 1, eng := bitsAt ctl 24 4
    sw := 2 ^ bitsAt ctl 22 2, dw := 2 ^ bitsAt ctl 20 2, signed := bitsAt ctl 18 1 == 1, satur := bitsAt ctl 19 1 == 1
    tag := bitsAt ctl 0 16, n0 := f 4 2 + 1, n1 := f 6 2 + 1, n2 := f 8 2 + 1, src := f 0x10 8, dst := f 0x18 8
    ss := [sgn 32 (f 0x20 4), sgn 32 (f 0x24 4), sgn 32 (f 0x28 4)]
    ds := [sgn 32 (f 0x2C 4), sgn 32 (f 0x30 4), sgn 32 (f 0x34 4)], next := w64 (f 0x38 8) }

/-- Reserved bits of a descriptor set (R388). -/
def dmaReserved (b : List Byte) : Bool :=
  let f := fun i n => leNat ((b.drop i).take n)
  bitsAt (f 0 4) 28 1 != 0 || bitsAt (f 0 4) 16 2 != 0 || f 0x0A 6 != 0 || 2 ^ 40 ≤ f 0x10 8 || 2 ^ 40 ≤ f 0x18 8

/-- Lowest element address and one past the highest byte of a side (R392). -/
def dmaRange (base : Nat) (steps : List Int) (n0 n1 n2 w : Nat) : Int × Int :=
  let ext := (steps.zip [n0, n1, n2]).map fun p => p.1 * ((p.2 : Int) - 1)
  ((base : Int) + (ext.map (min 0)).foldl (· + ·) 0, (base : Int) + (ext.map (max 0)).foldl (· + ·) 0 + w)

/-- The mapped run of one region of R387 that holds an address, as its ends; none outside every region. -/
def dmaSpan (s : State) (own : Nat) (a : Nat) : Option (Nat × Nat) :=
  match target40 a with
  | .dram _ => if s.ready Rdy.dram && 0x10000000 ≤ a && a < s.dramEnd then some (0x10000000, s.dramEnd) else none
  | .csm n x => if s.csmOk n then some (a - x, a - x + 0x400000) else none
  | .lsp p x => if s.csmOk own && p < 13 then some (a - x, a - x + 0x40000) else none
  | .bar0 b => if b < 0x3000000 then some (0x3000000000, 0x3003000000) else some (0x3003000000, 0x3004000000)
  | .remote _ x => some (a - x, a - x + 0x400000000)
  | .none => none

/-- Is a side's range within one region (cause 4)? -/
def dmaRangeOk (s : State) (own : Nat) (r : Int × Int) : Bool :=
  0 ≤ r.1 && (match dmaSpan s own r.1.toNat with
    | some (lo, hi) => (lo : Int) ≤ r.1 && r.2 ≤ (hi : Int)
    | none => false)

/-- A side in a register block or in eMRAM. -/
def dmaWordSide (a : Nat) : Bool := match target40 a with | .bar0 _ => true | _ => false
def dmaEmramSide (a : Nat) : Bool := match target40 a with | .bar0 b => 0x3000000 ≤ b | _ => false

/-- Cause 1 of R392. -/
def dmaAddrOk (s : State) (own : Nat) (a : W64) : Bool :=
  a.toNat % 64 == 0 && (match target40 a.toNat with
    | .dram x => s.dramOk x 64
    | .csm n _ => n == own && s.csmOk n
    | _ => false)

/-- Causes 2 to 5 of R392, the first that holds. -/
def dmaCause (s : State) (own : Nat) (b : List Byte) : Option Nat :=
  let d := parseDma b
  if dmaReserved b || 12 < d.eng || (d.chain && d.next.toNat % 64 != 0) then some 2
  else if d.src % d.sw != 0 || d.dst % d.dw != 0 || d.ss.any (fun x => x % d.sw != 0) || d.ds.any (fun x => x % d.dw != 0)
  then some 3
  else
    let rs := dmaRange d.src d.ss d.n0 d.n1 d.n2 d.sw
    let rd := dmaRange d.dst d.ds d.n0 d.n1 d.n2 d.dw
    if !dmaRangeOk s own rs || !dmaRangeOk s own rd then some 4
    else if (dmaWordSide d.src && d.sw != 4) || (dmaWordSide d.dst && d.dw != 4) || dmaEmramSide d.dst then some 5
    else none

/-- The engine that started a channel is told how its check ended (R393). -/
def dmaReport (k : Nat) (bad : Bool) (s : State) : State :=
  match (s.dmaCh k).starter with
  | none => s
  | some (e, instr) =>
    let waits := (s.engine e).starts.contains (.dma (k % 16) instr)
    let s := s.setDma k fun c => { c with starter := none }
    if !waits then s
    else
      let s := s.setEngine e fun g => { g with starts := g.starts.erase (.dma (k % 16) instr) }
      if bad then pushAsync e (.startErr true instr) s else s

/-- Set engine eng's DMA pend bit (R394, R397, R535). -/
def dmaIrq (k eng : Nat) (s : State) : State :=
  if eng < 13 then s.setEngine ⟨k / 16, s.nowHolds (k / 16) eng⟩ (irqEdge 2) else s

/-- A channel stops with DESC_ERR, BUSERR or MEDIA (R397). -/
def dmaFail (k code cause : Nat) (s : State) : State :=
  let c := s.dmaCh k
  let s := s.setDma k fun c => { c with code := code, cause := cause, stopReq := false, desc := none }
  let s := raiseFault (Src.dmaErr (k / 16)) (w64 (k % 16)) unitNone s
  match c.desc with
  | some b => let d := parseDma b; if d.irq then dmaIrq k d.eng s else s
  | none => s

/-- Fetch and check the descriptor at DMA_CUR (R392). -/
def dmaCheck (k : Nat) (s : State) : State :=
  let own := k / 16
  let c := s.dmaCh k
  if !dmaAddrOk s own c.cur then dmaReport k true (dmaFail k 4 1 s)
  else match s.memAt own (target40 c.cur.toNat) 64 with
  | none => dmaReport k true (dmaFail k 4 1 s)
  | some (m, a) =>
    let (bs, s) := memLoad m a 64 s
    match allBytes bs with
    | none => dmaReport k true (dmaFail k 6 0 s)
    | some b =>
      let s := s.setDma k fun c => { c with desc := some b, tag := (parseDma b).tag, i0 := 0, i1 := 0, i2 := 0 }
      match dmaCause s own b with
      | some x => dmaReport k true (dmaFail k 4 x s)
      | none => dmaReport k false s

/-- A go (R391): the channel runs from the descriptor in DMA_NEXT, or the go is refused. `by'` is the engine that
wrote it and the address of the store (R393). -/
def dmaGo (k : Nat) (by' : Option (Eng × W32)) (s : State) : State :=
  let c := s.dmaCh k
  if dmaRunning c then
    let s := s.setDma k fun c => { c with refused := true }
    match by' with
    | some (e, i) => s.setEngine e fun g => { g with starts := g.starts.erase (.dma (k % 16) i) }
    | none => s
  else s.setDma k fun c => { c with
    code := 1, cause := 0, cur := c.next &&& 0xFFFFFFFFFF, desc := none, stopReq := false, starter := by', i0 := 0, i1 := 0, i2 := 0 }

/-- A stop (R393). -/
def dmaStop (k : Nat) (s : State) : State :=
  if dmaRunning (s.dmaCh k) then s.setDma k fun c => { c with stopReq := true } else s

/-- DMA_CMD: stop wins over go (R391). -/
def dmaCmd (k : Nat) (val : W32) (by' : Option (Eng × W32)) (s : State) : State :=
  if val.getLsbD 1 then dmaStop k s else if val.getLsbD 0 then dmaGo k by' s else s

def dmaStat (c : DmaCh) : W32 := w32 (2 ^ 28 * c.code + 2 ^ 24 * c.cause + 2 ^ 23 * bit c.refused + c.tag)

def readDma (k off : Nat) (s : State) : W32 :=
  let c := s.dmaCh k
  match off with
  | 0x00 => lo32 c.next
  | 0x04 => hi32 c.next
  | 0x0C => dmaStat c
  | 0x10 => w32 (65536 * c.i1 + c.i0)
  | 0x14 => w32 c.i2
  | 0x18 => lo32 c.cur
  | 0x1C => hi32 c.cur
  | 0x20 => c.done
  | _ => 0

/-- Is the register implemented (R391)? -/
def dmaReg (off : Nat) : Bool := off ≤ 0x20

/-- Write a register of channel k; a pair's low half waits for its high half (R4). -/
def writeDma (k off : Nat) (val : W32) (by' : Option (Eng × W32)) (s : State) : State :=
  let base := 0x01002000 + 0x100000 * (k / 16) + 0x40 * (k % 16)
  match off with
  | 0x00 => holdLo base val s
  | 0x04 =>
    let (v, s) := withHeldLo base (s.dmaCh k).next val s
    s.setDma k fun c => { c with next := v &&& 0xFFFFFFFFFF }
  | 0x08 => dmaCmd k val by' s
  | 0x0C => if val.getLsbD 23 then s.setDma k fun c => { c with refused := false } else s
  | _ => s

/-- May a master start a channel of the course (R391)? -/
def dmaMaster (m : Master) (course : Nat) : Bool :=
  match m with
  | .pf | .pegbox => true
  | .engine n _ => n == course
  | _ => false

/-- Its running channels stop at once, without a status (R398, power-fail). -/
def dmaKill (course : Nat) (s : State) : State :=
  s.modDma fun d => { d with ch := d.ch.map fun p =>
    if p.1 / 16 == course && dmaRunning p.2 then (p.1, { p.2 with code := 0, desc := none, stopReq := false, starter := none }) else p }

/-- The channels of a course removed from service stop as R393 states. -/
def dmaStopCourse (course : Nat) (s : State) : State :=
  s.modDma fun d => { d with ch := d.ch.map fun p =>
    if p.1 / 16 == course && dmaRunning p.2 then (p.1, { p.2 with stopReq := true }) else p }

end Sys2Proof.Machine
end

