-- ==== Sys2Proof/Machine/TimeCmds.lean ====
section
/-! DEFINITION. The time engine's own commands: what arrives on its ports and pins and what its timers do
(spec/06). -/
namespace Sys2Proof.Machine

/-- GPTP_SYNC_RECEIVE (R138). -/
def execGptpSyncReceive (p : Nat) (m : SyncMsg) (s : State) : Res := act (s.gptpRuns p) (syncReceive p m) s

/-- GPTP_FOLLOW_UP_RECEIVE (R158). -/
def execGptpFollowUpReceive (p : Nat) (seq : W16) (time : PtpTime) (s : State) : Res :=
  act (s.gptpRuns p) (followUpReceive p seq time) s

/-- GPTP_ANNOUNCE_RECEIVE (R158). -/
def execGptpAnnounceReceive (p : Nat) (m : AnnounceMsg) (s : State) : Res :=
  act (s.gptpRuns p) (announceReceive p m) s

/-- GPTP_PDELAY_RECEIVE (R158). -/
def execGptpPdelayReceive (p : Nat) (m : PdelayMsg) (s : State) : Res := act (s.gptpRuns p) (pdelayReceive p m) s

/-- GPTP_SYNC_TRANSMIT (R160). -/
def execGptpSyncTransmit (p : Nat) (s : State) : Res := act (s.gptpRuns p) (syncTransmit p) s

/-- GPTP_PDELAY_REQ_TRANSMIT (R158). -/
def execGptpPdelayReqTransmit (p : Nat) (s : State) : Res := act (s.gptpRuns p) (pdelayReqTransmit p) s

/-- GPTP_ANNOUNCE_TRANSMIT (R158). -/
def execGptpAnnounceTransmit (p : Nat) (s : State) : Res := act (s.gptpRuns p) (announceTransmit p) s

/-- GPTP_RECEIPT_TIMEOUT (R158). -/
def execGptpReceiptTimeout (p : Nat) (isSync : Bool) (s : State) : Res :=
  act (s.alive && s.ready Rdy.gptp && p < 8 && s.gptpRole p != 0) (receiptTimeout p isSync) s

/-- PPS_IN_EDGE (R138, R162). -/
def execPpsInEdge (rising : Bool) (s : State) : Res := act (s.alive && s.time.counting) (ppsInEdge rising) s

/-- Elapsed time of the last sample of a source; of PPS, of its last accepted edge (R138). -/
def State.lastHeard (s : State) (c : Nat) : Nat :=
  match c, s.time.ppsRef with
  | 2, some r => r.2
  | _, _ => (s.track c).lastMono

/-- SOURCE_TIMEOUT (R138, R144): a source whose timeout has passed since it was last heard; the reference edge of PPS lapses
at the same moment. -/
def sourceTimeout (c : Nat) (s : State) : State :=
  let s := s.bringTo (s.lastHeard c + s.timeoutOf c)
  let s := s.setTrack c fun k => { k with timeouts := k.timeouts + 1 }
  let s := if c == 2 then s.modTime fun t => { t with ppsRef := none } else s
  loseSource c s
def execSourceTimeout (code : Nat) (s : State) : Res :=
  act (s.alive && inRange code 1 5 && ((s.track code).valid || (s.time.servo == .acquire && s.time.source == code)))
    (sourceTimeout code) s

/-- HOLDOVER_LIMIT_EXPIRY (R144): holdover_limit_ms after entry; 0 selects 300,000 ms (R143). -/
def holdoverExpiry (s : State) : State :=
  let ms := if s.time.holdLimit == 0 then 300000 else s.time.holdLimit
  let s := s.bringTo (16000000 * ms + s.time.holdFrom)
  raiseFault Src.holdoverExpired 0 unitNone (goServo .free 0 s)
def execHoldoverLimitExpiry (s : State) : Res := act (s.alive && s.time.servo == .holdover) holdoverExpiry s

/-- REF10_IN_LOSS (R26). -/
def execRef10InLoss (s : State) : Res := act s.alive ref10InLoss s

/-- CRYSTAL_PATH_FAILURE (R153). -/
def execCrystalPathFailure (path : Nat) (s : State) : Res := act (s.alive && path < 2) (pathFailure path) s

/-- TDC_RECALIBRATION (R155). -/
def execTdcRecalibration (pin residualVt : Nat) (code : W32) (s : State) : Res :=
  act (s.alive && s.time.counting && pin < 58) (tdcCalibrate pin residualVt code) s

/-- VT64_SAVE (R66): a device with a saved VT64 has history (log 19). -/
def saveVt (s : State) : State := s.modEm fun e => { e with savedVt := s.now, marker := true }
def execVt64Save (s : State) : Res := act (s.alive && s.time.counting) saveVt s

/-- PPS_OUT_RISE (R161, R162). -/
def execPpsOutRise (s : State) : Res := act (s.alive && s.ready Rdy.pps) ppsRise s

/-- PPS_OUT_FALL (R161). -/
def execPpsOutFall (s : State) : Res := act s.alive ppsFall s

/-- TE_PTM_OFS_WRITE (R165). -/
def writePtmOfs (v : W64) (s : State) : State := s.modTime fun t => { t with ptmOfsNext := some v }
def execTePtmOfsWrite (val : W64) (s : State) : Res := act (s.alive && s.ready Rdy.vt) (writePtmOfs val) s

/-- PTM_REQUEST_ISSUE (R73, R163): while PTM Enable is set and the upstream port responds to PTM. -/
def ptmRequest (s : State) : State := (s.emit (.ptmRequest s.now)).modLink fun l => { l with ptmSent := some (s.now, s.quality, s.time.era) }
def execPtmRequestIssue (responds : Bool) (s : State) : Res :=
  act (s.alive && s.link.up && s.link.ptmEn && responds) ptmRequest s

/-- PTM_DIALOG_COMPLETE (R163). -/
def execPtmDialogComplete (t2 : W64) (propNs : W32) (s : State) : Res :=
  act (s.alive && s.link.up) (ptmComplete t2 propNs) s

end Sys2Proof.Machine
end

