-- ==== Sys2Proof/Machine/Log.lean ====
section
/-! DEFINITION. The log store: classes, entry, the history ring, triggers, commit, seals, media, life, registers (R450 to
R483). -/
namespace Sys2Proof.Machine

/-! ### Records (R463) -/

/-- Body padded to 16 bytes, with the 48-byte header. -/
def recSize (r : LogRec) : Nat := 48 + (r.body.length + 15) / 16 * 16

def padTo16 (b : List Byte) : List Byte := b ++ List.replicate ((16 - b.length % 16) % 16) 0

def recHeader (r : LogRec) (crc : W32) : List Byte :=
  leBytes 1 r.kind ++ leBytes 1 r.cls ++ leBytes 1 (r.info % 8 + 8 * bit r.slc) ++ leBytes 1 r.era ++
  leBytes 4 r.body.length ++ leBytes 8 r.seq ++ leBytes 8 r.vt.toNat ++ leBytes 8 r.evt.toNat ++
  leBytes 2 r.stream ++ leBytes 2 0 ++ leBytes 4 r.trig.toNat ++ leBytes 4 0 ++ leBytes 4 crc.toNat

/-- The record as LGS_READ writes it: its crc covers header and body, and the body is padded after that. -/
def recBytes (r : LogRec) : List Byte := recHeader r (crc32c (recHeader r 0 ++ r.body)) ++ padTo16 r.body

def recsSize (l : List LogRec) : Nat := l.foldl (fun a r => a + recSize r) 0

/-- Commit-queue fill in bytes: what waits to be placed (log 20). -/
def LogStore.fill (l : LogStore) : Nat := recsSize l.urgent + recsSize l.queue

def qMax : Nat := 64 * 0x100000

/-- Priority and shed_order of a class (R453). -/
def LogStore.cls (l : LogStore) (c : Nat) : Nat × Nat := tabGet l.classes c (0, c)

/-- The shedding order (R453): does class a come before class b? -/
def LogStore.before (l : LogStore) (a b : Nat) : Bool :=
  (l.cls a).2 < (l.cls b).2 || ((l.cls a).2 == (l.cls b).2 && a < b)

/-- Entries are stopped: safe state, or a power-fail until PFAIL_DONE falls (R22, R456, R472). -/
def State.logStopped (s : State) : Bool := s.fcu.safe || s.lgs.flushing || s.pins.pfailDone

def trackPeak (s : State) : State :=
  s.modLgs fun l => { l with peak := max l.peak l.fill, strokePeak := max l.strokePeak l.fill }

/-- A record is put into the commit queue, ahead of the records of the classes. -/
def queueSys (r : LogRec) (s : State) : State :=
  trackPeak (s.modLgs fun l => { l with urgent := l.urgent ++ [r], bytesIn := l.bytesIn + recSize r })

/-- A system record enters the commit queue and is never shed; one that does not fit waits for room (R464, R470). -/
def enterSys (r : LogRec) (s : State) : State :=
  if s.lgs.sysWait.isEmpty && s.lgs.fill + recSize r ≤ qMax then queueSys r s
  else s.modLgs fun l => { l with sysWait := l.sysWait ++ [r] }

/-- As the queue drains, the waiting system records enter first (R470). -/
def enterWaiting : Nat → State → State
  | 0, s => s
  | k + 1, s =>
    match s.lgs.sysWait with
    | [] => s
    | r :: rest =>
      if qMax < s.lgs.fill + recSize r then s
      else enterWaiting k (queueSys { r with evt := s.now, era := s.time.era } (s.modLgs fun l => { l with sysWait := rest }))

/-- A system record as it enters now. -/
def sysRecord (kind : Nat) (vt : W64) (stream : Nat) (body : List Byte) (s : State) : LogRec :=
  { kind, cls := 0xFF, info := qualCode s.quality, era := s.time.era, vt, evt := s.now, stream, body }

def enterSystem (kind : Nat) (vt : W64) (stream : Nat) (body : List Byte) (s : State) : State :=
  enterSys (sysRecord kind vt stream body s) s

/-- A GAP record (R464). -/
def enterGap (g : LogGap) (s : State) : State :=
  let s := s.modStroke fun k => { k with loaded := true }
  enterSystem 2 g.first g.stream
    (leBytes 4 g.count ++ leBytes 4 g.cause ++ leBytes 8 g.last.toNat ++ leBytes 4 g.cls ++ leBytes 4 0) s

/-- Is a loss of the same stream as a record, or of the same append tag? Ingress classes lie below 8 (R454, R471). -/
def LogGap.ofStream (g : LogGap) (r : LogRec) : Bool := g.stream == r.stream && decide (g.cls < 8) == decide (r.cls < 8)

/-- The GAP record of a stream's refusals, before its next record enters (R471). -/
def flushGap (p : LogGap → Bool) (s : State) : State :=
  let gs := s.lgs.gaps.filter p
  gs.foldl (fun s g => enterGap g s) (s.modLgs fun l => { l with gaps := l.gaps.filter fun g => !p g })

/-- Account a record lost, per stream and cause; refusals also per class, whose restoration enters them (R461, R464,
R471). -/
def addGap (cause : Nat) (r : LogRec) (s : State) : State :=
  let same := fun (g : LogGap) => g.ofStream r && g.cause == cause && (cause == 2 || g.cls == r.cls)
  s.modLgs fun l => { l with
    gaps := if l.gaps.any same then l.gaps.map fun g => if same g then { g with count := g.count + 1, last := r.vt } else g
      else l.gaps ++ [{ stream := r.stream, cls := r.cls, cause, count := 1, first := r.vt, last := r.vt }] }

/-- Refuse a record under R470. -/
def refuseRec (r : LogRec) (s : State) : State :=
  let s := s.modLgs fun l => { l with
    refusedBy := tabMod l.refusedBy r.cls 0 (satAdd 32 · 1) }
  addGap 1 r (s.modStroke fun k => { k with loaded := true })

/-! ### The history ring and triggers (R459 to R461) -/

def LogTrig.holds (t : LogTrig) (vt : W64) : Bool := decide (t.t.toNat ≤ vt.toNat + t.pre) && decide (vt.toNat ≤ t.t.toNat + t.post)

/-- The open trigger of lowest ID whose window holds a record of a class that qualifies. -/
def LogStore.trigFor (l : LogStore) (r : LogRec) : Option LogTrig :=
  (l.trigs.filter fun t => t.holds r.vt && (r.cls == t.cls || l.before t.cls r.cls)).foldl
    (fun (b : Option LogTrig) t => match b with
      | none => some t
      | some x => if t.id < x.id then some t else some x) none

/-- Insert by record time. -/
def insertByVt (r : LogRec) : List LogRec → List LogRec
  | [] => [r]
  | x :: xs => if r.vt.toNat < x.vt.toNat then r :: x :: xs else x :: insertByVt r xs

/-- A ring record that a trigger wants joins the backfill, once. -/
def wantRing (r : LogRec) (s : State) : LogRec × State :=
  if r.trig != 0xFFFFFFFF then (r, s)
  else match s.lgs.trigFor r with
    | some t =>
      let r := { r with trig := w32 t.id }
      (r, s.modLgs fun l => { l with backfill := insertByVt r l.backfill })
    | none => (r, s)

/-- Overwrite the oldest until the ring holds its size; a record a trigger had still to reach becomes a gap of cause 2. -/
def trimRing : Nat → State → State
  | 0, s => s
  | k + 1, s =>
    if recsSize s.lgs.ring ≤ 0x100000 * s.lgs.ringMib then s
    else match s.lgs.ring with
      | [] => s
      | r :: rest =>
        let waits := s.lgs.backfill.contains r
        let s := s.modLgs fun l => { l with ring := rest, backfill := if waits then l.backfill.erase r else l.backfill }
        trimRing k (if waits then addGap 2 r s else s)

def enterRing (r : LogRec) (s : State) : State :=
  let (r, s) := wantRing r s
  let s := s.modLgs fun l => { l with ring := l.ring ++ [r], bytesIn := l.bytesIn + recSize r }
  trimRing s.lgs.ring.length s

/-- Open a trigger (R460): its ID, and the ring records it wants. -/
def openTrigger (t : W64) (pre post cls src : Nat) (s : State) : Nat × State :=
  let id := s.lgs.nextTrig
  let s := s.modLgs fun l => { l with
    trigs := l.trigs ++ [{ id, t, pre, post, cls, src }], nextTrig := (id + 1) % 2 ^ 32 }
  let ring := s.lgs.ring
  let (ring, s) := ring.foldl (fun (acc : List LogRec × State) r =>
    let (r, s) := wantRing r acc.2
    (acc.1 ++ [r], s)) (([] : List LogRec), s)
  (id, s.modLgs fun l => { l with ring := ring })

def trigRangeOk (pre post cls : Nat) : Bool := post ≤ 57600000000000 && pre < 2 ^ 63 && cls < 16

/-! ### Entry (R453 to R456, R470) -/

/-- Enter a DATA or APPEND record: the refusal cause of R456, or 0. -/
def enterRecord (r : LogRec) (s : State) : Nat × State :=
  let l := s.lgs
  let pri := (l.cls r.cls).1
  if s.logStopped || !s.ready Rdy.lgsWrite then (4, s)
  else if pri == 0 then (2, s)
  else if pri == 1 && l.mode == 0 then
    (0, enterRing r (flushGap (fun g => g.ofStream r && g.cause == 1) s))
  else if l.shed.contains r.cls || qMax < l.fill + recSize r || !l.sysWait.isEmpty then (1, refuseRec r s)
  else
    let s := flushGap (fun g => g.ofStream r && g.cause == 1) s
    (0, trackPeak (s.modLgs fun l => { l with
      urgent := if pri == 2 then l.urgent ++ [r] else l.urgent
      queue := if pri == 2 then l.queue else l.queue ++ [r]
      bytesIn := l.bytesIn + recSize r }))

/-- The next class to shed: RECORD classes first in the shedding order (R470). -/
def LogStore.nextShed (l : LogStore) : Option Nat :=
  let cand := fun p => (List.range 16).filter fun c => (l.cls c).1 == p && !l.shed.contains c
  let first := fun (cs : List Nat) => cs.foldl (fun (b : Option Nat) c => match b with
    | none => some c
    | some x => if l.before c x then some c else some x) none
  match first (cand 1) with
  | some c => some c
  | none => first (cand 2)

/-- At each stroke boundary (R470): shed the next class, which overloads the stroke (R195), or restore the last one shed. -/
def shedBoundary (s : State) : State :=
  let f := s.lgs.fill
  if 48 * 0x100000 ≤ f then
    match s.lgs.nextShed with
    | some c =>
      raiseFault Src.lgsShed 0 unitNone
        ((s.modLgs fun l => { l with shed := c :: l.shed }).modStroke fun k => { k with loaded := true })
    | none => s
  else if f < 16 * 0x100000 then
    match s.lgs.shed with
    | c :: rest => flushGap (fun g => g.cls == c && g.cause == 1) (s.modLgs fun l => { l with shed := rest })
    | [] => s
  else s

/-! ### Placing and committing (R465, R466) -/

/-- Blocks of a segment (R473), data bytes of a block. -/
def segBlocks (f : NandFit) : Nat := 8 * f.ces * f.luns * f.planes
def blockBytes (f : NandFit) : Nat := f.pages * 16384

/-- Data bytes of a segment: its good blocks; a spare stands in for a grown bad block while one is left (R473, R474). -/
def segBytes (l : LogStore) (f : NandFit) (seg : Nat) : Nat :=
  let bad := (f.factoryBad ++ l.unspared).filter fun b => b / segBlocks f == seg
  (segBlocks f - bad.length) * blockBytes f

/-- Segment numbers of a region: the SLC region lies first. -/
def regionSegs (l : LogStore) (slc : Bool) : List Nat :=
  if slc then List.range l.slcSegs else (List.range l.bulkSegs).map (l.slcSegs + ·)

/-- The free segment of lowest erase count in a region (R475). -/
def freeSeg (l : LogStore) (f : NandFit) (slc : Bool) : Option Nat :=
  let wear := fun n => tabGet l.erases (n * segBlocks f) 0
  let ready := fun n => (tabFind l.segs n).isNone && !l.toErase.any fun b => b / segBlocks f == n
  ((regionSegs l slc).filter ready).foldl (fun (b : Option Nat) n => match b with
    | none => some n
    | some x => if wear n < wear x then some n else some x) none

/-- The first codeword of a segment: its header (R473). -/
def segHeader (k : Nat) (g : Segment) : List Byte :=
  leBytes 4 0x47534C5A ++ leBytes 4 k ++ leBytes 1 (bit g.slc) ++ leBytes 3 0 ++ leBytes 8 g.firstSeq ++ leBytes 8 g.vt.toNat ++
  leBytes 4 g.gen ++ List.replicate 4064 0

/-- The open segment of a region with room for `n` bytes, opened if need be (R473). None where no segment is free. -/
def openSeg (slc : Bool) (n : Nat) (s : State) : Option (Nat × State) :=
  let l := s.lgs
  match l.fit with
  | none => none
  | some f =>
    let cur := if slc then l.slcSeg else l.bulkSeg
    let fits := fun k => match tabFind l.segs k with | some g => decide (16 * g.ofs + n ≤ segBytes l f k) | none => false
    match cur.filter fits with
    | some k => some (k, s)
    | none => match freeSeg l f slc with
      | none => none
      | some k =>
        let g : Segment := { slc, firstSeq := l.nextSeq + l.placed.length, vt := s.now, gen := l.headGen, ofs := 256 }
        some (k, (s.emit (.nandHeader k (segHeader k g))).modLgs fun l => { l with
          segs := tabSet l.segs k g
          slcSeg := if slc then some k else l.slcSeg
          bulkSeg := if slc then l.bulkSeg else some k })

/-- The records of the next page: at least one, then as many as fit 16 KiB. -/
def pageOf : List LogRec → Nat → List LogRec
  | [], _ => []
  | r :: rs, used => if used == 0 || used + recSize r ≤ 16384 then r :: pageOf rs (used + recSize r) else []

/-- What is placed next, in the priority of R465: from which list, and whether it goes to the SLC region. -/
def nextPage (l : LogStore) : List LogRec × Bool :=
  match l.urgent, l.queue with
  | [], [] => (pageOf l.backfill 0, false)
  | [], q => (pageOf q 0, false)
  | u, _ => (pageOf u 0, true)

/-- A program failed: its block is grown bad and a spare takes its place (R474). -/
def growBad (b : Nat) (s : State) : State :=
  if s.lgs.grown.contains b then s
  else
    let l := s.lgs
    let s := s.modLgs fun l => { l with
      grown := setAdd l.grown b, spares := l.spares - 1
      unspared := if l.spares == 0 then setAdd l.unspared b else l.unspared }
    setCause Src.lgsSpareLow (100 * (l.spares - 1) < l.spares0) 0 s

/-- Place the next page's records and program the page (R465, R466). -/
def programPage (pass : Bool) (s : State) : State :=
  let (page, slc) := nextPage s.lgs
  match openSeg slc (recsSize page) s with
  | none => s
  | some (k, s) =>
    let l := s.lgs
    let f := l.fit.getD { ces := 1, luns := 1, planes := 2, blocks := 1, pages := 1, endurance := 1, qualified := true }
    let ofs := match tabFind l.segs k with | some g => g.ofs | none => 256
    let pg := ofs / 1024
    let s := s.emit (.nandProgram k pg)
    let s := s.modLgs fun l => { l with programmed := l.programmed + recsSize page }
    if !pass then growBad (k * segBlocks f + pg % segBlocks f) s
    else
      let n := page.length
      let base := l.nextSeq + l.placed.length
      let done := (List.range n).filterMap fun i => page[i]?.map fun r => { r with seq := base + i, slc, seg := k }
      enterWaiting l.sysWait.length <| s.modLgs fun l => { l with
        urgent := if slc then l.urgent.drop n else l.urgent
        queue := if slc then l.queue else if l.queue.isEmpty then l.queue else l.queue.drop n
        backfill := if slc || !l.queue.isEmpty then l.backfill else l.backfill.drop n
        placed := l.placed ++ done
        segs := tabMod l.segs k { slc, firstSeq := base, vt := s.now, gen := l.headGen } fun g => { g with ofs := g.ofs + recsSize page / 16 } }

/-- LOG event source of a record (R479). -/
def logSource (r : LogRec) : Option Nat :=
  match r.kind with | 0 => some r.cls | 1 => some r.cls | 2 => some 0x12 | 3 => some 0x10 | 4 => some 0x13 | 5 => some 0x11 | _ => none

/-- What one record's commit brings about: its LOG events, a trigger's span, the commands that waited for it. -/
def commitOne (r : LogRec) (s : State) : State :=
  let s := s.modLgs fun l => { l with
    recs := l.recs ++ [{ r with waiter := none, capsule := false }], unsealed := l.unsealed ++ [{ r with waiter := none, capsule := false }]
    strokeBytes := l.strokeBytes + recSize r, strokeRecs := l.strokeRecs + 1
    bytesOut := l.bytesOut + recSize r, gapRecs := l.gapRecs + bit (r.kind == 2)
    trigs := l.trigs.map fun t =>
      if w32 t.id == r.trig then { t with span := some (match t.span with
        | none => (r.vt, r.vt)
        | some (a, b) => (if r.vt.toNat < a.toNat then r.vt else a, if b.toNat < r.vt.toNat then r.vt else b)) }
      else t }
  let s := match logSource r with
    | some src => postBound 7 (· == src) (some (w32 r.seq)) s.now s.quality s
    | none => s
  let s := if r.capsule then s.modEm fun e => { e with capsules := e.capsules.drop 1 } else s
  match r.waiter with
  | some (q, cid) => finish q cid 0 (if r.kind == 5 then w32 (leNat (r.body.take 4)) else w32 r.seq) s
  | none => s

/-- Where the open segment of a region stands: the spec leaves open what a head holds where none is open. -/
def openPlace (seg : Option Nat) (s : State) : (Nat × Nat) × State :=
  match seg with
  | some k => ((k, match tabFind s.lgs.segs k with | some g => g.ofs | none => 0), s)
  | none =>
    let (a, s) := s.draw
    let (b, s) := s.draw
    ((a.toNat % 2 ^ 32, b.toNat % 2 ^ 32), s)

/-- An index head (R466). -/
def headBytes (seq gen : Nat) (bulk slc : Nat × Nat) : List Byte :=
  let b := leBytes 8 seq ++ leBytes 4 gen ++ leBytes 4 bulk.1 ++ leBytes 4 bulk.2 ++ leBytes 4 slc.1 ++ leBytes 4 slc.2
  b ++ leBytes 4 (crc32c b).toNat

def headOk (h : List Byte) : Bool := h.length == 32 && crc32c (h.take 28) == w32 (leNat (h.drop 28))
def headSeqOf (h : List Byte) : Nat := leNat (h.take 8)
def headGenOf (h : List Byte) : Nat := leNat ((h.drop 8).take 4)

/-- The newest head: the valid slot whose successor is not valid or does not hold the next generation (R467). -/
def newestHead (heads : Tab (List Byte)) : Option (List Byte) :=
  (heads.find? fun p => headOk p.2 && !(match tabFind heads ((p.1 + 1) % 8192) with
    | some n => headOk n && headGenOf n == (headGenOf p.2 + 1) % 2 ^ 32
    | none => false)).map (·.2)

/-- Write the index head of generation `gen` into its slot, the slots taken in turn (R466). -/
def writeHead (seq gen : Nat) (s : State) : State :=
  let (bulk, s) := openPlace s.lgs.bulkSeg s
  let (slc, s) := openPlace s.lgs.slcSeg s
  s.modLgs fun l => { l with nextSeq := seq, headGen := gen, heads := tabSet l.heads (gen % 8192) (headBytes seq gen bulk slc) }

/-- A commit point: every record placed is committed (R466). -/
def commitPoint (s : State) : State :=
  let rs := s.lgs.placed
  let s := writeHead (s.lgs.nextSeq + rs.length) ((s.lgs.headGen + 1) % 2 ^ 32) s
  rs.foldl (fun s r => commitOne r s) (s.modLgs fun l => { l with placed := [] })

/-! ### Seals (R469) -/

/-- The digest of a seal: SHA-384 over the last one and the records committed since, as LGS_READ writes them. -/
def sealDigest (l : LogStore) : List Byte :=
  (Crypto.h48 ((l.digest ++ l.unsealed.flatMap recBytes).map (·.toNat))).map w8

/-- The body of the SEAL record of generation `gen` (R464). -/
def sealBody (gen : Nat) (l : LogStore) : List Byte :=
  leBytes 4 gen ++ leBytes 4 0 ++ leBytes 8 l.sealNext ++ leBytes 8 (l.nextSeq + 2 ^ 64 - 1) ++ sealDigest l ++ leBytes 8 0

/-- Force a commit point, copy the index, commit a SEAL record and save VT64. -/
def doSeal (waiter : Option (Nat × Nat)) (s : State) : State :=
  let s := commitPoint s
  let l := s.lgs
  let gen := (l.sealGen + 1) % 2 ^ 32
  let s := flushGap (fun _ => true) s
  let s := s.modLgs fun x => { x with sealGen := gen, digest := sealDigest l, sealNext := l.nextSeq, unsealed := [] }
  let s := s.modEm fun e => { e with savedVt := s.now, marker := true }
  enterSys { sysRecord 5 s.now 0 (sealBody gen l) s with waiter } s

/-- A CONFIG record (R464). -/
def configRecord (opcode : Nat) (sub : Sub) (s : State) : State :=
  enterSystem 6 s.now 0 (leBytes 2 opcode ++ List.replicate 6 0 ++ (List.range 48).map fun i => w8 (sub.p8 i)) s

/-! ### Start and resets (R44, R451, R474, R483) -/

/-- What eMRAM and the NAND keep through a reset. -/
def LogStore.kept (l : LogStore) : LogStore :=
  { classes := l.classes, mode := l.mode, ringMib := l.ringMib, nextSeq := l.nextSeq, headGen := l.headGen, sealGen := l.sealGen
    segs := l.segs, erases := l.erases, grown := l.grown, spares := l.spares, spares0 := l.spares0, slcSegs := l.slcSegs
    bulkSegs := l.bulkSegs, recs := l.recs, lostRecs := l.lostRecs, bytesIn := l.bytesIn, bytesOut := l.bytesOut
    programmed := l.programmed, hourMarks := l.hourMarks, softOnce := l.softOnce, unspared := l.unspared, toErase := l.toErase
    heads := l.heads, digest := l.digest, sealNext := l.sealNext, unsealed := l.unsealed, retryRuns := l.retryRuns }

/-- A fit the log store takes (R450, R451): 128 GiB to 32 TiB. -/
def nandOk (f : NandFit) : Bool :=
  let cap := 8 * f.ces * f.luns * f.blocks * f.pages * 16384
  f.qualified && ([1, 2, 4, 8] : List Nat).contains f.ces && 1 ≤ f.luns && f.luns ≤ 4 && (f.planes == 2 || f.planes == 4) &&
  2 ^ 37 ≤ cap && cap ≤ 2 ^ 45

/-- First power-up: 1/32 of the good blocks are the SLC region, 7% of the rest spares (R474). -/
def buildMap (f : NandFit) (l : LogStore) : LogStore :=
  let good := 8 * f.ces * f.luns * f.blocks - f.factoryBad.length
  let slc := good / 32
  let spare := (good - slc) * 7 / 100
  { l with
    slcSegs := slc / segBlocks f, spares := spare, spares0 := spare, bulkSegs := (good - slc - spare) / segBlocks f
    nextSeq := 0, sealGen := 0, recs := [], segs := [], erases := [], grown := [], unspared := [], toErase := [], heads := []
    digest := List.replicate 48 0, sealNext := 0, unsealed := [] }

/-- What the log store takes up: on a first power-up the map it builds and a first index head, else its newest head. -/
def takeIndex (f : NandFit) (s : State) : State :=
  match newestHead s.lgs.heads with
  | some h => s.modLgs fun l => { l with nextSeq := headSeqOf h, headGen := headGenOf h }
  | none => writeHead 0 0 (s.modLgs (buildMap f))

/-- READY_MAP.lgs_read and lgs_write set and WP_N is released, or LGS_GEOM, or LGS_INDEX where a device with history has no
valid index head (R482, R483; log 19). -/
def logReady (f : NandFit) (s : State) : State :=
  if !nandOk f then raiseFault Src.lgsGeom 0 unitNone s
  else if s.em.marker && (newestHead s.lgs.heads).isNone then raiseFault Src.lgsIndex 0 unitNone s
  else
    let s := (takeIndex f s).modLgs fun l => { l with
      fit := some f, bulkSeg := none, slcSeg := none, scrubDone := s.time.mono, scrubbing := true, scrubbed := [] }
    let s := s.modEm fun e => { e with marker := true }
    (setReady Rdy.lgsWrite (setReady Rdy.lgsRead s)).modPins fun p => { p with wpN := !s.fcu.safe }

/-! ### Power fail (R22, R23, R472) -/

/-- The ring records of the latest interval that fit in `room`, newest first taken. -/
def latestFit : List LogRec → Nat → List LogRec
  | [], _ => []
  | r :: rs, room => if recSize r ≤ room then r :: latestFit rs (room - recSize r) else []

/-- A flush begins: entries stop (R472). -/
def beginFlush (s : State) : State := s.modLgs fun l => { l with flushing := true }

/-- Place everything a list order gives, page by page, all programs passing. -/
def drainAll : Nat → State → State
  | 0, s => s
  | k + 1, s => if (nextPage s.lgs).1.isEmpty then s else drainAll k (programPage true s)

/-- The flush and seal of R472: the commit queue, the latest ring records of a class not OFF and not committed yet as a
trigger of source 2, GAP records of cause 3, a seal; then LGS_STAT.pf. -/
def flushAll (s : State) : State :=
  let room := qMax - s.lgs.fill
  let open' := s.lgs.ring.filter fun r => (s.lgs.cls r.cls).1 != 0 && (r.trig == 0xFFFFFFFF || s.lgs.backfill.contains r)
  let sorted := open'.foldl (fun acc r => insertByVt r acc) ([] : List LogRec)
  let take := if s.lgs.mode == 0 then (latestFit sorted.reverse room).reverse else []
  let s : State := match take.head?, take.getLast? with
    | some a, some b =>
      let id := s.lgs.nextTrig
      let t : LogTrig := { id, t := b.vt, pre := (b.vt - a.vt).toNat, post := 0, cls := 0, src := 2 }
      s.modLgs fun l => { l with
        trigs := l.trigs ++ [t], nextTrig := (id + 1) % 2 ^ 32
        queue := l.queue ++ take.map fun r => if r.trig == 0xFFFFFFFF then { r with trig := w32 id } else r, backfill := [] }
    | _, _ => s
  let s := (s.lgs.trigs.filter fun t => t.src != 2 && s.now.toNat < t.t.toNat + t.post).foldl
    (fun s t => enterGap { stream := 0, cls := t.cls, cause := 3, count := 0, first := t.t, last := t.t } s) s
  let s := drainAll (s.lgs.urgent.length + s.lgs.queue.length + s.lgs.sysWait.length + 1) s
  let s := doSeal none s
  let s := commitPoint (drainAll (s.lgs.urgent.length + s.lgs.sysWait.length + 1) s)
  s.modLgs fun l => { l with pf := true, flushing := false }

/-! ### Life (R478) -/

/-- E, and whether it is measured: a value the spec leaves open once 1% of the blocks have passed 10% (log 22). -/
def lifeE (s : State) : Nat × Bool :=
  match s.lgs.fit with
  | none => (0, false)
  | some f =>
    let worn := (s.lgs.erases.filter fun p => f.endurance ≤ 10 * p.2).length
    if 8 * f.ces * f.luns * f.blocks ≤ 100 * worn && 0 < worn then ((Config.freeValue s.free).toNat % 2 ^ 16, true)
    else (f.endurance, false)

def goodBlocks (s : State) : Nat :=
  match s.lgs.fit with
  | none => 0
  | some f => 8 * f.ces * f.luns * f.blocks - f.factoryBad.length - s.lgs.grown.length

/-- Σ (E − e_b) x B_blk over the good blocks, in bytes. -/
def lifeSum (s : State) : Nat :=
  match s.lgs.fit with
  | none => 0
  | some f =>
    let used := (s.lgs.erases.filter fun p => !s.lgs.grown.contains p.1).foldl (fun a p => a + p.2) 0
    ((lifeE s).1 * goodBlocks s - used) * blockBytes f

/-- D of a projection: bytes per operating day over the last 168 operating hours, or since first power-up. -/
def lifeD (s : State) (ring : Bool) : Nat :=
  let pick := fun (p : Nat × Nat) => if ring then p.2 else p.1
  let total := if ring then s.lgs.bytesOut else s.lgs.bytesIn
  let h := min s.em.hours 168
  let from' := if s.em.hours < 168 then 0 else match s.lgs.hourMarks[167]? with | some p => pick p | none => 0
  if h == 0 then 0 else (total - from') * 24 / h

/-- W x 1,000. -/
def lifeW (s : State) : Nat := if s.lgs.bytesOut == 0 then 1000 else s.lgs.programmed * 1000 / s.lgs.bytesOut

def lifeDays (s : State) (ring : Bool) : Nat :=
  let dw := lifeD s ring * lifeW s
  if s.em.hours == 0 || dw == 0 then 0xFFFFFFFF else min 0xFFFFFFFE (lifeSum s * 1000 / dw)

/-- The projection in the current mode, and LGS_LIFE_LOW (R478). -/
def lifeNow (s : State) : Nat := lifeDays s (s.lgs.mode == 0)
def lifeCheck (s : State) : State := setCause Src.lgsLifeLow (lifeNow s < 2500) 0 s

def lifeBytes (s : State) : List Byte :=
  leBytes 4 (lifeDays s true) ++ leBytes 4 (lifeDays s false) ++ leBytes 4 (lifeE s).1 ++ leBytes 1 (bit (lifeE s).2) ++
  leBytes 3 0 ++ leBytes 8 (lifeSum s) ++ leBytes 8 (lifeD s true) ++ leBytes 8 (lifeD s false) ++ leBytes 4 (lifeW s) ++
  leBytes 4 (goodBlocks s) ++ leBytes 4 s.lgs.spares ++ leBytes 4 s.lgs.grown.length ++ leBytes 8 0

/-! ### Registers (R480) and group 3 (R481) -/

/-- Lowest retained seq: next_seq where nothing is retained. -/
def LogStore.oldest (l : LogStore) : Nat := match l.recs with | r :: _ => r.seq | [] => l.nextSeq

def lgsStat (s : State) : W32 :=
  w32 (2048 * s.lgs.shed.length + 64 * s.lgs.trigs.length + 32 * bit s.lgs.pf + 16 * bit (!s.pins.wpN) + s.lgs.mode)

/-- LGS_QFILL, whose peak a read clears (R6, R480). -/
def readQfill (s : State) : W32 × State :=
  (w32 (65536 * (max s.lgs.peak s.lgs.fill / 16384) + s.lgs.fill / 16384), s.modLgs fun l => { l with peak := 0 })

def appQueue (n : Nat) (s : State) : List W32 := tabGet s.lgs.appends n []

def appStat (n : Nat) (s : State) : W32 :=
  w32 (65536 * (tabGet s.lgs.accepted n 0 % 65536) + (64 - (appQueue n s).length))

/-- The descriptor's place an append request names (R455). -/
def appendPlace (n : Nat) (val : W32) : Option (MemRef × Nat) :=
  let a := 32 * bitsAt val.toNat 0 30
  match bitsAt val.toNat 30 2 with
  | 0 => some (.csm n, a)
  | 1 => some (.dram, a)
  | _ => none

/-- Is the place mapped for the descriptor's 32 bytes? -/
def placeOk (s : State) (p : MemRef × Nat) (n : Nat) : Bool :=
  match p.1 with
  | .csm c => s.csmOk c && p.2 + n ≤ 0x400000
  | .dram => s.dramOk p.2 n
  | _ => false

/-- Write the result word of a descriptor, or raise LGS_APP_ERR where it cannot be written (R456). -/
def appendResult (n : Nat) (val : W32) (res : Nat) (s : State) : State :=
  match appendPlace n val with
  | some p =>
    if placeOk s p 32 then
      let (ok, s) := memStore p.1 (p.2 + 0x18) (leBytes 8 res) s
      if ok then s else raiseFault Src.lgsAppErr 0 unitNone s
    else raiseFault Src.lgsAppErr 0 unitNone s
  | none => raiseFault Src.lgsAppErr 0 unitNone s

/-- A write of LGS_APPEND[n]: queued, or answered QUEUE_FULL at once (R455, R456). -/
def appendWrite (n : Nat) (val : W32) (s : State) : State :=
  if 64 ≤ (appQueue n s).length then appendResult n val (2 ^ 62 + 5) s
  else s.modLgs fun l => { l with
    appends := tabMod l.appends n [] (· ++ [val]), accepted := tabMod l.accepted n 0 (· + 1) }

def readLgs (off : Nat) (s : State) : W32 × State :=
  let l := s.lgs
  if inRange off 0x100 0x180 then ((if off % 8 == 4 then appStat ((off - 0x100) / 8) s else 0), s)
  else match off with
    | 0x00 => (lgsStat s, s)
    | 0x08 => (w32 l.nextSeq, s)
    | 0x0C => (w32 (l.nextSeq / 2 ^ 32), s)
    | 0x10 => (w32 l.oldest, s)
    | 0x14 => (w32 (l.oldest / 2 ^ 32), s)
    | 0x20 => (lo32 l.trigPre, s)
    | 0x24 => (hi32 l.trigPre, s)
    | 0x28 => (lo32 l.trigPost, s)
    | 0x2C => (hi32 l.trigPost, s)
    | 0x30 => readQfill s
    | _ => (0, s)

def writeLgs (off : Nat) (val : W32) (s : State) : State :=
  if inRange off 0x100 0x180 then (if off % 8 == 0 then appendWrite ((off - 0x100) / 8) val s else s)
  else match off with
    | 0x20 => holdLo 0x600020 val s
    | 0x24 =>
      let (v, s) := withHeldLo 0x600020 s.lgs.trigPre val s
      if v.toNat < 2 ^ 63 then s.modLgs fun l => { l with trigPre := v } else s
    | 0x28 => holdLo 0x600028 val s
    | 0x2C =>
      let (v, s) := withHeldLo 0x600028 s.lgs.trigPost val s
      if v.toNat ≤ 57600000000000 then s.modLgs fun l => { l with trigPost := v } else s
    | _ => s

/-- Group 3 (R481). -/
def group3 (s : State) : List W32 :=
  let l := s.lgs
  let b64 := fun n => [w32 n, w32 (n / 2 ^ 32)]
  let old := match l.recs with | r :: _ => r.vt.toNat | [] => 0
  let ringOld := if l.mode == 1 then 0 else match l.ring with | r :: _ => r.vt.toNat | [] => 0
  let maxE := l.erases.foldl (fun a p => max a p.2) 0
  let sumE := l.erases.foldl (fun a p => a + p.2) 0
  let g := goodBlocks s
  let used := l.segs.length * (match l.fit with | some f => segBlocks f | none => 0)
  let pct := if used == 0 then 100 else min 100 (100 * l.scrubbed.length / used)
  b64 l.nextSeq ++ b64 l.oldest ++ b64 old ++
  [w32 (65536 * l.ringMib + 128 * bit (!s.pins.wpN) + 64 * bit l.pf + 32 * l.mode + l.shed.length),
    w32 (l.fill / 1024), w32 (l.strokePeak / 1024), w32 l.trigs.length, w32 (l.nextTrig - 1)] ++ b64 ringOld ++
  [w32 l.sealGen, w32 (l.strokeBytes / 16), w32 l.strokeRecs] ++
  ((List.range 16).map fun c => w32 (min (tabGet l.refusedBy c 0) 0xFFFFFFFF)) ++
  ((List.range 8).map fun h => w32 (65536 * (l.grown.filter fun b => b % 8 == h).length + l.spares / 8)) ++
  ((List.range 8).map fun h => w32 (tabGet l.retries h 0)) ++
  [w32 l.uncorr, w32 (lifeDays s true), w32 (lifeDays s false), w32 maxE, w32 (if g == 0 then 0 else sumE / g),
    w32 (lifeE s).1, w32 (2 ^ 24 * pct + min (2 ^ 24 - 1) ((s.time.mono - l.scrubDone) / 57600000000000)), w32 l.refreshed,
    w32 l.gapRecs] ++ List.replicate 7 0

end Sys2Proof.Machine
end

