-- ==== Sys2Proof/Machine/Queue.lean ====
section
/-! DEFINITION. Queue pairs: admin-queue registers, doorbells, fetching, posting, deletion, function resets (R84 to R106). -/
namespace Sys2Proof.Machine

/-- A function that exists: the PF or an enabled VF (R71, R85). -/
def State.fnExists (s : State) (v : Nat) : Bool := v == 0 || v ≤ s.link.numVfs

/-- Its admin queue answers (R90). -/
def State.adminUp (s : State) (v : Nat) : Bool := s.alive && s.link.up && s.ready Rdy.pcieAdmin && s.fnExists v

/-- The QPs of one function, by global number. -/
def State.qpsOf (s : State) (v : Nat) : List Nat := (s.link.qps.map (·.1)).filter fun q => s.fnOf q == v

/-- Contexts pinned now, admin queues aside (R86, R87). -/
def State.pinned (s : State) : Nat := (s.link.qps.filter fun p => p.2.pin && !p.2.admin).length

/-- Use a context: it becomes the most recent of the cache, and the least recent unpinned one leaves (R87). The spec does not
say which accesses are uses: DESIGN CHOICE, SQ fetches alone (log 145). -/
def touchCtx (q : Nat) (s : State) : State :=
  let c := s.qp q
  if s.isAdmin q then s
  else if c.pin then s.modLink fun l => { l with hits := l.hits + 1 }
  else
    let hit := s.link.cache.contains q
    let room := 4096 - s.pinned
    s.modLink fun l => { l with
      cache := (q :: l.cache.filter (· != q)).take room
      hits := if hit then l.hits + 1 else l.hits
      misses := if hit then l.misses else l.misses + 1 }

/-! ### Deletion (R103, R104) -/

/-- A QP begins to delete: nothing more is fetched or posted; what is owed runs on, and a QP_DELETE that waits for the QP
already keeps its claim. -/
def startDelete (deleter : Option (Nat × Nat)) (q : Nat) (s : State) : State :=
  s.setQp q fun c => { c with state := .deleting, deleter := c.deleter <|> deleter }

/-- SQ reads whose data will not come: their slots are not owed. -/
def dropReads (q : Nat) (s : State) : State := s.setQp q fun c => { c with owed := c.owed - c.reading, reading := 0 }

/-- The QP number of a stream without one (R426). -/
def noQp : Nat := 0xFFFFFFFF

/-- Streams bound to a QP that is gone keep their rings and post no entries (R100, R103, R426; log 146). -/
def unbindStreams (q : Nat) (s : State) : State :=
  s.modPorts fun p => { p with streams := p.streams.map fun x =>
    (x.1, match x.2.ring with | some (b, n, g) => if g == q then { x.2 with ring := some (b, n, noQp) } else x.2 | none => x.2) }

/-- The QP is gone: its context, its bindings, its place in the cache; its commands have finished, image writes too. -/
def dropQp (q : Nat) (s : State) : State :=
  (unbindStreams q (endWrites (fun w _ => w == q) s)).modLink fun l => { l with
    qps := tabDel l.qps q
    binds := l.binds.filter fun b => b.2.qp != q
    cache := l.cache.filter (· != q)
    posting := l.posting.filter fun u => u.qp != q }

/-- Every QP of a function deletes. -/
def deleteFn (v : Nat) (s : State) : State := (s.qpsOf v).foldl (fun s q => startDelete none q s) s

/-- A reset of a function: its QPs delete, its SQ reads bring nothing any more, and its registers return to their reset
values (R104). -/
def resetFn (v : Nat) (s : State) : State :=
  ((s.qpsOf v).foldl (fun s q => dropReads q s) (deleteFn v s)).modLink fun l => { l with
    fns := tabDel l.fns v
    msix := l.msix.filter fun e => e.1 / 2048 != v
    pba := l.pba.filter fun k => k / 2048 != v }

/-- The last owed command of a deleting QP has finished. AQ_STAT.cause clears with rdy and fault: R91 names only those two,
DESIGN CHOICE (log 147). -/
def deleteDone (q : Nat) (s : State) : State :=
  let v := s.fnOf q
  let c := s.qp q
  let s := dropQp q s
  let s := match c.deleter with
    | some (p, cid) => finish p cid 0 0 s
    | none => s
  if (s.qpsOf v).isEmpty && !(s.fn v).en then s.setFn v fun a => { a with rdy := false, fault := false, cause := 0 } else s

/-- QP_DELETE_COMPLETE (R103). -/
def execQpDeleteComplete (q : Nat) (s : State) : Res :=
  let c := s.qp q
  act (c.state == .deleting && c.reading == 0 && c.cmds.all fun m => match m.phase with | .done _ => true | _ => false) (deleteDone q) s

/-! ### Admin queues (R90, R91) -/

/-- AQ_CTL.en goes to 1. R90 fixes evt_en, intr_en, weight and vector of the admin QP's context but not pin: DESIGN CHOICE, it
reads 1 in QP_QUERY (log 148). -/
def aqEnable (v : Nat) (s : State) : State :=
  let a := s.fn v
  let q := globalQp v 0
  let sd := bitsAt a.size.toNat 0 16
  let cd := bitsAt a.size.toNat 16 16
  let ok := a.sqb.toNat % 4096 == 0 && a.cqb.toNat % 4096 == 0 && 1 ≤ sd && 3 ≤ cd
  if !ok then s.setFn v fun a => { a with en := true, rdy := false, fault := true, cause := 1 }
  else
    let s := s.setFn v fun a => { a with en := true, rdy := true, fault := false, cause := 0 }
    s.setQp q fun _ => { sqBase := a.sqb, cqBase := a.cqb, sqDepthM1 := sd, cqDepthM1 := cd, state := .active, intrEn := true, evtEn := true, pin := true, admin := true }

/-- An admin QP being deleted is not enabled again before it is gone (log 18). -/
def aqCanEnable (v : Nat) (s : State) : Bool := s.adminUp v && !(s.fn v).en && (s.qp (globalQp v 0)).state == .free

/-- AQ_CTL_ENABLE (R91). -/
def execAqCtlEnable (v : Nat) (s : State) : Res := act (aqCanEnable v s) (aqEnable v) s

def aqDisable (v : Nat) (s : State) : State :=
  let s := deleteFn v (s.setFn v fun a => { a with en := false })
  if (s.qpsOf v).isEmpty then s.setFn v fun a => { a with rdy := false, fault := false, cause := 0 } else s

/-- AQ_CTL_DISABLE (R91). -/
def execAqCtlDisable (v : Nat) (s : State) : Res := act (s.adminUp v && (s.fn v).en) (aqDisable v) s

def aqKey (v : Nat) : Nat := if v == 0 then 0x10000 else 0x8000000000 + 0x10000 * v

def readAq (v off : Nat) (s : State) : W32 :=
  let a := s.fn v
  match off with
  | 0x00 => lo32 a.sqb
  | 0x04 => hi32 a.sqb
  | 0x08 => lo32 a.cqb
  | 0x0C => hi32 a.cqb
  | 0x10 => a.size
  | 0x14 => w32 (bit a.en)
  | 0x18 => w32 (256 * a.cause + 2 * bit a.fault + bit a.rdy)
  | _ => 0

/-- Write an admin-queue register; bases and sizes are fixed while en is 1 (R90). -/
def writeAq (v off : Nat) (val : W32) (s : State) : State :=
  let a := s.fn v
  if off == 0x14 then
    if val.getLsbD 0 then (if aqCanEnable v s then aqEnable v s else s) else (if a.en then aqDisable v s else s)
  else if a.en then s
  else match off with
    | 0x00 => holdLo (aqKey v) val s
    | 0x04 =>
      let (x, s) := withHeldLo (aqKey v) a.sqb val s
      s.setFn v fun a => { a with sqb := x }
    | 0x08 => holdLo (aqKey v + 8) val s
    | 0x0C =>
      let (x, s) := withHeldLo (aqKey v + 8) a.cqb val s
      s.setFn v fun a => { a with cqb := x }
    | 0x10 => s.setFn v fun a => { a with size := val }
    | _ => s

/-! ### Doorbells (R92 to R94) -/

/-- The global QP a doorbell of a function names, if that function owns it. -/
def doorQp (v l : Nat) (s : State) : Option Nat :=
  let q := globalQp v l
  if s.fnExists v && l < (if v == 0 then 1048576 else 16384) && s.fnOf q == v then some q else none

/-- A doorbell write dropped and counted (R84, R93). -/
def dbDrop (v : Nat) (s : State) : State :=
  (s.setFn v fun a => { a with dbDrop := satAdd 32 a.dbDrop 1 }).count v fun c => { c with dbDrop := c.dbDrop + 1 }

def sqTail (q tail : Nat) (s : State) : State :=
  let c := s.qp q
  if c.sqDepthM1 < tail then qpFault q 2 s
  else s.setQp q fun c => { c with
    sqTail := tail, rungAt := if c.rungAt.isNone && tail != c.sqHead then some s.time.mono else c.rungAt }

def cqHead (q head : Nat) (s : State) : State :=
  let c := s.qp q
  let d := c.cqDepthM1 + 1
  if c.cqDepthM1 < head then qpFault q 2 s
  else if (c.cqTail + d - c.cqHead) % d < (head + d - c.cqHead) % d then qpFault q 3 s
  else s.setQp q fun c => { c with cqHead := head }

/-- One doorbell field of a function's local QP. -/
def doorbell (v l : Nat) (tail : Bool) (bytes : Nat) (val : W32) (s : State) : State :=
  match doorQp v l s with
  | some q =>
    if bytes == 4 && (s.qp q).state == .active then
      (if tail then sqTail q (bitsAt val.toNat 0 16) s else cqHead q (bitsAt val.toNat 0 16) s)
    else dbDrop v s
  | none => dbDrop v s

/-- A 64-bit write of both: SQ_TAIL first, then CQ_HEAD (R93). One write is dropped and counted as one; a tail that faults the
QP leaves the head unapplied. -/
def doorbellPair (v l : Nat) (tail head : W32) (s : State) : State :=
  match doorQp v l s with
  | some q =>
    if (s.qp q).state == .active then
      let s := sqTail q (bitsAt tail.toNat 0 16) s
      if (s.qp q).state == .active then cqHead q (bitsAt head.toNat 0 16) s else s
    else dbDrop v s
  | none => dbDrop v s

def State.bar2Up (s : State) (v : Nat) : Bool := s.alive && s.link.up && s.fnExists v

/-- SQ_TAIL_DOORBELL, CQ_HEAD_DOORBELL, DOORBELL_PAIR_WRITE (R93, R94). -/
def execSqTailDoorbell (v q bytes : Nat) (val : W32) (s : State) : Res := act (s.bar2Up v) (doorbell v q true bytes val) s
def execCqHeadDoorbell (v q bytes : Nat) (val : W32) (s : State) : Res := act (s.bar2Up v) (doorbell v q false bytes val) s
def execDoorbellPairWrite (v q : Nat) (tail head : W32) (s : State) : Res :=
  act (s.bar2Up v) (doorbellPair v q tail head) s

/-- QCAP_DBDROP as read, which clears it (R84, R6). -/
def readDbDrop (v : Nat) (s : State) : W32 × State := (w32 (s.fn v).dbDrop, s.setFn v fun a => { a with dbDrop := 0 })

/-- QCAP_DBDROP_READ (R84). -/
def execQcapDbdropRead (v : Nat) (s : State) : Res := act (s.bar2Up v) (fun s => emitVal (readDbDrop v s)) s

/-! ### Fetching (R88, R89, R98) -/

/-- Entries waiting in an SQ. -/
def Qp.waiting (c : Qp) : Nat := (c.sqTail + c.sqDepthM1 + 1 - c.sqHead) % (c.sqDepthM1 + 1)

/-- How many further submissions R98 admits. -/
def Qp.admits (c : Qp) : Nat := c.free - c.owed - (if c.evtEn then 1 else 0)

/-- Entries a visit fetches: one of an admin queue, else up to weight (R89). -/
def visitCount (s : State) (q : Nat) (c : Qp) : Nat := min (min c.waiting c.admits) (if s.isAdmin q then 1 else c.weight)

/-- Read requests of `n` entries under the function's Max Read Request Size, and those outstanding of a set of functions (R71). -/
def readRequests (s : State) (v n : Nat) : Nat := (64 * n + 128 * 2 ^ (s.fn v).mrrs - 1) / (128 * 2 ^ (s.fn v).mrrs)
def outstanding (s : State) (of : Nat → Bool) : Nat :=
  (s.link.qps.filter fun p => of (s.fnOf p.1)).foldl (fun a p => a + readRequests s (s.fnOf p.1) p.2.reading) 0

/-- Room for a visit's read requests: at most 768 outstanding on the device, 256 of a function without 10-bit tags (R71). -/
def tagsFree (s : State) (q : Nat) (c : Qp) : Bool :=
  let v := s.fnOf q
  let n := readRequests s v (visitCount s q c)
  outstanding s (fun _ => true) + n ≤ 768 && ((s.fn v).tags10 || outstanding s (· == v) + n ≤ 256)

def canFetch (s : State) (q : Nat) (c : Qp) : Bool :=
  c.state == .active && c.reading == 0 && !c.overflow && !s.mute (s.fnOf q) && 0 < c.waiting && 0 < c.admits && tagsFree s q c

/-- The first of a rising list after `last`, wrapping to the lowest. -/
def nextAfter (last : Nat) (l : List Nat) : Option Nat := match l.find? (last < ·) with | some q => some q | none => l.head?

/-- The SQ the arbiter visits next: an admin SQ before any other, each kind in ascending order from the one visited last
(R89). -/
def nextSq (s : State) : Option Nat :=
  let can := (s.link.qps.filter fun p => canFetch s p.1 p.2).map (·.1)
  match nextAfter s.link.lastAdmin (can.filter s.isAdmin) with
  | some q => some q
  | none => nextAfter s.link.lastVisit can

/-- Fetch what a visit takes of an SQ. -/
def fetchSq (q : Nat) (s : State) : State :=
  let c := s.qp q
  let adm := s.isAdmin q
  let n := visitCount s q c
  let slot := c.sqHead
  let s := touchCtx q s
  let s := s.modLink fun l => { l with
    lastVisit := if adm then l.lastVisit else q
    lastAdmin := if adm then q else l.lastAdmin
    maxDelay := match c.rungAt with | some t => max l.maxDelay ((s.time.mono - t) / 16) | none => l.maxDelay }
  let s := s.setQp q fun c => { c with
    sqHead := (c.sqHead + n) % (c.sqDepthM1 + 1), reading := n, owed := c.owed + n, rungAt := none }
  (s.count (s.fnOf q) fun c => { c with fetched := c.fetched + n }).emit (.sqRead q slot n)

def fetchNext (s : State) : State := match nextSq s with | some q => fetchSq q s | none => s

/-- SQ_ENTRY_FETCH (R89). -/
def execSqEntryFetch (s : State) : Res := act (s.alive && s.link.up) fetchNext s

/-- A 64-byte submission entry (R107). -/
def entryOf (b : List Byte) : Entry :=
  let at' := fun (o n : Nat) => leNat ((b.drop o).take n)
  { opcode := w16 (at' 0 2)
    sub := { flags := w16 (at' 2 2), tag := w16 (at' 4 2), rsvd := w16 (at' 6 2), stroke := w64 (at' 8 8)
             params := BitVec.ofNat 384 (at' 16 48) } }

/-- The entries of a read, in slot order. -/
def entriesOf (data : List Byte) : List Entry := (List.range (data.length / 64)).map fun i => entryOf ((data.drop (64 * i)).take 64)

/-- The commands of a read, numbered in submission order. -/
def takeEntries (q : Nat) : List Entry → State → State
  | [], s => s
  | e :: es, s =>
    let m : Cmd := { cid := s.basut.nextCid, opcode := e.opcode.toNat, sub := e.sub }
    takeEntries q es ((s.setQp q fun c => { c with cmds := c.cmds ++ [m] }).modBasut fun b => { b with nextCid := b.nextCid + 1 })

/-! ### Posting (R95, R99, R101, R115) -/

/-- The completion at the head of the order is written, or discarded on a QP that is faulted or deleting. The 10 us of a
WARM_RESET run from it (R122). -/
def postCompletion (q : Nat) (s : State) : State :=
  match (s.qp q).cmds with
  | m :: rest =>
    match m.phase with
    | .done e =>
      let act' := (s.qp q).state == .active
      let s := endWrites (fun w cid => w == q && cid == m.cid) (s.setQp q fun c => { c with cmds := rest, owed := c.owed - 1 })
      let s := if m.opcode == 0x0008 && e.status == 0 then s.modBoot fun b => { b with warmDelay := some s.time.mono } else s
      if act' then (writeCqe q e s).count (s.fnOf q) fun c => { c with cpls := c.cpls + 1 } else s
    | _ => s
  | [] => s

/-- COMPLETION_POST (R115). In D3hot the completions wait (R72). -/
def execCompletionPost (q : Nat) (s : State) : Res :=
  act ((s.qp q).state != .active || !s.mute (s.fnOf q)) (postCompletion q) s

def moderationExpire (q : Nat) (s : State) : State :=
  match (s.qp q).modDue with
  | some due =>
    let s := (s.bringTo due).setQp q fun c => { c with since := 0, modDue := none }
    if (s.qp q).intrEn then sendMsix (s.fnOf q) (s.qp q).vector s else s
  | none => s

/-- MODERATION_TIMER_EXPIRY (R101). -/
def execModerationTimerExpiry (q : Nat) (s : State) : Res := act s.alive (moderationExpire q) s

/-- The closing QUEUE_FULL entry (R98, R99). -/
def queueFullClose (q : Nat) (s : State) : State :=
  let c := s.qp q
  let s := s.setQp q fun c => { c with overflow := false, dropCount := 0 }
  (writeCqe q (queueFullEntry c.dropCount c.lastDrop c.lastQual) s).count (s.fnOf q) fun n => { n with unsol := n.unsol + 1 }

/-- QUEUE_FULL_CLOSE (R98). -/
def execQueueFullClose (q : Nat) (s : State) : Res :=
  let c := s.qp q
  act (c.state == .active && c.overflow && !c.openHeld && !s.mute (s.fnOf q) && c.owed + 2 ≤ c.free) (queueFullClose q) s

/-! ### MSI-X (R77, R101) -/

def msixEntryWord (e : MsixEntry) (w : Nat) : W32 :=
  match w with | 0 => e.addrLo | 1 => e.addrHi | 2 => e.data | _ => e.ctrl

def writeMsix (v vec word : Nat) (val : W32) (s : State) : State :=
  releaseMsix v (s.modLink fun l => { l with
    msix := tabMod l.msix (2048 * v + vec) {} fun e =>
      match word with
      | 0 => { e with addrLo := val }
      | 1 => { e with addrHi := val }
      | 2 => { e with data := val }
      | _ => { e with ctrl := val &&& 1 } })

/-- MSIX_TABLE_WRITE (R101). -/
def execMsixTableWrite (v vec word : Nat) (val : W32) (s : State) : Res :=
  act (s.bar2Up v && vec < 2048 && word < 4) (writeMsix v vec word val) s

/-- A word of the Pending Bit Array. -/
def pbaWord (v i : Nat) (s : State) : W32 :=
  w32 ((List.range 32).foldl (fun a b => a + 2 ^ b * bit (s.link.pba.contains (2048 * v + 32 * i + b))) 0)

/-! ### Resets of functions and power states (R72, R104) -/

def vfsClear (s : State) : State :=
  let vs := (List.range s.link.numVfs).map (· + 1)
  let s := vs.foldl (fun s v => resetFn v s) s
  s.modLink fun l => { l with numVfs := 0 }

def flr (v : Nat) (s : State) : State :=
  if v == 0 then
    let s := resetFn 0 (vfsClear s)
    s.modLink fun l => { l with ptmEn := false, ptmSent := none, ari := false, ecrcGen := false, ecrcChk := false }
  else resetFn v s

/-- FUNCTION_LEVEL_RESET (R104). -/
def execFunctionLevelReset (v : Nat) (s : State) : Res := act (s.bar2Up v) (flr v) s

/-- VF_ENABLE_CLEAR (R104). -/
def execVfEnableClear (s : State) : Res := act (s.bar2Up 0) vfsClear s

/-- D3HOT_TRANSITION (R72). -/
def execD3hotTransition (v : Nat) (s : State) : Res :=
  act (s.bar2Up v) (fun s => s.setFn v fun a => { a with d3hot := true }) s

/-- Back in D0: held opening entries and held messages go out (R72, log 15). -/
def toD0 (v : Nat) (s : State) : State :=
  let s := s.setFn v fun a => { a with d3hot := false }
  let s := (s.qpsOf v).foldl (fun s q =>
    let c := s.qp q
    if c.openHeld && c.state == .active then
      (writeCqe q (queueFullEntry 0 c.firstDrop c.firstQual) (s.setQp q fun c => { c with openHeld := false })).count v
        fun n => { n with unsol := n.unsol + 1 }
    else s) s
  releaseMsix v s

/-! ### The errors of R105 -/

/-- Where AER's status registers show an error: uncorrectable or not, and the bit (log 8). -/
def aerBit : TlpError → Bool × Nat
  | .receiver => (false, 0) | .badTlp => (false, 6) | .badDllp => (false, 7) | .replayRollover => (false, 8)
  | .replayTimeout => (false, 12) | .correctedInternal => (false, 14)
  | .dlProtocol => (true, 4) | .poisonedWrite => (true, 12) | .poisonedCompletion => (true, 12) | .completionTimeout => (true, 14)
  | .completerAbort => (true, 15) | .unexpectedCompletion => (true, 16) | .rxOverflow => (true, 17) | .malformed => (true, 18)
  | .ecrc => (true, 19) | .unsupportedRequest => (true, 20) | .uncorrectableInternal => (true, 22)

/-- The standard's default severity: 0 correctable, 1 non-fatal, 2 fatal (log 8). -/
def aerSeverity (e : TlpError) : Nat :=
  match e with
  | .dlProtocol | .rxOverflow | .malformed | .uncorrectableInternal => 2
  | _ => if (aerBit e).1 then 1 else 0

/-- Log an error with the header of its TLP: the status bit, the Header Log of the first uncorrectable error, the PF's message
on vector 0, and the fault source of an internal error (R102, R105). An ECRC error is found only where checking is enabled
(R71). -/
def logError (e : TlpError) (header : W64 × W64) (s : State) : State :=
  if e == .ecrc && !s.link.ecrcChk then s
  else
    let s := s.modLink fun l => { l with
      aer := if l.aer.contains e then l.aer else l.aer ++ [e]
      hdrLog := if l.hdrLog.isNone && (aerBit e).1 then some (e, header) else l.hdrLog }
    let s := sendMsix 0 0 (s.emit (.aer e (aerSeverity e)))
    match e with
    | .correctedInternal => raiseFault Src.pcieCie 0 unitNone s
    | .uncorrectableInternal => raiseFault Src.pcieUie 0 unitNone s
    | _ => s

/-- Log an error the device meets itself; the header of the TLP is the requester's, a value the model leaves free (log 7). -/
def tlpError (e : TlpError) (s : State) : State :=
  let r0 := s.draw
  let r1 := r0.2.draw
  logError e (r0.1, r1.1) r1.2

/-- PCIE_TLP_ERROR (R105). -/
def execPcieTlpError (e : TlpError) (header : BitVec 128) (s : State) : Res :=
  act (s.alive && s.link.up) (logError e (header.extractLsb' 0 64, header.extractLsb' 64 64)) s

/-! ### SQ reads that return (R89, R105) -/

/-- A failed SQ read: its slots are not owed, and an ACTIVE QP faults. -/
def fetchFailed (q cause : Nat) (s : State) : State :=
  let s := dropReads q s
  if (s.qp q).state == .active then qpFault q cause s else s

/-- An SQ read returns. -/
def readDone (q : Nat) (d : SqData) (s : State) : State :=
  match d with
  | .bytes data => takeEntries q (entriesOf data) (s.setQp q fun c => { c with reading := 0 })
  | .poisoned => fetchFailed q 4 (tlpError .poisonedCompletion s)
  | .failed => fetchFailed q 4 s

/-- SQ_READ_TIMEOUT (R71, R105): not while the Completion Timeout is disabled. -/
def execSqReadTimeout (q : Nat) (s : State) : Res :=
  act (0 < (s.qp q).reading && !(s.fn (s.fnOf q)).ctoOff) (fun s => fetchFailed q 5 (tlpError .completionTimeout s)) s

/-! ### Group 6 (R106) -/

/-- Group 6 over the QPs of one function's view; the PF's covers all. -/
def group6 (v : Nat) (s : State) : List W32 :=
  let qs := s.link.qps.filter fun p => v == 0 || s.fnOf p.1 == v
  let cs := (s.link.counts.filter fun p => v == 0 || p.1 == v).map (·.2)
  let inState := fun (t : QpState) => w32 ((qs.filter fun p => p.2.state == t).length)
  let opn := (qs.filter fun p => p.2.overflow).map (·.1)
  let sum := fun (f : QCounts → Nat) => w32 (min (cs.foldl (fun a c => a + f c) 0) 0xFFFFFFFF)
  let shared := fun n => if v == 0 then w32 (min n 0xFFFFFFFF) else 0
  [inState .active, inState .faulted, inState .deleting, w32 opn.length, sum (·.fetched), sum (·.cpls), sum (·.unsol),
    sum (·.dropped), sum (·.opened), sum (·.msix), sum (·.dbDrop), w32 (qs.foldl (fun a p => max a p.2.owed) 0),
    shared s.pinned, shared s.link.hits, shared s.link.misses, shared s.link.maxDelay] ++
  (List.range 16).map fun i => match opn[i]? with | some q => w32 q | none => 0xFFFFFFFF

end Sys2Proof.Machine
end

