-- ==== Sys2Proof/Machine/PcieCfg.lean ====
section
/-! DEFINITION. The configuration space of the functions (R70, R71, R76, R102, R105). The standard fixes the header and the layout
of each capability; where a capability lies is the model's (log 144). -/
namespace Sys2Proof.Machine

/-- Sizes of the BARs of the PF and of a VF (R76). -/
def barSizePf (bar : Nat) : Nat := if bar == 0 then 0x4000000 else if bar == 2 then 0x1000000 else if bar == 4 then 0x1000000000 else 0
def barSizeVf (bar : Nat) : Nat := if bar == 0 then 0x10000 else if bar == 2 then 0x40000 else 0
def barSize (v bar : Nat) : Nat := if v == 0 then barSizePf bar else barSizeVf bar

/-- The attribute bits of a BAR: every BAR is 64-bit, BAR4 of the PF prefetchable (R76). -/
def barAttr (v bar : Nat) : Nat := if barSize v bar == 0 then 0 else if v == 0 && bar == 4 then 0xC else 0x4

/-- The 64 bits of a BAR: the assigned base, a multiple of its size, above the attribute bits. -/
def barWord (v bar : Nat) (s : State) : Nat := (tabGet s.link.bars (8 * v + bar) 0).toNat + barAttr v bar

/-- Assign a base address, 32 bits at a time. -/
def writeBar (v bar : Nat) (val : W32) (s : State) : State :=
  let b := bar / 2 * 2
  let sz := barSize v b
  if sz == 0 then s
  else
    let x := tabGet s.link.bars (8 * v + b) 0
    let y := if bar % 2 == 1 then setHi x val else setLo x val
    s.modLink fun l => { l with bars := tabSet l.bars (8 * v + b) (w64 (y.toNat / sz * sz)) }

/-- Vendor, device and class (R70). -/
def deviceId (v : Nat) : Nat := if v == 0 then 0x3192 else 0x3193
def pciClass : Nat := 0x118000

/-- The vector of the PF's AER message, as its Interrupt Message Number reports it (R102). -/
def aerMessage : Nat := 0

/-- AER's status, severity and header words. -/
def aerWord (uncor : Bool) (l : List TlpError) : Nat := ((l.filter fun e => (aerBit e).1 == uncor).map fun e => (aerBit e).2).dedup.foldl (fun a b => a + 2 ^ b) 0
def aerFatal : Nat := 2 ^ 4 + 2 ^ 17 + 2 ^ 18 + 2 ^ 22

/-- A dword of a function's configuration space. -/
def cfgWord (v off : Nat) (s : State) : W32 :=
  let f := s.fn v
  w32 (match off with
    | 0x00 => if v == 0 then Config.pciVendor.toNat + 65536 * deviceId v else 0xFFFFFFFF
    | 0x08 => Config.pciRevision.toNat + 256 * pciClass
    | 0x10 => if v == 0 then barWord 0 0 s else 0
    | 0x14 => if v == 0 then barWord 0 0 s / 2 ^ 32 else 0
    | 0x18 => if v == 0 then barWord 0 2 s else 0
    | 0x1C => if v == 0 then barWord 0 2 s / 2 ^ 32 else 0
    | 0x20 => if v == 0 then barWord 0 4 s else 0
    | 0x24 => if v == 0 then barWord 0 4 s / 2 ^ 32 else 0
    | 0x34 => 0x40
    -- PCI Express: capabilities, Device Control, Link Status, Device Control 2
    | 0x40 => 0x00028010
    | 0x44 => 0x10008022
    | 0x48 => 16 * bit f.relaxed + 32 * f.mps + 4096 * f.mrrs
    | 0x50 => 65536 * (s.link.speed + 16 * s.link.width)
    | 0x68 => f.ctoRange + 16 * bit f.ctoOff + 4096 * bit f.tags10
    -- MSI-X: 2,048 entries at BAR0 0x8000, pending bits at 0x7000
    | 0x80 => 0x11 + 65536 * (0x7FF + 2 ^ 14 * bit f.msixMask + 2 ^ 15 * bit f.msixEn)
    | 0x84 => 0x8000
    | 0x88 => 0x7000
    -- Power management: D0 or D3hot
    | 0x94 => if f.d3hot then 3 else 0
    -- AER, PF only
    | 0x104 => if v == 0 then aerWord true s.link.aer else 0
    | 0x10C => if v == 0 then aerFatal else 0
    | 0x110 => if v == 0 then aerWord false s.link.aer else 0
    | 0x118 => if v == 0 then (match s.link.hdrLog with | some (e, _) => (aerBit e).2 | none => 0) + 64 * bit s.link.ecrcGen + 256 * bit s.link.ecrcChk + 160 else 0
    | 0x11C => if v == 0 then (match s.link.hdrLog with | some (_, a, _) => (lo32 a).toNat | none => 0) else 0
    | 0x120 => if v == 0 then (match s.link.hdrLog with | some (_, a, _) => (hi32 a).toNat | none => 0) else 0
    | 0x124 => if v == 0 then (match s.link.hdrLog with | some (_, _, b) => (lo32 b).toNat | none => 0) else 0
    | 0x128 => if v == 0 then (match s.link.hdrLog with | some (_, _, b) => (hi32 b).toNat | none => 0) else 0
    | 0x130 => if v == 0 then 2 ^ 27 * aerMessage else 0
    -- SR-IOV, PF only: control, VFs, offset and stride, VF device ID, VF BARs
    | 0x148 => if v == 0 then bit (s.link.numVfs != 0) + 16 * bit s.link.ari else 0
    | 0x14C => if v == 0 then 63 + 65536 * 63 else 0
    | 0x150 => if v == 0 then s.link.numVfs else 0
    | 0x154 => if v == 0 then 1 + 65536 * 1 else 0
    | 0x158 => if v == 0 then 65536 * deviceId 1 else 0
    | 0x164 => if v == 0 then barWord 1 0 s else 0
    | 0x168 => if v == 0 then barWord 1 0 s / 2 ^ 32 else 0
    | 0x16C => if v == 0 then barWord 1 2 s else 0
    | 0x170 => if v == 0 then barWord 1 2 s / 2 ^ 32 else 0
    -- PTM: requester only; PTM Enable
    | 0x184 => if v == 0 then 1 else 0
    | 0x188 => if v == 0 then bit s.link.ptmEn else 0
    | _ => 0)

/-- Bytes of a configuration read. -/
def cfgBytes (v off n : Nat) (s : State) : List Byte :=
  (List.range n).map fun i => ((leBytes 4 (cfgWord v ((off + i) / 4 * 4) s).toNat)[(off + i) % 4]?).getD 0

/-- Device Control (R71): a Max Payload Size above 512 B or a Max Read Request Size above 4,096 B leaves its field as it was. -/
def writeDevCtl (v : Nat) (val : W32) (s : State) : State :=
  let n := val.toNat
  s.setFn v fun a => { a with
    relaxed := val.getLsbD 4, mps := if bitsAt n 5 3 ≤ 2 then bitsAt n 5 3 else a.mps
    mrrs := if bitsAt n 12 3 ≤ 5 then bitsAt n 12 3 else a.mrrs }

/-- Device Control 2 (R71): Completion Timeout range A or B (values 0, 1, 2, 5, 6), its disable, 10-bit tags. -/
def writeDevCtl2 (v : Nat) (val : W32) (s : State) : State :=
  let n := bitsAt val.toNat 0 4
  s.setFn v fun a => { a with
    ctoRange := if ([0, 1, 2, 5, 6] : List Nat).contains n then n else a.ctoRange, ctoOff := val.getLsbD 4, tags10 := val.getLsbD 12 }

/-- AER's status registers are W1C; the Header Log is free again once its error is cleared. -/
def clearAer (uncor : Bool) (val : W32) (s : State) : State :=
  let gone := fun (e : TlpError) => (aerBit e).1 == uncor && val.getLsbD (aerBit e).2
  s.modLink fun l => { l with
    aer := l.aer.filter fun e => !gone e
    hdrLog := match l.hdrLog with | some (e, h) => if gone e then none else some (e, h) | none => none }

/-- The link trains to a width and a speed the device supports (R70); else it stays down. -/
def trainPcie (width speed : Nat) (s : State) : State :=
  if ([1, 2, 4, 8] : List Nat).contains width && inRange speed 1 6 then s.modLink fun l => { l with up := true, width := width, speed := speed }
  else s.modLink fun l => { l with up := false, width := 0, speed := 0 }

/-- How many VFs may be enabled: 63, without an ARI-capable hierarchy 7 (R71). -/
def vfLimit (s : State) : Nat := if s.link.ari then 63 else 7

/-- VF Enable with NumVFs (R71, R104). -/
def setNumVfs (n : Nat) (s : State) : State :=
  if n == 0 then vfsClear s
  else if s.link.numVfs == 0 && n ≤ vfLimit s then s.modLink fun l => { l with numVfs := n } else s

end Sys2Proof.Machine
end

