-- ==== Sys2Proof/Machine/Boot.lean ====
section
/-! DEFINITION. Pins, resets, image verification, boot, power fail and temperature (R14 to R33, R41, R43 to R69, R176, R180,
R374). -/
namespace Sys2Proof.Machine

/-! ### Resets (R43, R44) -/

/-- The codewords in error that a memory's own contents hold, kept with them. -/
def keepEcc (keep : Nat → Bool) (t : Tab EccRec) : Tab EccRec :=
  (t.filter fun p => keep p.1 && !p.2.bad.isEmpty).map fun p => (p.1, ({ bad := p.2.bad, back := p.2.back, injected := p.2.injected } : EccRec))

/-- Output pins and held levels after a power-on reset; what is driven from outside stays (R33). -/
def pinsAfter (p : Pins) : Pins :=
  { porstN := p.porstN, wrstN := p.wrstN, perstN := p.perstN, pfailN := p.pfailN, tioIn := p.tioIn, tjBand := p.tjBand
    rails := p.rails }

/-- Power-on reset (R43, R44): eMRAM, fuses and NAND stay. -/
def powerOnReset (cause : Nat) (s : State) : State :=
  { pins := pinsAfter s.pins
    em := cutWrites s.em, fuses := s.fuses, lgs := s.lgs.kept, out := s.out, free := s.free, pending := s.pending
    fab := { ecc := keepEcc (· == instEmram) s.fab.ecc }
    boot := { cause := cause, held := true, straps := s.boot.straps } }

/-- The time engine through a warm reset: VT64 and the servo state stay (R44; log 23). -/
def timeKept (t : TimeEng) : TimeEng :=
  { vt64 := t.vt64, mono := t.mono, counting := t.counting, era := t.era, step := t.step, servo := t.servo, source := t.source
    lock := t.lock, unlockRun := t.unlockRun, ofs := t.ofs, freq := t.freq, acqSamples := t.acqSamples, lockSegs := t.lockSegs
    segFrom := t.segFrom, holdFrom := t.holdFrom, tracks := t.tracks, pending := t.pending, lockThr := t.lockThr
    holdLimit := t.holdLimit, bandwidth := t.bandwidth, ref10 := t.ref10, path := t.path, ref10Lost := t.ref10Lost
    pathFailed := t.pathFailed, tdc := t.tdc, leadQual := t.leadQual, leadEra := t.leadEra }

/-- Warm reset (R43, R44): VT64, the servo, the journal, eMRAM, DRAM and the straps stay. -/
def warmReset (cause : Nat) (s : State) : State :=
  { pins := { pinsAfter s.pins with wrstN := true, pfailDone := s.pins.pfailDone, thermtripN := s.pins.thermtripN }
    em := cutWrites s.em, fuses := s.fuses, lgs := { s.lgs.kept with pf := s.lgs.pf }, out := s.out, free := s.free, pending := s.pending
    time := timeKept s.time
    fcu := { ring := s.fcu.ring, head := s.fcu.head, lost := s.fcu.lost, exp := s.fcu.exp, fill := s.fcu.fill }
    fab := { dram := s.fab.dram, ecc := keepEcc (fun k => inRange k 224 229) s.fab.ecc }
    boot := { cause := cause, held := false, straps := s.boot.straps, firstBoot := s.boot.firstBoot
              recoveryBit := s.boot.recoveryBit, recoverNow := s.boot.recoveryBit } }

/-- A warm reset is requested; the first request is the one performed (R43). -/
def askWarm (cause : Nat) (s : State) : State :=
  s.modBoot fun b => { b with warmReq := if b.warmReq.isSome then b.warmReq else some cause }

/-- PORST_N_LOW (R43). -/
def execPorstNLow (s : State) : Res :=
  act s.pins.porstN (fun s => powerOnReset 0 (s.modPins fun p => { p with porstN := false })) s

/-- PORST_N_RISE (R16, R18, R31): straps latched. The device leaves reset where the monitors see all three rails good at this
edge and BOOTSRC is not 0b11; else it stays held until PORST_N has been low and rises again. -/
def porstRise (straps : BitVec 7) (rails : BitVec 3) (s : State) : State :=
  (s.modPins fun p => { p with porstN := true, rails := rails }).modBoot fun b => { b with
    straps := straps, held := straps.toNat % 4 == 3 || rails != 7, firstBoot := !s.em.marker, phase := .selftest }
def execPorstNRise (straps : BitVec 7) (rails : BitVec 3) (s : State) : Res := act (!s.pins.porstN) (porstRise straps rails) s

def railBit : Rail → Nat
  | .vddCore => 0 | .vddSoc => 1 | .vddaSd => 2

/-- SUPPLY_MONITOR_TRIP (R14): the rail is no longer good, and the device is held until PORST_N rises anew (R16). -/
def supplyTrip (rail : Rail) (s : State) : State :=
  powerOnReset 1 (s.modPins fun p => { p with rails := putBit p.rails (railBit rail) false })
def execSupplyMonitorTrip (rail : Rail) (s : State) : Res := act s.pins.porstN (supplyTrip rail) s

/-- WRST_N_ASSERT (R28). -/
def execWrstNAssert (s : State) : Res :=
  act s.alive (fun s => askWarm 2 (s.modPins fun p => { p with wrstN := false })) s

/-- WARM_RESET_PERFORM (R44, R45): held while a power-fail flush runs. -/
def execWarmResetPerform (s : State) : Res :=
  act (s.alive && s.boot.warmReq.isSome && !s.lgs.flushing) (fun s => warmReset (s.boot.warmReq.getD 2) s) s

/-- PEGBOX_WATCHDOG (R43). -/
def execPegboxWatchdog (s : State) : Res := act s.alive (askWarm 4) s

/-- A host-delivered boot whose image data has not been accepted with go (R45, R48, R50). -/
def State.delivering (s : State) : Bool :=
  s.boot.verifying == .idle &&
  ((s.boot.straps.toNat % 4 == 1 && (s.boot.phase == .waitHost || s.boot.phase == .loadUcode)) || s.boot.phase == .bootFail)

/-- PERST_N_ASSERT (R30, R45, R104): the PCIe interface alone. A host-delivered boot loses the data not yet accepted and
waits for the host again; in BOOT_FAIL the phase stays (log 136). The pulse ends with the link trained again (log 11). -/
def perst (width speed : Nat) (s : State) : State :=
  let s := trainPcie width speed (flr 0 s)
  let s := s.modLink fun l => { l with aer := [], hdrLog := none, bars := [] }
  if s.delivering then
    (s.modFab fun b => { b with csm := tabDel (tabDel b.csm 0) 1 }).modBoot fun b => { b with
      phase := if b.phase == .bootFail then .bootFail else .waitHost }
  else s
def execPerstNAssert (width speed : Nat) (s : State) : Res := act s.alive (perst width speed) s

/-- RSTOUT_N_RISE (R17): the PCIe link trains, and from here it answers (R46, R70, log 11). -/
def execRstoutNRise (width speed : Nat) (s : State) : Res :=
  act (s.alive && !s.pins.rstoutN)
    (fun s => trainPcie width speed (s.modPins fun p => { p with rstoutN := true })) s

/-! ### The boot sequence (R45, R48 to R50, R56 to R58, R68) -/

def bootSrc (s : State) : Nat := s.boot.straps.toNat % 4

/-- The boot ROM reads an image from xSPI (R48). -/
def xspiReads (s : State) : Bool :=
  s.alive && bootSrc s == 0 && s.boot.verifying == .idle && (s.boot.phase == .loadFw || s.boot.phase == .loadUcode)

/-- The chip select of the device being read is low (R33, R48). -/
def selectXspi (s : State) : State :=
  s.modPins fun p => { p with xspiCs0N := !(xspiReads s && s.boot.attempt == 0), xspiCs1N := !(xspiReads s && s.boot.attempt == 1) }

/-- The verification of an image begins. -/
def beginVerify (v : VerifyFor) (i : List Byte) (s : State) : State :=
  s.modBoot fun b => { b with verifying := v, image := i }

/-- No image: BOOT_FAIL (R50). -/
def bootFail (s : State) : State :=
  raiseFault Src.bootFail 0 unitNone (s.modBoot fun b => { b with phase := .bootFail, verifying := .idle })

/-- The eMRAM recovery image is next, or nothing is left: BOOT_FAIL (R48 to R50). Where BOOT_CTL.recovery asks for an image
that eMRAM does not hold, the spec does not say whether the normal boot is tried: DESIGN CHOICE, BOOT_FAIL (log 137). -/
def tryRecovery (s : State) : State :=
  match s.em.recovery with
  | some i => beginVerify .emramRecovery i (s.modBoot fun b => { b with phase := .verifyFw, source := 2, attempt := 2 })
  | none => bootFail s

/-- The bridge links begin to train: as firmware starts, or in the boot ROM of a follower (R485, R492, R498). -/
def trainLinks (s : State) : State :=
  (s.modBrl fun b => { b with links := b.links.map fun l => if l.state == 0 then { l with state := 1 } else l }).modPins
    fun p => { p with brlTxUp := true }

/-- Once the fault collection unit runs: the conditions of R41 that the junction temperature still meets are raised, then
every LEVEL source whose cause stands without a record; above 135 °C, or with THERMTRIP_N still low, the trip itself. -/
def raiseStanding (s : State) : State :=
  let s := if 1 ≤ s.pins.tjBand then s.setRec Src.tjWarn fun r => { r with cause := true } else s
  let s := if 2 ≤ s.pins.tjBand then s.setRec Src.tjCrit fun r => { r with cause := true } else s
  let s := (s.fcu.recs.filter fun r => r.2.cause && !r.2.isOpen).foldl (fun s r => raiseFault r.1 0 unitNone s) s
  if s.pins.tjBand == 3 || !s.pins.thermtripN then
    raiseFault Src.thermtrip 0 unitNone (s.modPins fun p => { p with thermtripN := false })
  else s

/-- Self-test has passed: the supervision begins, then the first fetch (R41, R45, R48, R58, R68). -/
def selftestDone (s : State) : State :=
  let s := s.modBoot fun b => { b with selfTestDone := true }
  let s := s.modFcu fun u => { u with running := true }
  let s := journal 3 0 0 false 0 s.now (w64 s.boot.cause) unitNone s
  let s := raiseStanding (s.modPins fun p => { p with faultN := !s.fcu.safe })
  let s := setReady Rdy.fcu s
  if s.boot.recoverNow then tryRecovery s
  else
    let s := if bootSrc s == 2 then trainLinks s else s
    selectXspi (s.modBoot fun b => { b with phase := if bootSrc s == 0 then .loadFw else .waitHost, attempt := 0 })

/-- SELFTEST_COMPLETE (R29, R45). -/
def execSelftestComplete (s : State) : Res := act (s.alive && s.boot.phase == .selftest && !s.boot.selfTestDone) selftestDone s

/-- A firmware attempt has failed (R48, R49). -/
def firmwareFailed (s : State) : State :=
  if bootSrc s == 0 then
    if s.boot.attempt == 0 then selectXspi (s.modBoot fun b => { b with attempt := 1, source := 1, phase := .loadFw, verifying := .idle })
    else tryRecovery (selectXspi (s.modBoot fun b => { b with phase := .verifyFw, verifying := .idle }))
  else if 2 ≤ s.boot.consecFails then tryRecovery s
  else s.modBoot fun b => { b with consecFails := b.consecFails + 1, phase := .waitHost, verifying := .idle }

/-- A patch attempt has failed: the next source, or patch level 0 (R48, R56). A delivery may be repeated until the limit
of R49. -/
def patchFailed (s : State) : State :=
  if bootSrc s == 0 then
    if s.boot.attempt == 0 then selectXspi (s.modBoot fun b => { b with attempt := 1, verifying := .idle })
    else selectXspi (s.modBoot fun b => { b with phase := .bringup, verifying := .idle })
  else s.modBoot fun b => { b with verifying := .idle }

def noteError (e : Nat) (s : State) : State := s.modBoot fun b => { b with error := e }
def noteFail (e : Nat) (s : State) : State := s.modBoot fun b => { b with error := e, fails := min 15 (b.fails + 1) }

/-- Recovery firmware starts, from eMRAM or from the host (BOOT_STAT.source 2 or 0); a safe state entered at BOOT_FAIL is
left (R50, R57, R514). -/
def startRecovery (source : Nat) (i : List Byte) (s : State) : State :=
  let s := s.modBoot fun b => { b with
    phase := .recovery, verifying := .idle, fw := .recovery, fwSvn := w32 (imgSvn i), fwKey := imgKeySlot i, source := source }
  if s.fcu.safe && s.fcu.safeSrc == Src.bootFail then
    (s.modFcu fun u => { u with safe := false }).modPins fun p => { p with faultN := true, safeHeld := false, tioOut := 0, ppsOut := false }
  else s

/-- Firmware has verified and starts; the patch comes next. The spec does not say from which device the patch is tried after
firmware came from CS1: DESIGN CHOICE, CS0 first, and BOOT_STAT.source keeps the firmware's source (log 138). -/
def startFirmware (i : List Byte) (s : State) : State :=
  selectXspi ((trainLinks s).modBoot fun b => { b with
    fw := .fw, fwSvn := w32 (imgSvn i), fwKey := imgKeySlot i, phase := .loadUcode, verifying := .idle, attempt := 0, consecFails := 0,
    fwImage := i })

/-- The patch has verified. -/
def startPatch (i : List Byte) (s : State) : State :=
  let p := some (patchOf (imgPayload i))
  s.modBoot fun b => { b with
    patch := p, patchOk := true, patchLevel := patchLevelOf p, phase := .bringup, verifying := .idle, ucImage := i }

/-- The verification of `boot.image` has ended (R53). -/
def verifyDone (s : State) : State :=
  let i := s.boot.image
  match s.boot.verifying with
  | .bootFw =>
    match verifyImage s 1 i with
    | 0 => startFirmware i s
    | e => firmwareFailed (noteFail e s)
  | .bootUcode =>
    match verifyImage s 2 i with
    | 0 => startPatch i s
    | e => patchFailed (noteFail e s)
  | .emramRecovery =>
    match verifyImage s 4 i with
    | 0 => startRecovery 2 i s
    | e => bootFail (noteFail e s)
  | .bootRecovery =>
    match verifyImage s 4 i with
    | 0 => startRecovery 0 i s
    | e => (noteFail e s).modBoot fun b => { b with verifying := .idle }
  | .idle => s

/-- IMAGE_VERIFY_DONE (R53). -/
def execImageVerifyDone (s : State) : Res := act (s.alive && s.boot.verifying != .idle) verifyDone s

/-- The image read from the xSPI device of the attempt is verified (R48). -/
def xspiDone (s : State) : State :=
  selectXspi (if s.boot.phase == .loadFw then
      beginVerify .bootFw (flashImage s.boot.attempt 1 s) (s.modBoot fun b => { b with phase := .verifyFw })
    else beginVerify .bootUcode (flashImage s.boot.attempt 2 s) s)
/-- XSPI_READ_COMPLETE (R48). -/
def execXspiReadComplete (s : State) : Res := act (xspiReads s) xspiDone s

/-- XSPI_READ_TIMEOUT (R48). -/
def xspiTimeout (s : State) : State :=
  if s.boot.phase == .loadFw then firmwareFailed (noteError 8 s) else patchFailed (noteError 8 s)
def execXspiReadTimeout (s : State) : Res := act (xspiReads s) xspiTimeout s

/-- PATCH_DELIVERY_TIMEOUT (R49): the source offers no patch. -/
def execPatchDeliveryTimeout (s : State) : Res :=
  act (s.alive && bootSrc s != 0 && s.boot.phase == .loadUcode && s.boot.verifying == .idle)
    (fun s => (noteError 8 s).modBoot fun b => { b with phase := .bringup }) s

/-- BOOT_LEN beyond the longest image (R58). -/
def imageTooLong (n : W32) : Bool := 0x401800 < n.toNat

/-- The image the host has written is taken, and its verification begins (R48, R58). -/
def takeDelivered (v : VerifyFor) (s : State) : State := beginVerify v (csmImage s).1 (csmImage s).2

/-- A go (R58): in WAIT_HOST, in LOAD_UCODE where BOOTSRC is 0b01, and in BOOT_FAIL, with the BOOT_LEN bytes at BAR4 offset 0.
The spec does not say whether a go rejected for its length counts as a failed delivery: DESIGN CHOICE, it counts in
BOOT_STAT.fails and in the three of R49 (log 139). -/
def bootGo (s : State) : State :=
  if s.boot.verifying != .idle then s
  else
    let long := imageTooLong s.boot.bootLen
    match s.boot.phase with
    | .waitHost =>
      if long then firmwareFailed (noteFail 1 s)
      else
        takeDelivered .bootFw (s.modBoot fun b => { b with phase := .verifyFw })
    | .loadUcode =>
      if bootSrc s != 1 then s
      else if long then patchFailed (noteFail 1 s)
      else
        takeDelivered .bootUcode s
    | .bootFail =>
      if long then noteFail 1 s
      else
        takeDelivered .bootRecovery s
    | _ => s

/-- A write of BOOT_CTL (R58): without the key it is ignored. -/
def writeBootCtl (val : W32) (s : State) : State :=
  if bitsAt val.toNat 16 16 != 0x5A17 then s
  else
    let s := s.modBoot fun b => { b with recoveryBit := val.getLsbD 1 }
    let s := if val.getLsbD 0 then bootGo s else s
    if val.getLsbD 2 then askWarm 3 s else s

def State.hostUp (s : State) : Bool := s.alive && s.link.up

/-- BOOT_CTL_GO, BOOT_CTL_WARM, BOOT_CTL_RECOVERY (R58). -/
def execBootCtlGo (val : W32) (s : State) : Res := act (s.hostUp && val.getLsbD 0) (writeBootCtl val) s
def execBootCtlWarm (val : W32) (s : State) : Res := act (s.hostUp && val.getLsbD 2) (writeBootCtl val) s
def execBootCtlRecovery (val : W32) (s : State) : Res := act s.hostUp (writeBootCtl val) s

/-- BRL_IMAGE_DELIVERY (R49, R498): a follower that boots over a link takes the image's bytes for verification; the lead sends
the image it booted from. -/
def imageDelivery (peer : Nat) (t : W16) (data : List Byte) (s : State) : State :=
  if bootSrc s == 2 && s.boot.verifying == .idle && s.boot.phase == .waitHost && t == 1 then
    beginVerify .bootFw data (s.modBoot fun b => { b with phase := .verifyFw })
  else if bootSrc s == 2 && s.boot.verifying == .idle && s.boot.phase == .loadUcode && t == 2 then
    beginVerify .bootUcode data s
  else if s.isLead && s.ready Rdy.brl && (t == 1 || (t == 2 && s.boot.patchOk)) then
    s.emit (.brlImage peer t (if t == 1 then s.boot.fwImage else s.boot.ucImage))
  else s
def execBrlImageDelivery (peer : Nat) (imageType : W16) (data : List Byte) (s : State) : Res :=
  act s.alive (imageDelivery peer imageType data) s

/-! ### Bring-up (R62 to R65, R176, R374) -/

/-- Firmware runs and serves functions. -/
def State.fwUp (s : State) : Bool :=
  s.alive && (s.boot.phase == .bringup || s.boot.phase == .run || s.boot.phase == .recovery)

/-- May a function become usable now (R62, R68)? The bits of other rows are set by those rows. -/
def usableNow (b : Nat) (s : State) : Bool :=
  if b == 0 then s.alive
  else if inRange b 8 12 then s.fwUp && s.ready Rdy.dram && s.boot.fw != .recovery
  else if b == 1 || inRange b 3 8 || b == 18 || b == 19 then s.fwUp
  else false

def becomesUsable (b : Nat) (s : State) : State :=
  let s := if b == 0 && !s.time.counting then startVt s else s
  let s := if b == 9 then s.modPins fun p => { p with ethTxUp := true } else s
  setReady b s

/-- FUNCTION_BECOMES_USABLE (R62, R64). -/
def execFunctionBecomesUsable (b : Nat) (s : State) : Res := act (usableNow b s) (becomesUsable b) s

/-- Is a physical engine out of service (R532)? -/
def State.engOut (s : State) (e : Eng) : Bool := s.em.retired.contains (engKey e.course e.phys)

/-- The free spare of a course: an engine that holds no slot and is in service. -/
def State.freeSpare (s : State) (course : Nat) : Option Nat :=
  (List.range 13).find? fun p => !s.engOut ⟨course, p⟩ && (s.slotOf ⟨course, p⟩).isNone

/-- A slot's failing engine is replaced by the spare, without shadow (R63, R532). -/
def bistReplace (course slot : Nat) (s : State) : State :=
  match s.freeSpare course with
  | some p => s.modEm fun m => { m with slotPhys := tabSet m.slotPhys (12 * course + slot) p }
  | none => s

/-- An engine after BIST and initialisation, with the patch in its patch RAM (R55, R63). -/
def engineInit (patch : Option PatchBody) (out : Bool) (e : Engine) : Engine :=
  { irqPend := e.irqPend, irqEn := e.irqEn, irqLvl0 := e.irqLvl0, irqLvl1 := e.irqLvl1
    st := if out then .retired else .idle, su := { banks := #v[patch, none] } }

/-- Course n: failing engines leave service, their slots take the spare, and the course is ready with 12 engines (R63). -/
def courseInit (fail : List Eng) (n : Nat) (s : State) : State :=
  let bad := (List.range 13).filter fun p => fail.contains ⟨n, p⟩
  let s := bad.foldl (fun s p => s.modEm fun m => { m with retired := setAdd m.retired (engKey n p) }) s
  let s := (List.range 12).foldl (fun s i =>
    if s.engOut (s.slotEngine (12 * n + i)) then bistReplace n i s else s) s
  let s := (List.range 13).foldl (fun s p => s.setEngine ⟨n, p⟩ (engineInit s.boot.patch (s.engOut ⟨n, p⟩))) s
  let ok := (List.range 12).all fun i => !s.engOut (s.slotEngine (12 * n + i))
  if ok then s.modBoot fun b => { b with courseReady := putBit b.courseReady n true }
  else raiseFault (Src.courseBist n) 0 unitNone s

/-- Stream units and plans are usable (R56, R62). -/
def ucodeReady (s : State) : State :=
  if s.boot.patchOk || s.tune 3 == 0 then setReady Rdy.plan (setReady Rdy.ucode s) else s

/-- Engine initialisation has ended: courses, readiness, stroke 0, the boot profile to come (R63, R65, R176). -/
def engineInitDone (fail : List Eng) (s : State) : State :=
  let s := (List.range 16).foldl (fun s n => courseInit fail n s) s
  let s := s.modBoot fun b => { b with engineInitDone := true, bootProfilePending := true }
  let s := ucodeReady s
  s.modStroke fun k => { k with started := true, num := 0, vt := s.now, anchorN := 0, anchorVt := s.now }


/-- The highest rate at which every channel passes (R374): 0, 1 or 2. -/
def dramRateOf (f : DramFit) : Option Nat :=
  ([0, 1, 2] : List Nat).find? fun r => (List.range 4).all fun c => ((f.pass[c]?).getD 0).getLsbD r

def dramFitOk (f : DramFit) : Bool :=
  let c0 := f.capGib.headD 0
  let r0 := f.ranks.headD 0
  f.capGib.length == 4 && f.ranks.length == 4 && f.capGib.all (· == c0) && f.ranks.all (· == r0) && (r0 == 1 || r0 == 2) &&
  ([4, 8, 16, 24, 32] : List Nat).contains (4 * c0)

/-- DRAM training ends (R374, R379). -/
def dramTrained (f : DramFit) (s : State) : State :=
  match dramFitOk f, dramRateOf f with
  | true, some r =>
    let s := s.modBoot fun b => { b with
      dramRanks := f.ranks.headD 0, dramRate := r, dramGib := 4 * f.capGib.headD 0, dramTrained := true }
    let s := s.modEm fun m => { m with remap := m.remap.filter fun a => !f.repaired.contains a.toNat }
    setReady Rdy.dram s
  | _, _ => raiseFault Src.dramTrain 0 unitNone s

/-- DRAM_TRAINING_COMPLETE (R374). -/
def execDramTrainingComplete (f : DramFit) (s : State) : Res := act (s.fwUp && !s.boot.dramTrained) (dramTrained f) s

/-- LOG_STORE_READY (R451, R483). -/
def execLogStoreReady (f : NandFit) (s : State) : Res := act (s.fwUp && !s.ready Rdy.lgsRead) (logReady f) s

/-! ### Power fail (R19 to R23, R180) -/

/-- A course is powered down: its memories and engines are off (R179; log 24). -/
def powerDown (n : Nat) (s : State) : State :=
  let s := (List.range 13).foldl (fun s p => s.setEngine ⟨n, p⟩ fun e =>
    { st := if e.st == .retired then .retired else .off, irqPend := e.irqPend, irqEn := e.irqEn, irqLvl0 := e.irqLvl0, irqLvl1 := e.irqLvl1 }) s
  let s := s.modFab fun b => { b with csm := tabDel b.csm n }
  s.modStroke fun k => { k with powered := putBit k.powered n false, inProfile := putBit k.inProfile n false }

/-- A course stops at once: its jobs and DMA channels end (R180). -/
def stopCourse (n : Nat) (s : State) : State := powerDown n (dmaKill n (withdrawJobs n true s))

/-- Archive is entered without a capo (R180). -/
def archiveEntry (s : State) : State :=
  let s := (List.range 14).foldl (fun s i => stopCourse (i + 2) s) s
  s.modStroke fun k => { k with profile := 3, eclk := 0, active := none }

/-- PFAIL_N_RECOGNISED (R19, R20, R22, R23): Archive, then the flush; in the safe state none, and PFAIL_DONE rises at once
where no program is in flight any more. While PFAIL_DONE is still high R22 rules out a second flush; it does not say whether
Archive is entered again where the host has selected another profile meanwhile: DESIGN CHOICE, it is not (log 140). -/
def pfail (s : State) : State :=
  let s1 := s.modPins fun p => { p with pfailN := false }
  if s.pins.pfailDone then s1
  else
    let s2 := archiveEntry s1
    if !s.fcu.safe then beginFlush s2
    else if s.pins.wpN then s2
    else s2.modPins fun p => { p with pfailDone := true }
def execPfailNRecognised (s : State) : Res := act s.alive pfail s

/-- POWER_FAIL_FLUSH_COMPLETE (R20, R472). -/
def flushDone (s : State) : State :=
  let s := if s.ready Rdy.lgsWrite then flushAll s else s.modLgs fun l => { l with flushing := false }
  s.modPins fun p => { p with pfailDone := true }
def execPowerFailFlushComplete (s : State) : Res := act (s.alive && s.lgs.flushing && !s.fcu.safe) flushDone s

/-- PFAIL_N_HIGH_EXPIRY (R22): PFAIL_DONE falls. R22 speaks of a complete flush; whether a PFAIL_DONE that rose under R23, in
the safe state, falls too is not said: DESIGN CHOICE, it does (log 141). -/
def execPfailNHighExpiry (s : State) : Res :=
  act (s.alive && s.pins.pfailDone && !s.lgs.flushing) (fun s => s.modPins fun p => { p with pfailDone := false, pfailN := true }) s

/-- INFLIGHT_PROGRAMS_END (R23, R33, R514): in the safe state WP_N goes low, what was not committed is absent, and a flush
or a power-fail ends with PFAIL_DONE. -/
def programsEnd (s : State) : State :=
  let pf := s.lgs.flushing || !s.pins.pfailN
  (s.modLgs fun l => { l with placed := [], flushing := false }).modPins fun p => { p with wpN := false, pfailDone := p.pfailDone || pf }
def execInflightProgramsEnd (s : State) : Res := act (s.alive && s.fcu.safe) programsEnd s

/-! ### Temperature (R41) -/

def execTjWarnCrossing (s : State) : Res :=
  act s.alive (fun s => setCause Src.tjWarn true 0 (s.modPins fun p => { p with tjBand := max 1 p.tjBand })) s
def execTjCritCrossing (s : State) : Res :=
  act s.alive (fun s => setCause Src.tjCrit true 0 (s.modPins fun p => { p with tjBand := max 2 p.tjBand })) s

/-- THERMTRIP_N_ASSERT (R41, R516). -/
def execThermtripNAssert (s : State) : Res :=
  act s.alive (fun s => raiseFault Src.thermtrip 0 unitNone (s.modPins fun p => { p with thermtripN := false, tjBand := 3 })) s

/-- JUNCTION_TEMPERATURE_FALL (R41, R507): the temperature falls below a limit in °C, ending the causes above it. -/
def tjFall (below : Nat) (s : State) : State :=
  let s := if below ≤ 125 then setCause Src.tjCrit false 0 s else s
  let s := if below ≤ 115 then setCause Src.tjWarn false 0 s else s
  s.modPins fun p => { p with tjBand := if below ≤ 115 then 0 else if below ≤ 125 then min 1 p.tjBand else min 2 p.tjBand }
def execJunctionTemperatureFall (below : Nat) (s : State) : Res := act s.alive (tjFall below) s

end Sys2Proof.Machine
end

