-- ==== Sys2Proof/Machine/Registers.lean ====
section
/-! DEFINITION. The registers by BAR0 offset (R546 to R549, R553), as a read and a write of one 32-bit word. -/
namespace Sys2Proof.Machine

/-- What a master gets back: a word (0 for a write), the default target's decode error, or an error response. -/
inductive Rsp where
  | ok (v : W32) | decode | err
deriving DecidableEq, Repr

/-- A word read from a memory behind a register window. -/
def memRsp (bs : List (Option Byte)) : Rsp :=
  match allBytes bs with | some b => .ok (w32 (leNat b)) | none => .err

/-! ### Identity and capability chain (R80 to R84, R553) -/

/-- The block entries of the PF's chain: ID, base, size, count, stride, at 0x200 + 0x20 x i. -/
def capBlocks : List (Nat × Nat × Nat × Nat × Nat) :=
  [(0x10, 0x10000, 0x20, 1, 0), (0x11, 0x10100, 0x700, 1, 0), (0x12, 0x10800, 0x18, 1, 0), (0x13, 0x100000, 0x30, 1, 0),
    (0x14, 0x200000, 0x1104, 1, 0), (0x15, 0x300000, 0x11C0, 1, 0), (0x16, 0x400000, 0x40000, 1, 0),
    (0x17, 0x500000, 0x150, 1, 0), (0x18, 0x600000, 0x180, 1, 0), (0x19, 0x700000, 0x24, 1, 0), (0x1A, 0x800000, 0x104, 1, 0),
    (0x1B, 0x900000, 0x400, 16, 0x400), (0x1C, 0x1000000, 0x100000, 16, 0x100000), (0x1D, 0x2000000, 0x10000, 1, 0),
    (0x1E, 0x3000000, 0x1000000, 1, 0)]

/-- The chain of a function: a VF's third entry is its admin queue alone, at base 0x6000 (R553). -/
def capEntry (v i : Nat) : Option (Nat × Nat × Nat × Nat × Nat) :=
  if v == 0 then capBlocks[i]? else if i == 0 then some (0x10, 0x6000, 0x20, 1, 0) else none

def capHdr0 (len id : Nat) : W32 := w32 (2 ^ 24 * len + 65536 + id)

/-- One word of a block entry. -/
def capWord (v i w : Nat) : W32 :=
  match capEntry v i with
  | none => 0
  | some (id, base, size, count, stride) =>
    match w with
    | 0 => capHdr0 6 id
    | 1 => if (capEntry v (i + 1)).isSome then w32 (0x220 + 0x20 * i) else 0
    | 2 => w32 base
    | 3 => w32 size
    | 4 => w32 count
    | 5 => w32 stride
    | _ => 0

def phaseCode : Phase → Nat
  | .selftest => 0 | .loadFw => 1 | .waitHost => 2 | .verifyFw => 3 | .loadUcode => 4 | .bringup => 5 | .run => 6
  | .recovery => 7 | .bootFail => 0xFF

/-- BOOT_STAT (R57). -/
def bootStat (s : State) : W32 :=
  let b := s.boot
  w32 (2 ^ 26 * bit b.firstBoot + 2 ^ 25 * bit b.patchOk + 2 ^ 22 * b.cause + 2 ^ 20 * b.source + 65536 * b.fails +
    256 * b.error + phaseCode b.phase)

/-- A word of the identity block of function v (R80, R81, R84). -/
def readIdent (v off : Nat) (s : State) : W32 × State :=
  if off == 0x118 then readDbDrop v s
  else
    let x : W32 := match off with
      | 0x00 => capHdr0 22 1
      | 0x04 => 0x100
      | 0x08 => 0x31920100
      | 0x0C => 0x000000A1
      | 0x10 => Config.fused 0
      | 0x14 => Config.fused 1
      | 0x18 => 0x00A10000 + (Config.fused 2 &&& 0xFFFF)
      | 0x1C => Config.fused 3
      | 0x20 => s.boot.fwSvn
      | 0x24 => w32 s.boot.patchLevel
      | 0x28 => w32 v
      | 0x40 => s.boot.straps.setWidth 32
      | 0x44 => s.boot.readyMap.setWidth 32
      | 0x48 => s.boot.courseReady.setWidth 32
      | 0x4C => bootStat s
      | 0x50 => w32 (2 * bit s.boot.recoveryBit)
      | 0x54 => s.boot.bootLen
      | 0x100 => capHdr0 8 2
      | 0x104 => 0x200
      | 0x108 => if v == 0 then w32 (1048576 - 16384 * s.link.numVfs) else 0x4000
      | 0x10C => w32 (0x4000 * v)
      | 0x110 => 0x04001000
      | 0x114 => w32 s.pinned
      | 0x11C => 0x0000FFFF
      | _ => if 0x200 ≤ off then capWord v ((off - 0x200) / 0x20) ((off - 0x200) % 0x20 / 4) else 0
    (x, s)

/-- MSI-X words of function v (R77). -/
def readMsix (v off : Nat) (s : State) : W32 :=
  if off < 0x7100 then pbaWord v ((off - 0x7000) / 4) s
  else if off < 0x8000 then 0
  else msixEntryWord (tabGet s.link.msix (2048 * v + (off - 0x8000) / 16) {}) (off % 16 / 4)

/-! ### Snapshot shadow and stroke registers (R129, R199) -/

/-- Make the latest capture visible (R129). -/
def snapSwitch (s : State) : State :=
  match s.snap.hidden with
  | some (n, v, d) => s.modSnap fun p => { p with stroke := n, vt := v, data := d, hidden := none, seq := p.seq + 1 }
  | none => s

/-- SNAP_CTL.hold (R129). -/
def snapHold (val : W32) (s : State) : State :=
  let s := s.modSnap fun p => { p with hold := val.getLsbD 0 }
  if val.getLsbD 0 then s else snapSwitch s

def stkStat (s : State) : W32 :=
  let k := s.stroke
  w32 (65536 * k.ovl + 2 ^ 15 * bit (!k.rated) + 2 ^ 14 * bit k.active.isSome + 2 ^ 12 * k.active.getD 0 + 256 * k.profile +
    64 * k.eclk + s.fretNow)

/-- The command block at 0x1_0000 (R90, R129, R199). -/
def readCmd (o : Nat) (s : State) : W32 :=
  let p := s.snap
  if o ≤ 0x18 then readAq 0 o s
  else if inRange o 0x200 0x800 then tabGet p.data ((o - 0x200) / 4) 0
  else match o with
    | 0x100 => w32 (bit p.hold)
    | 0x104 => p.sel.setWidth 32
    | 0x108 => p.seq
    | 0x110 => lo32 p.stroke
    | 0x114 => hi32 p.stroke
    | 0x118 => lo32 p.vt
    | 0x11C => hi32 p.vt
    | 0x800 => w32 s.stroke.num
    | 0x804 => w32 (s.stroke.num / 2 ^ 32)
    | 0x808 => lo32 s.stroke.vt
    | 0x80C => hi32 s.stroke.vt
    | 0x810 => w32 s.stroke.period
    | 0x814 => stkStat s
    | _ => 0

def writeCmd (o : Nat) (val : W32) (s : State) : State :=
  if o ≤ 0x18 then writeAq 0 o val s
  else if o == 0x100 then snapHold val s
  else if o == 0x104 then s.modSnap fun p => { p with sel := val.setWidth 8 }
  else s

/-! ### Time engine (R167) -/

def readTe (o : Nat) (s : State) : W32 :=
  let t := s.time
  match o with
  | 0x00 => lo32 t.vt64
  | 0x04 => hi32 t.vt64
  | 0x08 => teStat s
  | 0x0C => w32 t.lock
  | 0x10 => lo32 (i64 t.ofs)
  | 0x14 => hi32 (i64 t.ofs)
  | 0x18 => i32 t.freq
  | 0x1C => w32 (teHold t)
  | 0x20 => lo32 (i64 t.step)
  | 0x24 => hi32 (i64 t.step)
  | 0x28 => lo32 (t.ptmOfsNext.getD t.ptmOfs)
  | 0x2C => hi32 (t.ptmOfsNext.getD t.ptmOfs)
  | _ => 0

def writeTe (o : Nat) (val : W32) (s : State) : State :=
  if o == 0x28 then holdLo 0x100028 val s
  else if o == 0x2C then
    let (v, s) := withHeldLo 0x100028 (s.time.ptmOfsNext.getD s.time.ptmOfs) val s
    writePtmOfs v s
  else s

/-! ### SEN, timers, TIO (R401, R403, R409, R417, R422) -/

def readSen (o : Nat) (s : State) : W32 :=
  if o < 0x1000 then tabGet s.sen.pmask (o / 4) 0
  else if o < 0x1100 then tabGet s.sen.chcnt ((o - 0x1000) / 4) 0 else 0

def writeSen (o : Nat) (val : W32) (s : State) : State :=
  if o < 0x1000 then s.modSen fun n => { n with pmask := tabSet n.pmask (o / 4) val }
  else if o == 0x1100 then swPulse val s else s

/-- A 32-bit write of a timer's word, its pairs by halves (R4). -/
def writeTimerWord (t o : Nat) (val : W32) (s : State) : State :=
  if o == 0x18 || o == 0x1C then writeCntHalf t (o == 0x1C) val s
  else if inRange o 0x20 0x40 then writeCmpHalf t ((o - 0x20) / 8) (o % 8 == 4) val s
  else writeTimer t o val s

def readTmrs (o : Nat) (s : State) : W32 × State :=
  if o < 0x1000 then readTimer (o / 0x80) (o % 0x80) s
  else if o < 0x1014 then (tabGet s.sen.garm ((o - 0x1000) / 4) 0, s)
  else if 0x1100 ≤ o then readTioCfg ((o - 0x1100) / 4) s
  else (0, s)

def writeTmrs (o : Nat) (val : W32) (s : State) : State :=
  if o < 0x1000 then writeTimerWord (o / 0x80) (o % 0x80) val s
  else if o < 0x1014 then s.modSen fun n => { n with garm := tabSet n.garm ((o - 0x1000) / 4) val }
  else if o == 0x1020 then
    (if val.getLsbD 1 then gstart false s else if val.getLsbD 0 then gstart true s else s)
  else if 0x1100 ≤ o then writeTioCfg ((o - 0x1100) / 4) val s
  else s

/-! ### FCU and journal (R512, R513, R519, R520) -/

def readFcu (o : Nat) (s : State) : W32 :=
  let u := s.fcu
  if o < 0x4000 then srcWord s (o / 4)
  else if 0x20000 ≤ o then
    match tabFind u.ring ((o - 0x20000) / 32) with
    | some e => w32 (leNat (((journalBytes e).drop (o % 32 / 4 * 4)).take 4))
    | none => 0
  else
    let r := s.frec u.rsel
    match o with
    | 0x4000 => fcuStat s
    | 0x4008 => lo32 u.safeVt
    | 0x400C => hi32 u.safeVt
    | 0x4010 => w32 u.rsel
    | 0x4018 => lo32 r.first
    | 0x401C => hi32 r.first
    | 0x4020 => lo32 r.last
    | 0x4024 => hi32 r.last
    | 0x4028 => lo32 r.info
    | 0x402C => hi32 r.info
    | 0x4040 => w32 u.stormLimit
    | 0x4050 => w32 u.head
    | 0x4054 => w32 u.lost
    | 0x4058 => w32 u.exp
    | _ => 0

/-- Only the PF and the pegbox write the FCU (R513). -/
def fcuWriter : Master → Bool
  | .pf | .pegbox => true
  | _ => false

/-- FCU_SRC.open (R512). -/
def srcWrite (id : Nat) (val : W32) (s : State) : State := if val.getLsbD 15 then (closeFault id s).2 else s

def writeFcu (o : Nat) (val : W32) (s : State) : State :=
  if o < 0x4000 then srcWrite (o / 4) val s
  else if o == 0x4010 then s.modFcu fun u => { u with rsel := bitsAt val.toNat 0 12 }
  else if o == 0x4040 then s.modFcu fun u => { u with stormLimit := bitsAt val.toNat 0 16 }
  else s

/-! ### Fabric and DRAM (R372, R375, R385) -/

/-- The four words of an ECC record (R372). -/
def eccWord (key o : Nat) (s : State) : W32 :=
  let r := s.ecc key
  match o with
  | 0 => r.ce
  | 4 => w32 (2 ^ 24 * r.sym + 2 ^ 23 * bit r.lastUe + 2 ^ 22 * bit r.armed.isSome + r.ue)
  | 8 => r.addr
  | _ => 0

def dramCfg (s : State) : W32 :=
  let b := s.boot
  if !s.ready Rdy.dram then 0 else w32 (1024 * b.dramGib + 256 * b.dramRate + 128 * bit (b.dramRanks == 2) + 15)

def readFab (o : Nat) (s : State) : W32 :=
  let f := s.fab
  if inRange o 0x100 0x140 then eccWord (instDram ((o - 0x100) / 16)) (o % 16) s
  else if 0x140 ≤ o then eccWord instEmram (o % 16) s
  else match o with
    | 0x00 => dramCfg s
    | 0x40 => w32 (2 ^ 31 * bit f.errValid + 2 ^ 30 * bit f.errTimeout + 2 ^ 29 * bit f.errWrite + 65536 * f.errMaster + f.errCount)
    | 0x44 => w32 f.errAddr
    | 0x48 => w32 (f.errAddr / 2 ^ 32)
    | _ => 0

/-- FAB_ERR.valid (R385). -/
def fabErrClear (val : W32) (s : State) : State :=
  if val.getLsbD 31 then
    s.modFab fun f => { f with errValid := false, errTimeout := false, errWrite := false, errMaster := 0, errCount := 0, errAddr := 0 }
  else s

/-! ### Sensor admission (R432) and bridge links (R502) -/

def readIngFill (s : State) : W32 × State :=
  (w32 (65536 * max s.ports.peak (s.ports.fill / 1024) + s.ports.fill / 1024), s.modPorts fun p => { p with peak := 0 })

def readIng (o : Nat) (s : State) : W32 × State :=
  if o < 0x20 then (w32 ((s.ports.thr.toList[o / 4]?).getD 0), s) else readIngFill s

def writeIng (o : Nat) (val : W32) (s : State) : State :=
  if o < 0x20 then s.modPorts fun p => { p with thr := p.thr.set! (o / 4) (bitsAt val.toNat 0 14) } else s

/-- Lanes in use of a link: its working lanes, the spare in place of the lane it serves (R487). -/
def lanesInUse (l : BrLink) : Nat :=
  let n := match l.width with | 0 => 0 | 1 => 1 | 2 => 2 | _ => 4
  (List.range n).foldl (fun a i => a + 2 ^ (if i == l.spareFor then 4 else i)) 0

def State.brLink (s : State) (k : Nat) : BrLink := (s.brl.links.toList[k]?).getD {}
def State.setLink (s : State) (k : Nat) (f : BrLink → BrLink) : State :=
  s.modBrl fun b => { b with links := b.links.set! k (f ((b.links.toList[k]?).getD {})) }

/-- BRL_ASYM (R494): the fused asymmetry of the lanes in use plus BRL_ASYM_OFS (log 10). -/
def State.asym (s : State) (k : Nat) : Int :=
  sgn 16 ((Config.fused (1000 + 32 * k + lanesInUse (s.brLink k))).toNat % 65536) + s.tune (0x150 + k)

/-- The position link k leads to. -/
def farEnd (own k : Nat) : Nat := own ^^^ (match k with | 0 => 1 | 1 => 2 | 2 => 4 | _ => 7)

/-- The link between two positions, if one joins them. -/
def linkOf (i j : Nat) : Option Nat := ([0, 1, 2, 3] : List Nat).find? fun k => farEnd i k == j

/-- A link that carries traffic, now or once its retrain ends. -/
def State.linkUp (s : State) (k : Nat) : Bool := (s.brLink k).state == 2 || (s.brLink k).state == 3

/-- Are two positions joined? Of the links of other devices, those between present positions count as UP (log 33). -/
def joined (s : State) (i j : Nat) : Bool :=
  s.brl.present.getLsbD i && s.brl.present.getLsbD j &&
  match linkOf i j with
  | none => false
  | some k => (i != s.cubeId && j != s.cubeId) || s.linkUp k

/-- One round of hop counts; 8 is no path. -/
def hopRound (s : State) (d : List Nat) : List Nat :=
  (List.range 8).map fun i => (List.range 8).foldl (fun a j => if joined s i j then min a ((d[j]?).getD 8 + 1) else a) ((d[i]?).getD 8)

/-- Hops from a position to every other over the links UP. -/
def hopsFrom (s : State) (root : Nat) : List Nat :=
  (List.range 8).foldl (fun d _ => hopRound s d) ((List.range 8).map fun i => if i == root then 0 else 8)

def hopsTo (d : List Nat) (i : Nat) : Nat := (d[i]?).getD 8

def brlStat (l : BrLink) : W32 :=
  w32 (2 ^ 20 * bit l.nbrOk + 2 ^ 17 * l.nbr + 2 ^ 11 * l.bad.toNat + 256 * l.spareFor + 16 * l.width + l.state)

def readBrl (o : Nat) (s : State) : W32 :=
  if o == 0x100 then
    let b := s.brl
    let selfLead := b.leadKnown && b.lead == s.cubeId
    w32 (65536 * b.present.toNat + 4096 * b.lead + 256 * b.up + 16 * b.hops + 8 * bit selfLead + s.cubeId)
  else
    let k := o / 0x40
    let l := s.brLink k
    match o % 0x40 with
    | 0x0 => brlStat l
    | 0x4 => w32 l.dly
    | 0x8 => w32 ((i32 (s.asym k)).toNat % 65536)
    | 0xC => w32 (65536 * (l.replays % 65536) + l.retrains % 65536)
    | _ => 0

/-! ### Tuning table (R542) -/

def readTune (o : Nat) (s : State) : W32 :=
  let i := o / 16
  match o % 16 with
  | 0 => if tuneImpl i then i32 (tuneFactory i) else 0
  | 4 => tabGet s.em.tune i 0
  | 8 => if tuneImpl i then i32 (s.tune i) else 0
  | _ => w32 (4 * bit (tuneImpl i) + 2 * bit (tuneMult i) + bit (tabFind s.em.tune i).isSome)

/-! ### Course windows (R548, R549) -/

/-- The register family that covers an offset of a course window. -/
inductive CReg where
  | veCtl (p : Nat) | seqStat (p : Nat) | seqCnt (p : Nat) | irq (p o : Nat) | eccLsp (p o : Nat) | eccCsm (o : Nat)
  | spare (k : Nat) | lspArb | dwin | lspSel | rwin (w : Nat) | gate (sl o : Nat) | dma (c o : Nat) | timer (k o : Nat)
  | sensel (p j : Nat) | aperture (a : Nat)
deriving DecidableEq, Repr

def courseReg (o : Nat) : Option CReg :=
  if inRange o 0x200 0x234 then some (.veCtl ((o - 0x200) / 4))
  else if inRange o 0x300 0x368 then
    (if o % 8 == 0 then some (.seqStat ((o - 0x300) / 8)) else some (.seqCnt ((o - 0x300) / 8)))
  else if inRange o 0x400 0x5A0 then some (.irq ((o - 0x400) / 0x20) (o % 0x20))
  else if inRange o 0x600 0x6D0 then some (.eccLsp ((o - 0x600) / 16) (o % 16))
  else if inRange o 0x6D0 0x6E0 then some (.eccCsm (o % 16))
  else if inRange o 0x6E0 0x700 then some (.spare ((o - 0x6E0) / 4))
  else if o == 0x700 then some .lspArb
  else if o == 0x704 then some .dwin
  else if o == 0x708 then some .lspSel
  else if inRange o 0x740 0x780 then some (.rwin ((o - 0x740) / 4))
  else if inRange o 0x1000 0x1180 then some (.gate ((o - 0x1000) / 0x20) (o % 0x20))
  else if inRange o 0x2000 0x2400 then some (.dma ((o - 0x2000) / 0x40) (o % 0x40))
  else if inRange o 0x3000 0x3400 then some (.timer ((o - 0x3000) / 0x80) (o % 0x80))
  else if inRange o 0x3800 0x39A0 then some (.sensel ((o - 0x3800) / 0x20) (o % 0x20 / 4))
  else if inRange o 0x80000 0xC0000 then some (.aperture (o - 0x80000))
  else none

def bankCode : BankState → Nat
  | .idle => 0 | .shadow => 1 | .active => 2 | .failed => 3

def csmSpareWord (n k : Nat) (s : State) : W32 :=
  let x := tabGet s.em.csmSpare (8 * n + k) (.idle, 0)
  w32 (256 * bankCode x.1 + x.2)

/-- Fret-gate words (R188). -/
def readGate (k o : Nat) (s : State) : W32 :=
  let g := s.gate k
  match o with
  | 0x00 => g.entry
  | 0x04 => g.arg
  | 0x08 => w32 g.remain
  | 0x0C => fgStat s k
  | _ => 0

/-- A write of FG_DONE (R187, R188): it ends the current job only when the engine that holds the slot writes done. -/
def fgDone (m : Master) (k : Nat) (val : W32) (s : State) : State :=
  match m with
  | .engine n p => if val.getLsbD 0 && s.slotEngine k == ⟨n, p⟩ then endJob k s else s
  | _ => s

/-- Read a word of a course window: with the default target's answer where nothing is mapped. -/
def readCourse (n o : Nat) (s : State) : Rsp × State :=
  match courseReg o with
  | none => (.decode, s)
  | some r =>
    match r with
    | .veCtl p => (.ok (veCtlWord (s.engine ⟨n, p⟩)), s)
    | .seqStat p => (.ok (seqStatWord s (s.engine ⟨n, p⟩)), s)
    | .seqCnt p => (.ok (seqCntWord (s.engine ⟨n, p⟩)), s)
    | .irq p x => (.ok (readIrq (s.engine ⟨n, p⟩) x), s)
    | .eccLsp p x => (.ok (eccWord (instLsp n p) x s), s)
    | .eccCsm x => (.ok (eccWord (instCsm n) x s), s)
    | .spare k => (.ok (csmSpareWord n k s), s)
    | .lspArb => (.ok (w32 (tabGet s.fab.starve n 0x1000)), s)
    | .dwin => (.ok (w32 (tabGet s.fab.dwin n 0x80)), s)
    | .lspSel => (.ok (w32 (tabGet s.fab.lspSel n 0)), s)
    | .rwin w => (.ok (w32 (tabGet s.fab.rwin (16 * n + w) 0)), s)
    | .gate sl x => (.ok (readGate (gateKey n sl) x s), s)
    | .dma c x => (.ok (readDma (dmaKey n c) x s), s)
    | .timer k x =>
      let (v, s) := readTimer (32 + 8 * n + k) x s
      (.ok v, s)
    | .sensel p j =>
      let (v, s) := readSensel ⟨n, p⟩ j s
      (.ok v, s)
    | .aperture a =>
      if !s.csmOk n then (.decode, s)
      else
        let (bs, s) := memLoad (.lsp n (tabGet s.fab.lspSel n 0)) a 4 s
        (memRsp bs, s)

/-- Write a word of a course window; `by'` as for `dmaGo`. -/
def writeCourse (m : Master) (n o : Nat) (val : W32) (by' : Option (Eng × W32)) (s : State) : Rsp × State :=
  match courseReg o with
  | none => (.decode, s)
  | some r =>
    match r with
    | .veCtl p => (.ok 0, writeVeCtl ⟨n, p⟩ val s)
    | .irq p x => (.ok 0, s.setEngine ⟨n, p⟩ (writeIrq x val))
    | .lspArb => (.ok 0, s.modFab fun f => { f with starve := tabSet f.starve n (bitsAt val.toNat 0 20) })
    | .dwin => (.ok 0, s.modFab fun f => { f with dwin := tabSet f.dwin n (bitsAt val.toNat 0 14) })
    | .lspSel =>
      (.ok 0, if bitsAt val.toNat 0 4 < 13 then s.modFab fun f => { f with lspSel := tabSet f.lspSel n (bitsAt val.toNat 0 4) } else s)
    | .rwin w => (.ok 0, s.modFab fun f => { f with rwin := tabSet f.rwin (16 * n + w) (bitsAt val.toNat 0 9) })
    | .gate sl x => (.ok 0, if x == 0x10 then fgDone m (gateKey n sl) val s else s)
    | .dma c x => if dmaMaster m n then (.ok 0, writeDma (dmaKey n c) x val by' s) else (.err, s)
    | .timer k x => (.ok 0, writeTimerWord (32 + 8 * n + k) x val s)
    | .sensel p j => (.ok 0, writeSensel ⟨n, p⟩ j val s)
    | .aperture a =>
      if !s.csmOk n then (.decode, s)
      else
        let (ok, s) := memStore (.lsp n (tabGet s.fab.lspSel n 0)) a (leBytes 4 val.toNat) s
        (if ok then .ok 0 else .err, s)
    | _ => (.ok 0, s)

/-! ### BAR0 (R546, R547) -/

/-- Does a chapter define a register at this offset of a timer, or of a course window's family (R548)? -/
def timerReg (o : Nat) : Bool := o < 0x14 || inRange o 0x18 0x50
def courseDefined (o : Nat) : Bool :=
  match courseReg o with
  | some (.irq _ x) | some (.gate _ x) => x < 0x14
  | some (.dma _ x) => dmaReg x
  | some (.timer _ x) => timerReg x
  | some _ => true
  | none => false

/-- Is there a register at this BAR0 offset? An offset inside a block that its tables do not give goes to the default
target (R547; log 25). -/
def regDefined (off : Nat) : Bool :=
  let x := off % 0x100000
  if off < 0x7000 then off < 0x58 || inRange off 0x100 0x120 || (inRange off 0x200 0x3E0 && off % 0x20 < 0x18)
  else if off < 0x10000 then off < 0x7100 || 0x8000 ≤ off
  else if off < 0x10818 then
    let o := off - 0x10000
    o < 0x1C || inRange o 0x100 0x10C || inRange o 0x110 0x120 || inRange o 0x200 0x818
  else if inRange off 0x300000 0x3011C0 then
    (if x < 0x1000 then timerReg (x % 0x80) else x < 0x1014 || x == 0x1020 || 0x1100 ≤ x)
  else if inRange off 0x400000 0x440000 then
    x < 0x4004 || inRange x 0x4008 0x4014 || inRange x 0x4018 0x4030 || x == 0x4040 || inRange x 0x4050 0x405C || 0x20000 ≤ x
  else if inRange off 0x500000 0x500150 then x == 0 || inRange x 0x40 0x4C || 0x100 ≤ x
  else if inRange off 0x600000 0x600180 then
    x < 0x04 || inRange x 0x08 0x18 || inRange x 0x20 0x34 || 0x100 ≤ x
  else if inRange off 0x800000 0x800104 then x == 0x100 || x % 0x40 < 0x10
  else if inRange off 0x900000 0x904000 then dmaReg (x % 0x40)
  else if inRange off 0x1000000 0x2000000 then courseDefined x
  else true

/-- Read a word of PF BAR0, the register window or the DMA's view of it: with the default target's answer where nothing is
mapped. The FCU's registers and journal stand under a symbol code (R513). -/
def readReg (off : Nat) (s : State) : Rsp × State :=
  let gate := fun (ok : Bool) (r : W32 × State) => if ok then (.ok r.1, r.2) else (.decode, s)
  if !regDefined off then (.decode, s)
  else if off < 0x7000 then gate true (readIdent 0 off s)
  else if off < 0x10000 then gate true (readMsix 0 off s, s)
  else if off < 0x10818 then gate (s.ready Rdy.pcieAdmin) (readCmd (off - 0x10000) s, s)
  else if inRange off 0x100000 0x100030 then gate (s.ready Rdy.vt) (readTe (off - 0x100000) s, s)
  else if inRange off 0x200000 0x201104 then gate (s.ready Rdy.senTmr) (readSen (off - 0x200000) s, s)
  else if inRange off 0x300000 0x3011C0 then gate (s.ready Rdy.senTmr) (readTmrs (off - 0x300000) s)
  else if inRange off 0x400000 0x440000 then
    if !s.ready Rdy.fcu then (.decode, s)
    else
      let (ok, s) := sramCheck 0 (off - 0x400000) s
      (if ok then .ok (readFcu (off - 0x400000) s) else .err, s)
  else if inRange off 0x500000 0x500150 then gate true (readFab (off - 0x500000) s, s)
  else if inRange off 0x600000 0x600180 then gate (s.ready Rdy.lgsRead) (readLgs (off - 0x600000) s)
  else if inRange off 0x700000 0x700024 then gate (s.ready Rdy.dram) (readIng (off - 0x700000) s)
  else if inRange off 0x800000 0x800104 then gate true (readBrl (off - 0x800000) s, s)
  else if inRange off 0x900000 0x904000 then
    gate true (readDma ((off - 0x900000) / 0x40) (off % 0x40) s, s)
  else if inRange off 0x1000000 0x2000000 then readCourse ((off - 0x1000000) / 0x100000) (off % 0x100000) s
  else if inRange off 0x2000000 0x2010000 then gate (s.ready Rdy.pcieAdmin) (readTune (off - 0x2000000) s, s)
  else if inRange off 0x3000000 0x3F00000 then
    let (bs, s1) := memLoad .emram (off - 0x3000000) 4 s
    (memRsp bs, s1)
  else (.decode, s)

/-- Write a word of PF BAR0 (R546, R547, R513). -/
def writeReg (m : Master) (off : Nat) (val : W32) (by' : Option (Eng × W32)) (s : State) : Rsp × State :=
  let gate := fun (ok : Bool) (r : State) => if ok then (.ok 0, r) else (.decode, s)
  if !regDefined off then (.decode, s)
  else if off < 0x7000 then
    gate true (if off == 0x50 then writeBootCtl val s else if off == 0x54 then s.modBoot fun b => { b with bootLen := val } else s)
  else if off < 0x8000 then (.ok 0, s)
  else if off < 0x10000 then gate true (writeMsix 0 ((off - 0x8000) / 16) (off % 16 / 4) val s)
  else if off < 0x10818 then gate (s.ready Rdy.pcieAdmin) (writeCmd (off - 0x10000) val s)
  else if inRange off 0x100000 0x100030 then gate (s.ready Rdy.vt) (writeTe (off - 0x100000) val s)
  else if inRange off 0x200000 0x201104 then gate (s.ready Rdy.senTmr) (writeSen (off - 0x200000) val s)
  else if inRange off 0x300000 0x3011C0 then gate (s.ready Rdy.senTmr) (writeTmrs (off - 0x300000) val s)
  else if inRange off 0x400000 0x440000 then
    if !s.ready Rdy.fcu then (.decode, s)
    else if !fcuWriter m then (.err, s)
    else
      let (ok, s) := sramWrite 0 (off - 0x400000) s
      if ok then (.ok 0, writeFcu (off - 0x400000) val s) else (.err, s)
  else if inRange off 0x500000 0x500150 then gate true (if off == 0x500040 then fabErrClear val s else s)
  else if inRange off 0x600000 0x600180 then gate (s.ready Rdy.lgsRead) (writeLgs (off - 0x600000) val s)
  else if inRange off 0x700000 0x700024 then gate (s.ready Rdy.dram) (writeIng (off - 0x700000) val s)
  else if inRange off 0x800000 0x800104 then (.ok 0, s)
  else if inRange off 0x900000 0x904000 then
    let k := (off - 0x900000) / 0x40
    if dmaMaster m (k / 16) then (.ok 0, writeDma k (off % 0x40) val by' s) else (.err, s)
  else if inRange off 0x1000000 0x2000000 then
    writeCourse m ((off - 0x1000000) / 0x100000) (off % 0x100000) val by' s
  else if inRange off 0x2000000 0x2010000 then gate (s.ready Rdy.pcieAdmin) s
  else if inRange off 0x3000000 0x3F00000 then (.err, s)
  else (.decode, s)

/-- Is there a register at this offset of VF `v`'s BAR0: its capability chain, its admin queue, MSI-X (R77, R79, R90)? -/
def vfDefined (v off : Nat) : Bool :=
  if off < 0x200 then regDefined off
  else if off < 0x6000 then off % 0x20 < 0x18 && (capEntry v ((off - 0x200) / 0x20)).isSome
  else inRange off 0x6000 0x601C || inRange off 0x7000 0x7100 || inRange off 0x8000 0x10000

/-- A VF's BAR0 (R77, R81, R90): identity, its admin queue, MSI-X. -/
def readVf (v off : Nat) (s : State) : Rsp × State :=
  if !vfDefined v off then (.decode, s)
  else if inRange off 0x6000 0x601C then
    (if s.ready Rdy.pcieAdmin then (.ok (readAq v (off - 0x6000) s), s) else (.decode, s))
  else if off < 0x7000 then
    let (x, s) := readIdent v off s
    (.ok x, s)
  else (.ok (readMsix v off s), s)

def writeVf (v off : Nat) (val : W32) (s : State) : Rsp × State :=
  if !vfDefined v off then (.decode, s)
  else if inRange off 0x6000 0x601C then
    (if s.ready Rdy.pcieAdmin then (.ok 0, writeAq v (off - 0x6000) val s) else (.decode, s))
  else if off < 0x8000 then (.ok 0, s)
  else (.ok 0, writeMsix v ((off - 0x8000) / 16) (off % 16 / 4) val s)

end Sys2Proof.Machine
end

