-- ==== Sys2Proof/Machine/Bus.lean ====
section
/-! DEFINITION. Bus accesses: engine-local (R204, R230 to R232, R380, R550, R551), by 40-bit address (R387, R499, R500),
and through the BARs (R76 to R79). -/
namespace Sys2Proof.Machine

/-- What a read brings back: bytes, where one of an uncorrectable codeword is none (R370), or an error response. -/
inductive Rd where
  | bytes (l : List (Option Byte)) | err
deriving DecidableEq, Repr

/-- The bytes of a read that a scalar load or the host accepts. -/
def Rd.all : Rd → Option (List Byte)
  | .bytes l => allBytes l
  | .err => none

/-- `n` bytes the spec leaves open. -/
def drawBytes : Nat → State → List Byte × State
  | 0, s => ([], s)
  | n + 1, s =>
    let (x, s) := s.draw
    let (l, s) := drawBytes n s
    (x.setWidth 8 :: l, s)

/-- The default target's answer to a read or a write. -/
def decodeRd (m : Master) (addr : Nat) (s : State) : Rd × State := (.err, decodeError false m addr s)
def decodeWr (m : Master) (addr : Nat) (s : State) : Bool × State := (false, decodeError true m addr s)

/-- Fabric address of offset `off` of remote window `w` (R499). -/
def remoteAddr (w off : Nat) : Nat := 0x8000000000 + w * 0x400000000 + off

/-- Send an access through remote window `w` (R499, R500). The other device's answer is open to this model: its bytes and
whether it answers an error are free values (log 26). None is an error response. -/
def remoteAccess (m : Master) (w off n : Nat) (data : Option (List Byte)) (s : State) : Option (List Byte) × State :=
  match tabFind s.brl.wins w with
  | none => (none, decodeError data.isSome m (remoteAddr w off) s)
  | some r =>
    if r.size < off + n then (none, decodeError data.isSome m (remoteAddr w off) s)
    else if !s.brl.present.getLsbD r.cube then (none, s)
    else
      let s := s.emit (.brlAccess r.cube (r.base + off) data)
      let (e, s) := s.draw
      if e.getLsbD 0 then (none, s)
      else match data with
        | some _ => (some [], s)
        | none =>
          let (l, s) := drawBytes n s
          (some l, s)

def remoteRd (m : Master) (w off n : Nat) (s : State) : Rd × State :=
  match remoteAccess m w off n none s with
  | (some l, s) => (.bytes (l.map some), s)
  | (none, s) => (.err, s)

def remoteWr (m : Master) (w off : Nat) (data : List Byte) (s : State) : Bool × State :=
  let r := remoteAccess m w off data.length (some data) s
  (r.1.isSome, r.2)

/-- A word of a register block, from a master of the matrix: the default target's error is recorded (R384, R385). -/
def regRd (m : Master) (off : Nat) (s : State) : Rd × State :=
  match readReg off s with
  | (.ok v, s) => (.bytes ((leBytes 4 v.toNat).map some), s)
  | (.err, s) => (.err, s)
  | (.decode, s) => decodeRd m (0x3000000000 + off) s

def regWr (m : Master) (off : Nat) (val : W32) (by' : Option (Eng × W32)) (s : State) : Bool × State :=
  match writeReg m off val by' s with
  | (.ok _, s) => (true, s)
  | (.err, s) => (false, s)
  | (.decode, s) => decodeWr m (0x3000000000 + off) s

def memRd (m : MemRef) (a n : Nat) (s : State) : Rd × State :=
  let r := memLoad m a n s
  (.bytes r.1, r.2)

/-! ### 40-bit accesses (R387) -/

/-- Read `n` bytes at a 40-bit address, for a master of course `own`. -/
def read40 (m : Master) (own a n : Nat) (s : State) : Rd × State :=
  match target40 a with
  | .bar0 b => if n == 4 && b % 4 == 0 then regRd m b s else (.err, s)
  | .remote w off => remoteRd m w off n s
  | t => match s.memAt own t n with
    | some (mr, x) => memRd mr x n s
    | none => decodeRd m a s

def write40 (m : Master) (own a : Nat) (data : List Byte) (s : State) : Bool × State :=
  match target40 a with
  | .bar0 b => if data.length == 4 && b % 4 == 0 then regWr m b (w32 (leNat data)) none s else (false, s)
  | .remote w off => remoteWr m w off data s
  | t => match s.memAt own t data.length with
    | some (mr, x) => memStore mr x data s
    | none => decodeWr m a s

/-! ### Engine-local accesses (R550) -/

/-- Data address of offset `x` of a course's DRAM window (R380). -/
def State.dwinAddr (s : State) (course x : Nat) : Nat := tabGet s.fab.dwin course 0x80 * 0x200000 + x

/-- Offset within remote window `w` of offset `x` of its engine-local window (R551). -/
def State.rwinOff (s : State) (course w x : Nat) : Nat := tabGet s.fab.rwin (16 * course + w) 0 * 0x2000000 + x

def eMaster (e : Eng) : Master := .engine e.course e.phys

/-- BAR0 offset of a course window. -/
def courseBase (n : Nat) : Nat := 0x1000000 + 0x100000 * n

/-- The address an engine's access presents to the matrix, by region (log 27). -/
def engFabric (e : Eng) (a : Nat) (r : Region) (s : State) : Nat :=
  match r with
  | .csm o => 0x1000000000 + 0x400000 * e.course + o
  | .csmOf c o => 0x1000000000 + 0x400000 * c + o
  | .courseWin o => 0x3000000000 + courseBase e.course + o
  | .regWin b => 0x3000000000 + b
  | .remote w x => remoteAddr w (s.rwinOff e.course w x)
  | .dram x => s.dwinAddr e.course x
  | _ => a

/-- The memory behind a region, if it is one that is mapped for `n` bytes. -/
def engMem (e : Eng) (r : Region) (n : Nat) (s : State) : Option (MemRef × Nat) :=
  match r with
  | .lsp o => some (.lsp e.course e.phys, o)
  | .rom o => some (.rom e.course e.phys, o)
  | .csm o => if s.csmOk e.course then some (.csm e.course, o) else none
  | .csmOf c o => if s.csmOk c then some (.csm c, o) else none
  | .dram x => if s.dramOk (s.dwinAddr e.course x) n then some (.dram, s.dwinAddr e.course x) else none
  | _ => none

/-- Regions that take aligned words only (R232, R550). -/
def wordRegion : Region → Bool
  | .courseWin _ | .csmOf _ _ | .regWin _ | .remote _ _ => true
  | _ => false

/-- Read `n` bytes, all in one region, at an engine-local address. -/
def engRead (e : Eng) (a n : Nat) (s : State) : Rd × State :=
  let r := regionOf (s.engine e).remap a
  if wordRegion r && (n != 4 || a % 4 != 0) then (.err, s)
  else match r with
    | .courseWin o => regRd (eMaster e) (courseBase e.course + o) s
    | .regWin b => regRd (eMaster e) b s
    | .remote w x => remoteRd (eMaster e) w (s.rwinOff e.course w x) 4 s
    | r => match engMem e r n s with
      | some (m, x) => memRd m x n s
      | none => decodeRd (eMaster e) (engFabric e a r s) s

/-- Write bytes, all in one region, at an engine-local address; false is the error response. `instr` is the address of
the store (R393). -/
def engWrite (e : Eng) (a : Nat) (data : List Byte) (instr : W32) (s : State) : Bool × State :=
  let r := regionOf (s.engine e).remap a
  let v := w32 (leNat data)
  if wordRegion r && (data.length != 4 || a % 4 != 0) then (false, s)
  else match r with
    | .courseWin o => regWr (eMaster e) (courseBase e.course + o) v (some (e, instr)) s
    | .regWin b => regWr (eMaster e) b v (some (e, instr)) s
    | .remote w x => remoteWr (eMaster e) w (s.rwinOff e.course w x) data s
    | r => match engMem e r data.length s with
      | some (m, x) => memStore m x data s
      | none => decodeWr (eMaster e) (engFabric e a r s) s

/-! ### The BARs (R76 to R79) -/

/-- A function's BAR0 word. -/
def bar0Rd (v off : Nat) (s : State) : Rsp × State := if v == 0 then readReg off s else readVf v off s
def bar0Wr (v off : Nat) (val : W32) (s : State) : Rsp × State :=
  if v == 0 then writeReg .pf off val none s else writeVf v off val s

def pcieMaster (v : Nat) : Master := if v == 0 then .pf else .vf v

/-- An access the device aborts (R79): the default target records it where it reaches the matrix, and AER logs it. -/
def hostAbort (v : Nat) (write : Bool) (addr : Option Nat) (s : State) : State :=
  let s := match addr with | some a => decodeError write (pcieMaster v) a s | none => s
  tlpError .completerAbort s

/-- 40-bit address of a BAR0 offset, for the PF. -/
def bar0Addr (v off : Nat) : Option Nat := if v == 0 then some (0x3000000000 + off) else none

/-- Read the words of BAR0 in turn; none aborts. -/
def bar0ReadWords (v : Nat) : Nat → Nat → State → Option (List Byte) × State
  | 0, _, s => (some [], s)
  | n + 1, off, s =>
    match bar0Rd v off s with
    | (.ok x, s) =>
      match bar0ReadWords v n (off + 4) s with
      | (some l, s) => (some (leBytes 4 x.toNat ++ l), s)
      | (none, s) => (none, s)
    | (.err, s) => (none, hostAbort v false none s)
    | (.decode, s) => (none, hostAbort v false (bar0Addr v off) s)

/-- Write the words of BAR0 in turn, low first: a pair is one update (R4). -/
def bar0WriteWords (v : Nat) : Nat → List Byte → State → State
  | _, [], s => s
  | off, b0 :: b1 :: b2 :: b3 :: l, s =>
    let s := match bar0Wr v off (w32 (leNat [b0, b1, b2, b3])) s with
      | (.ok _, s) => s
      | (.err, s) => hostAbort v true none s
      | (.decode, s) => hostAbort v true (bar0Addr v off) s
    bar0WriteWords v (off + 4) l s
  | _, _, s => s

/-- The memory behind a BAR4 offset (R78), and the address presented to the matrix. -/
def bar4 (off n : Nat) (s : State) : Option (MemRef × Nat) :=
  if !s.ready Rdy.dram then
    (if off + n ≤ 0x800000 && s.csmOk (off / 0x400000) then some (.csm (off / 0x400000), off % 0x400000) else none)
  else if off + n ≤ 0x800000000 then (if s.dramOk off n then some (.dram, off) else none)
  else if inRange off 0x800000000 0x804000000 then
    (if s.csmOk ((off - 0x800000000) / 0x400000) then some (.csm ((off - 0x800000000) / 0x400000), off % 0x400000) else none)
  else none
def bar4Addr (off : Nat) : Nat :=
  if inRange off 0x800000000 0x804000000 then 0x1000000000 + (off - 0x800000000) else off

/-- One BAR4 byte run is cut where a CSM ends. -/
def bar4Cut (off n : Nat) : Nat := if off < 0x800000000 && 0x800000 ≤ off then n else min n (0x400000 - off % 0x400000)

def hostRead4 (off n : Nat) (s : State) : State :=
  let k := bar4Cut off n
  match bar4 off k s, (if k < n then bar4 (off + k) (n - k) s else some (.dram, 0)) with
  | some (m, a), some (m2, a2) =>
    let (l1, s) := memLoad m a k s
    let (l2, s) := if k < n then memLoad m2 a2 (n - k) s else ([], s)
    let l := l1 ++ l2
    s.emit (.readCompletion (some (l.map (·.getD 0))) (allBytes l).isNone)
  | _, _ => (hostAbort 0 false (some (bar4Addr off)) s).emit (.readCompletion none false)

def hostWrite4 (off : Nat) (data : List Byte) (s : State) : State :=
  let k := bar4Cut off data.length
  let put := fun (o : Nat) (d : List Byte) (s : State) =>
    if d.isEmpty then s
    else match bar4 o d.length s with
      | some (m, a) => (memStore m a d s).2
      | none => hostAbort 0 true (some (bar4Addr o)) s
  put (off + k) (data.drop k) (put off (data.take k) s)

/-- A byte of BAR2: the value last accepted in a doorbell field; none where no QP of the function lies there. -/
def doorByte (v x : Nat) (s : State) : Option Byte :=
  (doorQp v (x / 16) s).map fun q => (((leBytes 4 (s.qp q).sqTail ++ leBytes 4 (s.qp q).cqHead)[x % 16]?).getD 0)

/-- A read of BAR2 (R92), over as many doorbells as it reaches. -/
def hostRead2 (v off n : Nat) (s : State) : State :=
  match allBytes ((List.range n).map fun i => doorByte v (off + i) s) with
  | none => (hostAbort v false none s).emit (.readCompletion none false)
  | some l => s.emit (.readCompletion (some l) false)

/-- A write of BAR2 (R93). A 4-byte write to the reserved offsets +0x8 and +0xC is ignored whatever the QP's state, and not
counted; the spec does not say whether it counts as dropped: DESIGN CHOICE (log 149). -/
def hostWrite2 (v off : Nat) (data : List Byte) (s : State) : State :=
  let q := off / 16
  let w := fun i => w32 (leNat ((data.drop i).take 4))
  if off % 16 == 0 && data.length == 8 then doorbellPair v q (w 0) (w 4) s
  else if off % 16 == 0 then doorbell v q true data.length (w 0) s
  else if off % 16 == 4 then doorbell v q false data.length (w 0) s
  else if data.length == 4 && off % 4 == 0 then s
  else dbDrop v s

/-- Does the access meet a function in D0 and one of its BARs? -/
def State.barHit (s : State) (v bar off n : Nat) : Bool := s.fnExists v && !(s.fn v).d3hot && 0 < n && off + n ≤ barSize v bar

/-- The number that names a function's configuration space where a row gives a BAR (log 144). -/
def barCfg : Nat := 6

/-- A host read: of configuration space, of a BAR, or of neither (R70, R77 to R79, R105). -/
def pcieRead (v bar off n : Nat) (s : State) : State :=
  if bar == barCfg && s.fnExists v then s.emit (.readCompletion (some (cfgBytes v off n s)) false)
  else if !s.barHit v bar off n then (tlpError .unsupportedRequest s).emit (.readCompletion none false)
  else match bar with
    | 0 =>
      if off % 4 == 0 && n % 4 == 0 then
        let (r, s) := bar0ReadWords v (n / 4) off s
        s.emit (.readCompletion r false)
      else (hostAbort v false (bar0Addr v off) s).emit (.readCompletion none false)
    | 2 => hostRead2 v off n s
    | _ => hostRead4 off n s

/-- PCIE_MEM_READ (R70, R77 to R79, R92, R370). -/
def execPcieMemRead (v bar off n : Nat) (s : State) : Res := act (s.alive && s.link.up) (pcieRead v bar off n) s

def pcieWrite (v bar off : Nat) (data : List Byte) (s : State) : State :=
  if !s.barHit v bar off data.length then tlpError .unsupportedRequest s
  else match bar with
    | 0 =>
      if off % 4 == 0 && data.length % 4 == 0 then bar0WriteWords v off data s
      else hostAbort v true (bar0Addr v off) s
    | 2 => hostWrite2 v off data s
    | _ => hostWrite4 off data s

/-- PCIE_MEM_WRITE (R4, R78, R79, R93). -/
def execPcieMemWrite (v bar off : Nat) (data : List Byte) (s : State) : Res :=
  act (s.alive && s.link.up) (pcieWrite v bar off data) s

end Sys2Proof.Machine
end

