-- ==== Sys2Proof/Machine/RegCmds.lean ====
section
/-! DEFINITION. The register accesses that are rows of their own, DOE and SPDM. -/
namespace Sys2Proof.Machine

def Eng.ok (e : Eng) : Bool := e.course < 16 && e.phys < 13

/-! ### VE_CTL and interrupt sources (R60, R61, R276) -/

/-- VE_CTL_RUN (R60). -/
def execVeCtlRun (e : Eng) (val : W32) (s : State) : Res := act (s.alive && Eng.ok e && !val.getLsbD 2) (writeVeCtl e val) s
/-- VE_CTL_RST (R60, R205). -/
def execVeCtlRst (e : Eng) (val : W32) (s : State) : Res := act (s.alive && Eng.ok e && val.getLsbD 2) (writeVeCtl e val) s
/-- VE_CTL_REMAP (R59, R61). -/
def execVeCtlRemap (e : Eng) (val : W32) (s : State) : Res :=
  act (s.alive && Eng.ok e && !val.getLsbD 2 && val.getLsbD 0 == (s.engine e).run) (writeVeCtl e val) s
/-- IRQ_SOURCE_EDGE (R276): SOFT has no edge of its own. -/
def execIrqSourceEdge (e : Eng) (n : Nat) (s : State) : Res := act (s.alive && Eng.ok e && n < 21 && n != 4) (fun s => s.setEngine e (irqEdge n)) s
/-- IRQ_SET_WRITE (R276). -/
def execIrqSetWrite (e : Eng) (val : W32) (s : State) : Res := act (s.alive && Eng.ok e) (fun s => s.setEngine e (irqSet val)) s
/-- IRQ_PEND_WRITE, with the edges that arrive in its cycle; SOFT has none (R276, R6). -/
def execIrqPendWrite (e : Eng) (val edges : W32) (s : State) : Res :=
  act (s.alive && Eng.ok e) (fun s => s.setEngine e (irqClear val (edges &&& ~~~ 0x10))) s
/-- PEGBOX_MAILBOX (R276). -/
def execPegboxMailbox (e : Eng) (s : State) : Res := act (s.alive && Eng.ok e) (fun s => s.setEngine e (irqEdge 3)) s

/-! ### Snapshot shadow (R129) -/

/-- SNAP_BANK_SWITCH (R129). -/
def execSnapBankSwitch (s : State) : Res := act (s.alive && !s.snap.hold && s.snap.hidden.isSome) snapSwitch s
/-- SNAP_CTL_HOLD (R129). -/
def execSnapCtlHold (val : W32) (s : State) : Res := act (s.alive && s.ready Rdy.pcieAdmin) (snapHold val) s

/-! ### Fault sources, fabric errors, fills (R385, R432, R480, R512, R513) -/

/-- FCU_SRC_OPEN_WRITE (R512, R513): a master other than the PF and the pegbox is refused. -/
def execFcuSrcOpenWrite (m : Master) (id : Nat) (val : W32) (s : State) : Res :=
  act (s.alive && s.ready Rdy.fcu && fcuWriter m && id < 4096) (fun s => (writeReg m (0x400000 + 4 * id) val none s).2) s
/-- FAB_ERR_VALID_WRITE (R385). -/
def execFabErrValidWrite (val : W32) (s : State) : Res := act s.alive (fabErrClear val) s
/-- ING_FILL_READ (R432). -/
def execIngFillRead (s : State) : Res := act (s.alive && s.ready Rdy.dram) (fun s => emitVal (readIngFill s)) s
/-- LGS_QFILL_READ (R480). -/
def execLgsQfillRead (s : State) : Res := act (s.alive && s.ready Rdy.lgsRead) (fun s => emitVal (readQfill s)) s
/-- LGS_APPEND_WRITE (R456, R480). -/
def execLgsAppendWrite (n : Nat) (val : W32) (s : State) : Res :=
  act (s.alive && s.ready Rdy.lgsRead && n < 16) (appendWrite n val) s

/-! ### Gates and DMA channels (R187, R188, R391) -/

/-- FG_DONE_WRITE (R187, R188). -/
def execFgDoneWrite (m : Master) (course slot : Nat) (val : W32) (s : State) : Res :=
  act (s.alive && course < 16 && slot < 12) (fgDone m (gateKey course slot) val) s

/-- The outstanding start an engine's go belongs to (R393). -/
def startOf (m : Master) (ch : Nat) (s : State) : Option (Eng × W32) :=
  match m with
  | .engine n p =>
    (s.engine ⟨n, p⟩).starts.findSome? fun x => match x with
      | .dma c i => if c == ch then some (⟨n, p⟩, i) else none
      | .stream _ _ => none
  | _ => none

/-- DMA_CMD_STOP (R391, R393). -/
def execDmaCmdStop (m : Master) (course ch : Nat) (s : State) : Res :=
  act (s.alive && course < 16 && ch < 16 && dmaMaster m course) (dmaStop (dmaKey course ch)) s

/-! ### DOE and SPDM (R74, R75) -/

/-- DOE discovery: discovery itself, then CMA/SPDM; a request past the last index is answered as the DOE standard states
(log 8). An object longer than 256 KiB is aborted. -/
def doeAnswer (index dwords : Nat) (s : State) : State :=
  if 65536 < dwords then s.emit .doeAbort
  else match index with
    | 0 => s.emit (.doe 1 0 1)
    | 1 => s.emit (.doe 1 1 0)
    | _ => s.emit (.doe 0xFFFF 0 0)

/-- DOE_DISCOVERY (R74). -/
def execDoeDiscovery (index dwords : Nat) (s : State) : Res := act (s.alive && s.link.up) (doeAnswer index dwords) s

/-- An answer of the responder to an object of some length: the abort where it is longer than 256 KiB (R74), Busy until the
function is usable (R75). -/
def spdm (dwords : Nat) (r : SpdmRsp) (s : State) : State :=
  if 65536 < dwords then s.emit .doeAbort else s.emit (.spdm (if s.ready Rdy.attest then r else .errorBusy))

/-- What the responder selects of the algorithms a requester offers: ECDSA P-384 and SHA-384 alone, as SPDM codes them (R75;
log 8). -/
def spdmAlgorithms (asym hash : W32) : SpdmRsp := .algorithms (asym &&& 0x80) (hash &&& 0x02) 0x04

/-- SPDM_GET_VERSION. -/
def execSpdmGetVersion (dwords : Nat) (s : State) : Res := act (s.alive && s.link.up) (spdm dwords (.version 0x1200)) s
/-- SPDM_GET_CAPABILITIES. -/
def execSpdmGetCapabilities (dwords : Nat) (s : State) : Res := act (s.alive && s.link.up) (spdm dwords .capabilities) s
/-- SPDM_NEGOTIATE_ALGORITHMS. -/
def execSpdmNegotiateAlgorithms (dwords : Nat) (asym hash : W32) (s : State) : Res :=
  act (s.alive && s.link.up) (spdm dwords (spdmAlgorithms asym hash)) s
/-- SPDM_GET_DIGESTS. -/
def execSpdmGetDigests (dwords : Nat) (s : State) : Res := act (s.alive && s.link.up) (spdm dwords .digests) s
/-- SPDM_GET_CERTIFICATE: slot 0 holds the identity chain. -/
def execSpdmGetCertificate (dwords slot offset length : Nat) (s : State) : Res :=
  act (s.alive && s.link.up) (spdm dwords (if slot == 0 then .certificate slot offset length else .errorInvalid)) s
/-- SPDM_CHALLENGE. -/
def execSpdmChallenge (dwords slot : Nat) (nonce : List Byte) (s : State) : Res :=
  act (s.alive && s.link.up) (spdm dwords (if slot == 0 then .challengeAuth slot nonce else .errorInvalid)) s
/-- SPDM_GET_MEASUREMENTS. -/
def execSpdmGetMeasurements (dwords index : Nat) (nonce : List Byte) (s : State) : Res :=
  act (s.alive && s.link.up) (spdm dwords (.measurements index nonce)) s
/-- SPDM_OTHER_REQUEST: a request code of the seven above is no other request. -/
def execSpdmOtherRequest (dwords : Nat) (code : Byte) (s : State) : Res :=
  let known := ([0x84, 0xE1, 0xE3, 0x81, 0x82, 0x83, 0xE0] : List Byte).contains code
  act (s.alive && s.link.up && !known) (spdm dwords .errorUnsupported) s

/-! ### REGISTER_WRITE (R4, R5, R7, R8, R546 to R549) -/

def regWrite (sp : RegSpace) (off : Nat) (val : W32) (s : State) : State :=
  let bytes := leBytes 4 val.toNat
  match sp with
  | .bar0 .pf => pcieWrite 0 0 off bytes s
  | .bar0 (.vf v) => pcieWrite v 0 off bytes s
  | .bar0 (.link k) => (decodeWr (.link k) (0x3000000000 + off) s).2
  | .bar0 m => if off % 4 == 0 then (regWr m off val none s).2 else s
  | .cfgVfs n => setNumVfs n s
  | .cfgPtmEnable => s.modLink fun l => { l with ptmEn := val.getLsbD 0 }
  | .cfgMsixEnable v => releaseMsix v (s.setFn v fun a => { a with msixEn := val.getLsbD 0 })
  | .cfgMsixFnMask v => releaseMsix v (s.setFn v fun a => { a with msixMask := val.getLsbD 0 })
  | .cfgPowerD0 v => toD0 v s
  | .cfgDevCtl v => writeDevCtl v val s
  | .cfgDevCtl2 v => writeDevCtl2 v val s
  | .cfgAri => s.modLink fun l => { l with ari := val.getLsbD 4 }
  | .cfgAerCtl => s.modLink fun l => { l with ecrcGen := val.getLsbD 6, ecrcChk := val.getLsbD 8 }
  | .cfgAerUncor => clearAer true val s
  | .cfgAerCor => clearAer false val s
  | .cfgBar v bar => writeBar v bar val s

/-- Does the write arrive: over the link for the host's, from inside otherwise? -/
def regArrives (sp : RegSpace) (s : State) : Bool :=
  match sp with
  | .bar0 .pegbox | .bar0 (.engine _ _) | .bar0 (.courseDma _) | .bar0 (.link _) => s.alive
  | .bar0 _ | .cfgVfs _ | .cfgPtmEnable | .cfgAri | .cfgAerCtl | .cfgAerUncor | .cfgAerCor | .cfgBar _ _ => s.alive && s.link.up
  | .cfgMsixEnable v | .cfgMsixFnMask v | .cfgPowerD0 v | .cfgDevCtl v | .cfgDevCtl2 v => s.bar2Up v

/-- REGISTER_WRITE. -/
def execRegisterWrite (sp : RegSpace) (off : Nat) (val : W32) (s : State) : Res := act (regArrives sp s) (regWrite sp off val) s

end Sys2Proof.Machine
end

