-- ==== Sys2Proof/Machine/CoreBase.lean ====
section
/-! DEFINITION. The scalar core between instructions: control registers, fetch, retirement, exception entry, escalation and
halt (R204 to R209, R220 to R224, R235 to R237, R265 to R290). -/
namespace Sys2Proof.Machine

/-! ### General registers (R205) -/

/-- Register n; g0 reads as zero. -/
def Engine.reg (x : Engine) (n : Nat) : W32 := if n == 0 then 0 else (x.g.toList[n]?).getD 0

/-- Write register n; a write of g0 is discarded. -/
def Engine.setReg (x : Engine) (n : Nat) (v : W32) : Engine := if n == 0 then x else { x with g := x.g.set! n v }

def Engine.setRegs (x : Engine) (ws : List (Nat × W32)) : Engine := ws.foldl (fun x w => x.setReg w.1 w.2) x

/-- A register pair, low word first (R231, R246). -/
def Engine.pair (x : Engine) (n : Nat) : Nat := (x.reg n).toNat + (x.reg (n + 1)).toNat * 2 ^ 32
def pairWrites (n v : Nat) : List (Nat × W32) := [(n, w32 v), (n + 1, w32 (v / 2 ^ 32))]

/-! ### Control registers (R206 to R208, R267 to R269) -/

def Engine.mode (x : Engine) : W32 := w32 (4 * bit x.ie + x.priv)

def Engine.estat (x : Engine) : W32 :=
  w32 (4096 * x.asyncQ.length + 512 * x.npriv + 256 * bit x.nie + 64 * x.ppriv + 32 * bit x.pie + 16 * bit x.esc +
    8 * bit x.skip + 4 * bit x.shadow + 2 * bit x.ds + bit x.exl)

/-- A privilege field as written: the reserved value 2 leaves it (R8). -/
def privField (old v : Nat) : Nat := if v == 2 then old else v

/-- What a landed MTC leaves (R206 to R209, R250, R267 to R269). One to FCSR overwrites the flags of the vector
instructions issued before it (R252). -/
def Engine.writeCreg (x : Engine) (n : Nat) (v : W32) : Engine :=
  let f := bitsAt v.toNat
  match n with
  | 0x00 => { x with ie := f 2 1 == 1, priv := privField x.priv (f 0 2) }
  | 0x01 => { x with
      npriv := privField x.npriv (f 9 2), nie := f 8 1 == 1, ppriv := privField x.ppriv (f 6 2), pie := f 5 1 == 1
      esc := f 4 1 == 1, skip := f 3 1 == 1, shadow := f 2 1 == 1, ds := f 1 1 == 1, exl := f 0 1 == 1 }
  | 0x02 => { x with epc := v }
  | 0x03 => { x with ebt := v }
  | 0x04 => { x with ecause := v &&& 0x00FFFFFF }
  | 0x05 => { x with evbase := v &&& 0xFFFFF001 }
  | 0x06 => { x with estack := v }
  | 0x07 => { x with eaddr := v }
  | 0x08 => { x with lc := x.lc.set! 0 v }
  | 0x0B => { x with lc := x.lc.set! 1 v }
  | 0x09 => { x with ls := x.ls.set! 0 (v &&& 0xFFFFFFFC) }
  | 0x0C => { x with ls := x.ls.set! 1 (v &&& 0xFFFFFFFC) }
  | 0x0A => { x with le := x.le.set! 0 (v &&& 0xFFFFFFFC) }
  | 0x0D => { x with le := x.le.set! 1 (v &&& 0xFFFFFFFC) }
  | 0x1E => { x with fcsr := fcsrWrite x.fcsr v, vq := x.vq.map fun q => { q with flags := 0 } }
  | 0x1F => { x with scratch := x.scratch.set! 0 v }
  | 0x20 => { x with scratch := x.scratch.set! 1 v }
  | _ =>
    if inRange n 0x10 0x14 then { x with modBase := x.modBase.set! (n - 0x10) v }
    else if inRange n 0x14 0x18 then { x with modLen := x.modLen.set! (n - 0x14) v } else x

/-- ENGINE_ID (R208). -/
def engineId (e : Eng) (s : State) : W32 :=
  w32 (4096 * e.course + 256 * (if (s.engine e).st == .run then (s.slotOf e).getD 15 else 15) + e.phys)

def readCreg (e : Eng) (n : Nat) (s : State) : W32 :=
  let x := s.engine e
  match n with
  | 0x00 => x.mode
  | 0x01 => x.estat
  | 0x02 => x.epc
  | 0x03 => x.ebt
  | 0x04 => x.ecause
  | 0x05 => x.evbase
  | 0x06 => x.estack
  | 0x07 => x.eaddr
  | 0x08 => x.lc[0]!
  | 0x0B => x.lc[1]!
  | 0x09 => x.ls[0]!
  | 0x0C => x.ls[1]!
  | 0x0A => x.le[0]!
  | 0x0D => x.le[1]!
  | 0x18 => lo32 x.cycle
  | 0x19 => hi32 x.cycle
  | 0x1A => lo32 x.instret
  | 0x1B => hi32 x.instret
  | 0x1C => engineId e s
  | 0x1D => 0x40
  | 0x1E => x.fcsr
  | 0x1F => x.scratch[0]!
  | 0x20 => x.scratch[1]!
  | _ =>
    if inRange n 0x10 0x14 then (x.modBase.toList[n - 0x10]?).getD 0
    else if inRange n 0x14 0x18 then (x.modLen.toList[n - 0x14]?).getD 0 else 0

/-- May a control register be read, or written, in a privilege (R206)? -/
def cregReadable (priv n : Nat) : Bool :=
  if n == 0x06 then priv == 3
  else if inRange n 1 8 || n == 0x1F || n == 0x20 then 1 ≤ priv else true
def cregWritable (priv n : Nat) : Bool :=
  if n == 0x05 || n == 0x06 then priv == 3
  else if n ≤ 0x07 || n == 0x1F || n == 0x20 then 1 ≤ priv
  else !inRange n 0x18 0x1E

/-! ### The store buffer seen by a read -/

/-- The byte the store buffer holds for an engine-local address, the youngest store's. -/
def Engine.buffered (x : Engine) (a : Nat) : Option Byte :=
  (x.stores.reverse.findSome? fun st =>
    let off := (a + 2 ^ 32 - st.addr) % 2 ^ 32
    if off < st.bytes.length then st.bytes[off]? else none)

/-- Does a buffered store meet any of `n` bytes at `a`? -/
def StoreEnt.meets (st : StoreEnt) (a n : Nat) : Bool :=
  (a + 2 ^ 32 - st.addr) % 2 ^ 32 < st.bytes.length || (st.addr + 2 ^ 32 - a) % 2 ^ 32 < n

/-! ### Fetch (R59, R204, R235 to R237, R370) -/

/-- The byte a store of `bs` at `a` gives the address `b` of fetch: fetch and data may stand under different remaps (R61). -/
def Engine.storesTo (x : Engine) (a : Nat) (bs : List Byte) (b : Nat) : Option Byte :=
  let here := regionOf x.fetchRemap b
  (List.range bs.length).findSome? fun i => if regionOf x.remap ((a + i) % 2 ^ 32) == here then bs[i]? else none

/-- The LSP or boot ROM place an address fetches from under a remap. -/
def fetchPlace (e : Eng) (remap : Bool) (a : Nat) : Option (MemRef × Nat) :=
  match regionOf remap a with
  | .lsp o => some (.lsp e.course e.phys, o)
  | .rom o => some (.rom e.course e.phys, o)
  | _ => none

/-- Fetch the word at an address: none is FETCH_FAULT. It observes the buffered stores. -/
def fetchWord (e : Eng) (a : W32) (s : State) : Option W32 × State :=
  let x := s.engine e
  if a.toNat % 4 != 0 then (none, s)
  else match fetchPlace e x.fetchRemap a.toNat with
  | none => (none, s)
  | some (m, o) =>
    let (bs, s) := memLoad m o 4 s
    let seen := bs.zipIdx.map fun p =>
      (x.stores.reverse.findSome? fun st => x.storesTo st.addr st.bytes (a.toNat + p.2)).orElse fun _ => p.1
    ((allBytes seen).map fun b => w32 (leNat b), s)

/-! ### Stores into what stands ahead (R236) -/

/-- Does a store of `bs` at `a` meet the word fetched at `w`? -/
def Engine.meetsWord (x : Engine) (a : Nat) (bs : List Byte) (w : W32) : Bool :=
  (List.range 4).any fun i => (x.storesTo a bs (w.toNat + i)).isSome

/-- The word fetched at `w` as the store leaves it. -/
def Engine.patchWord (x : Engine) (a : Nat) (bs : List Byte) (w v : W32) : W32 :=
  w32 (leNat ((leBytes 4 v.toNat).zipIdx.map fun p => (x.storesTo a bs (w.toNat + p.2)).getD p.1))

/-- The instruction at pc stores `bs` at `a`: the words it meets within the 4 ahead stay as they are fetched until the queue
is discarded; a word held from an earlier store takes the bytes (R236). -/
def Engine.noteStore (a : Nat) (bs : List Byte) (x : Engine) : Engine :=
  let ahead := (x.pq.tail.take 4).filter fun p => x.meetsWord a bs p.1
  let held := x.held.filter fun p => !ahead.any (·.1 == p.1)
  { x with held := held.map (fun p => (p.1, p.2.map (x.patchWord a bs p.1))) ++ ahead }

/-- The address after `a` on the predicted path, with the loop counts it leaves (R235). -/
def predictNext (x : Engine) (a : W32) (lc0 lc1 : W32) : W32 × W32 × W32 :=
  if a == x.le[1]! && lc1 != 0 && lc1 != 1 then (x.ls[1]!, lc0, lc1 - 1)
  else
    let lc1' := if a == x.le[1]! && lc1 != 0 then lc1 - 1 else lc1
    if a == x.le[0]! && lc0 != 0 then (if lc0 == 1 then (a + 4, 0, lc1') else (x.ls[0]!, lc0 - 1, lc1'))
    else (a + 4, lc0, lc1')

def predictPath (x : Engine) : Nat → W32 → W32 → W32 → List W32
  | 0, _, _, _ => []
  | n + 1, a, lc0, lc1 =>
    let p := predictNext x a lc0 lc1
    a :: predictPath x n p.1 p.2.1 p.2.2

/-- The word at an address of the path: as it is held (R236), else as a fetch finds it. -/
def pathWord (e : Eng) (a : W32) (s : State) : Option W32 × State :=
  match (s.engine e).held.find? (·.1 == a) with
  | some p => (p.2, s)
  | none => fetchWord e a s

/-- Keep what the queue holds of the path, and fetch the rest. -/
def refill (e : Eng) : List W32 → List (W32 × Option W32) → State → List (W32 × Option W32) × State
  | [], _, s => ([], s)
  | a :: path, (b, w) :: q, s =>
    if a == b then
      let (l, s) := refill e path q s
      ((b, w) :: l, s)
    else
      let (v, s) := pathWord e a s
      let (l, s) := refill e path [] s
      ((a, v) :: l, s)
  | a :: path, [], s =>
    let (v, s) := pathWord e a s
    let (l, s) := refill e path [] s
    ((a, v) :: l, s)

/-- The word at pc, with the queue holding it and the 4 words ahead of it (R236). -/
def fetchCurrent (e : Eng) (s : State) : Option W32 × State :=
  let x := s.engine e
  let (q, s) := refill e (predictPath x 5 x.pc x.lc[0]! x.lc[1]!) x.pq s
  ((q.head?.bind fun p => p.2), s.setEngine e fun x => { x with pq := q })

/-! ### Retirement (R209, R218, R221) -/

/-- Is there an active loop end at an address (R222)? -/
def Engine.loopEnd (x : Engine) (a : W32) : Bool := (a == x.le[0]! && x.lc[0]! != 0) || (a == x.le[1]! && x.lc[1]! != 0)

/-- The loop-end evaluation of the instruction at `a` (R221): where execution continues. -/
def Engine.evalLoop (x : Engine) (a : W32) : Engine :=
  let one := a == x.le[1]! && x.lc[1]! != 0
  let l1 : W32 := if one then x.lc[1]! - 1 else x.lc[1]!
  if one && l1 != 0 then { x with lc := x.lc.set! 1 l1, pc := x.ls[1]! }
  else
    let x : Engine := { x with lc := x.lc.set! 1 l1 }
    if a == x.le[0]! && x.lc[0]! != 0 then
      let l0 : W32 := x.lc[0]! - 1
      { x with lc := x.lc.set! 0 l0, pc := if l0 != 0 then x.ls[0]! else a + 4 }
    else { x with pc := a + 4 }

/-- The pending MTC lands (R209). -/
def Engine.land (x : Engine) : Engine :=
  match x.mtc with
  | some (n, v) => { (x.writeCreg n v) with mtc := none }
  | none => x

/-- The instruction at pc completes: INSTRET, the delay slot's branch or the loop end, the MTC it was the shadow of, then
its flags (R252). `new` is the MTC it is itself. -/
def Engine.retire (x : Engine) (flags : Nat) (new : Option (Nat × W32)) : Engine :=
  let x := { x with instret := x.instret + 1, waiting := false }
  let x := match x.delay with
    | some t => { x with
        pc := t, delay := none, taken := false, pq := if x.taken then [] else x.pq.tail, held := if x.taken then [] else x.held }
    | none => { (x.evalLoop x.pc) with pq := x.pq.tail }
  let x := x.land
  { x with fcsr := fcsrOr x.fcsr flags, mtc := new }

/-! ### Exception entry (R270 to R273) -/

/-- A cause to enter: code, sub, EADDR where R265 gives one, and skip. -/
structure Cause where
  code  : Nat
  sub   : Nat := 0
  eaddr : Option W32 := none
  skip  : Bool := false
deriving DecidableEq, Repr

def causeWord (orig sub code : Nat) : W32 := w32 (65536 * orig + 256 * sub + code)

/-- Read `n` aligned bytes of LSP or the boot ROM for an entry, buffered stores included. -/
def entryRead (e : Eng) (a n : Nat) (s : State) : Option (List Byte) × State :=
  let x := s.engine e
  match fetchPlace e x.remap a with
  | none => (none, s)
  | some (m, o) =>
    let (bs, s) := memLoad m o n s
    (allBytes (bs.zipIdx.map fun p => (x.buffered (a + p.2)).orElse fun _ => p.1), s)

/-- The handler a cause enters: address, stack, window, ie, priv; or the address whose read failed (R270 to R272). -/
structure Handler where
  addr   : W32
  stack  : W32
  window : Nat
  ie     : Bool
  priv   : Nat
deriving DecidableEq, Repr

def evBase (x : Engine) : W32 := x.evbase &&& 0xFFFFF000

def findHandler (e : Eng) (code : Nat) (s : State) : Except W32 Handler × State :=
  let x := s.engine e
  let base := evBase x
  if !x.evbase.getLsbD 0 then (.ok { addr := base, stack := 0, window := 0, ie := false, priv := 3 }, s)
  else
    let da := base + w32 (16 * code)
    match entryRead e da.toNat 16 s with
    | (none, s) => (.error da, s)
    | (some b, s) =>
      let f := fun i => leNat ((b.drop (4 * i)).take 4)
      let ctl := f 2
      let stackOk := f 1 == 0 || (f 1 % 4 == 0 && (match regionOf x.remap (f 1) with | .lsp _ => true | _ => false))
      let ok := f 0 % 4 == 0 && stackOk && (bitsAt ctl 0 2 == 1 || bitsAt ctl 0 2 == 3) &&
        bitsAt ctl 16 11 ≤ 1024 && bitsAt ctl 27 5 == 0 && bitsAt ctl 3 13 == 0 && f 3 == 0
      if ok then
        (.ok { addr := w32 (f 0), stack := w32 (f 1), window := bitsAt ctl 16 11, ie := bitsAt ctl 2 1 == 1,
               priv := bitsAt ctl 0 2 }, s)
      else (.error da, s)

/-- Store a word of an entry at an engine-local LSP address; buffered stores to it keep their place behind it. -/
def entryStore (e : Eng) (a v : W32) (s : State) : Bool × State :=
  match regionOf (s.engine e).remap a.toNat with
  | .lsp o =>
    let bs := leBytes 4 v.toNat
    let (ok, s) := memStore (.lsp e.course e.phys) o bs s
    if !ok then (false, s)
    else (true, s.setEngine e fun x => { x with stores := x.stores.map fun st =>
      { st with bytes := st.bytes.zipIdx.map fun p =>
          let off := (st.addr + p.2 + 2 ^ 32 - a.toNat) % 2 ^ 32
          if off < 4 then (bs[off]?).getD p.1 else p.1 } })
  | _ => (false, s)

/-- Switch to a handler's stack: the old g30 at stack - 4 (R273). -/
def stackSwitch (e : Eng) (stack : W32) (s : State) : Bool × State :=
  let (ok, s) := entryStore e (stack - 4) ((s.engine e).reg 30) s
  if ok then (true, s.setEngine e fun x => x.setReg 30 (stack - 4)) else (false, s)

/-- Fetch begins at a handler: what was under way is dropped, a division or FG_NEXT read abandoned (R273, R284). -/
def Engine.startAt (x : Engine) (a : W32) (priv : Nat) (ie : Bool) (window : Nat) : Engine :=
  { x with pc := a, delay := none, taken := false, mtc := none, pq := [], held := [], div := none, fgWait := false, waiting := false
           priv := priv, ie := ie, window := window }

/-- Steps 1 and 2 of R273: what is saved of the interrupted program, and where. A pending MTC to MODE is saved in npriv
and nie; any other lands first (R283). With no branch pending the spec states no value for EBT: `open'` is one (log 7). -/
def Engine.save (x : Engine) (open' : W32) (skip : Bool) : Engine :=
  let modeShadow := match x.mtc with | some (0, _) => true | _ => false
  let x := if modeShadow then x else x.land
  let nv := match x.mtc with | some (0, v) => v.toNat | _ => 0
  { x with
    ppriv := x.priv, pie := x.ie, exl := true, skip := skip, shadow := modeShadow
    npriv := if modeShadow then privField x.priv (bitsAt nv 0 2) else 0
    nie := modeShadow && bitsAt nv 2 1 == 1
    ds := x.delay.isSome, epc := x.pc, ebt := x.delay.getD open' }

/-- Halt (R290). -/
def haltCore (e : Eng) (s : State) : State :=
  let s := s.setEngine e fun x => { x with st := .halt, div := none, fgWait := false, entry := none, pq := [], held := [] }
  raiseFault (Src.veHalt e.course) 0 (unitEng e.course e.phys) s

/-- Escalation (R288, R289): `orig` the cause, `eaddr` the failing address; what it saves is in place already. A failure
of its own halts (R290). -/
def escalate (e : Eng) (orig : Nat) (eaddr : W32) (s : State) : State :=
  let x := s.engine e
  let h := evBase x + 0x1000
  let (w, s) := fetchWord e h s
  let stack := x.estack
  let (ok, s) := if w.isNone || stack.toNat % 4 != 0 then (false, s)
    else if stack == 0 then (true, s) else stackSwitch e stack s
  let s := s.setEngine e fun x =>
    { (x.startAt h 3 false 0) with exl := true, esc := true, ecause := causeWord orig 0 9, eaddr := eaddr, entry := none }
  if ok then s else haltCore e s

/-- Enter a cause whose program state is saved in place: find the handler, switch stacks, begin there; a fault on the way
escalates (R271 to R273, R288). The entry is at cycle `age`, and its first instruction issues at cycle `due` (R274, R275). -/
def enterHandler (e : Eng) (c : Cause) (intr : Bool) (age due : Nat) (s : State) : State :=
  let old := s.engine e
  match findHandler e c.code s with
  | (.error da, s) => escalate e c.code da s
  | (.ok h, s) =>
    let (w, s) := fetchWord e h.addr s
    if w.isNone then escalate e c.code h.addr s
    else
      let at' := (h.stack - 4).toNat
      let before := match regionOf old.remap at' with | .lsp o => memReadList old.lsp o 4 | _ => []
      let (ok, s) := if h.stack == 0 then (true, s) else stackSwitch e h.stack s
      if !ok then escalate e c.code (h.stack - 4) s
      else s.setEngine e fun x =>
        let run : EntryRun := { source := if intr then some (c.code - 0x20) else none, age := age, due := due
                                oldG30 := old.reg 30, oldPriv := x.ppriv, oldIe := x.pie, stores := old.stores
                                stackAt := if h.stack == 0 then none else some (at', before) }
        { (x.startAt h.addr h.priv h.ie h.window) with
          ecause := causeWord 0 c.sub c.code, eaddr := c.eaddr.getD x.eaddr, entry := some run }

/-- Take a cause at the current boundary or instruction (R273, R288, R290). -/
def enterCause (e : Eng) (c : Cause) (intr : Bool) (s : State) : State :=
  let (v, s) := s.draw
  enterHandler e c intr 0 12 (s.setEngine e fun x => x.save (lo32 v) c.skip)

/-- A precise exception of the instruction at pc. -/
def raiseExc (e : Eng) (c : Cause) (s : State) : State :=
  let x := (s.engine e)
  let modeShadow := match x.mtc with | some (0, _) => true | _ => false
  let x := if modeShadow then x else x.land
  if x.esc then haltCore e (s.setEngine e fun _ => x)
  else if x.exl then escalate e c.code x.pc (s.setEngine e fun _ => x)
  else enterCause e c false s

end Sys2Proof.Machine
end

