-- ==== Sys2Proof/Machine/Scalar.lean ====
section
/-! DEFINITION. The scalar core's instructions (R203, R210 to R264, R278, R285). Each row issues the word at pc where that
word is one of its class; otherwise nothing changes (log 28). -/
namespace Sys2Proof.Machine

/-! ### Issue -/

/-- The registers an address is formed from (R226). -/
def addrRegs (base am amf : Nat) : List Nat :=
  match am with
  | 3 | 6 => [base, bitsAt amf 7 5]
  | 5 => [base, bitsAt amf 5 5]
  | _ => [base]

/-- The registers a half of a paired word reads (R214). -/
def halfReads (h : Nat) : List Nat :=
  let sop := bitsAt h 10 5
  let rd := bitsAt h 5 5
  let rs := bitsAt h 0 5
  if sop == 0 || sop == 19 then []
  else if sop == 1 || sop == 17 || sop == 18 || sop == 20 then [rs]
  else if inRange sop 10 14 then [rd] else [rd, rs]

/-- A source of a floating-point instruction: one register, or a pair. -/
def fpSrc (dbl : Bool) (r : Nat) : List Nat := if dbl then [r, r + 1] else [r]

/-- The registers an instruction reads, at SEW `sew` for its VX operand (R214 to R216, R226, R238, R294, R303). -/
def EOp.reads (sew : Nat) : EOp → List Nat
  | .alu _ _ a b | .cmp _ _ a b | .mul _ _ a b | .div _ _ a b => [a, b]
  | .bitop _ _ a | .imm _ _ a _ | .shi _ _ a _ | .jalr _ a _ | .setvl _ a | .sstart _ a | .sstarta _ a | .swait _ a => [a]
  | .carry _ _ a b c | .madd _ a b c | .sel _ a b c => [a, b, c]
  | .load _ _ base am amf => addrRegs base am amf
  | .store kind rt base am amf => rt :: (if kind == 3 then [rt + 1] else []) ++ addrRegs base am amf
  | .amo _ _ base src => [base, src]
  | .branch _ rs _ | .mtc rs _ | .shaper rs | .vwrs rs => [rs]
  | .loop _ reg count _ => if reg then [count] else []
  | .fp func dbl _ a b c =>
    let d := if func == 9 then false else if func == 11 then !dbl else dbl
    fpSrc d a ++ (if func ≤ 8 then fpSrc d b else []) ++ (if func == 3 then fpSrc d c else [])
  | .paired a b => halfReads a ++ halfReads b
  | .va major _ x _ _ src func =>
    if src == 1 || (major == 0x35 && func == 9) then (if sew == 64 then [x, x + 1] else [x]) else []
  | .vmem _ _ rs1 x _ mode _ => rs1 :: (if mode == 1 then [x] else [])
  | _ => []

/-- Registers with a result outstanding (R238, R309). -/
def Engine.owed (x : Engine) : List Nat := (x.loads.flatMap fun l => l.writes.map (·.1)) ++ x.vq.flatMap fun v => v.writes.map (·.1)

/-- Results outstanding for registers that a later instruction writes now are not written any more (log 155). -/
def Engine.supersede (x : Engine) (rs : List Nat) : Engine :=
  let keep := fun (ws : List (Nat × W32)) => ws.filter fun w => !rs.contains w.1
  { x with loads := x.loads.map (fun l => { l with writes := keep l.writes }), vq := x.vq.map fun v => { v with writes := keep v.writes } }

/-- Write results in program order (R238). -/
def Engine.results (x : Engine) (ws : List (Nat × W32)) : Engine := (x.supersede (ws.map (·.1))).setRegs ws

def isBranchClass : EOp → Bool
  | .branch .. | .jump .. | .jalr .. | .loop .. | .rfe | .iflush => true
  | _ => false

/-- ILLEGAL by place: in a delay slot, or at an active loop end (R219, R222). -/
def illegalPlace (x : Engine) (op : EOp) : Bool :=
  (x.delay.isSome && isBranchClass op) || (x.loopEnd x.pc && (isBranchClass op || x.delay.isSome))

/-- The engine's core is live: it runs and no debugger halts it (R60, R290, R419). -/
def State.coreLive (s : State) (e : Eng) : Bool :=
  let x := s.engine e
  s.alive && Eng.ok e && (x.st == .run || x.st == .shadow) && x.run && !s.sen.debugHalt.contains (engKey e.course e.phys)

/-- An asynchronous error is to be taken at this boundary (R278, R281). -/
def Engine.asyncDue (x : Engine) : Bool := !x.exl && x.window == 0 && !x.asyncQ.isEmpty

/-- An interrupt is to be taken at this boundary (R278, R279, R281). -/
def Engine.irqDue (x : Engine) : Bool :=
  !x.exl && x.window == 0 && x.ie && x.delay.isNone && x.mtc.isNone && (irqTop x).isSome

/-- It may issue: nothing that holds issue back runs, no load has failed, and no cause is to be taken first (R239, R249,
R278, R287). -/
def State.coreIssues (s : State) (e : Eng) : Bool :=
  let x := s.engine e
  s.coreLive e && x.div.isNone && !x.asyncDue && !x.irqDue && x.loads.all fun l => l.err.isNone

/-- Take a precise exception once every earlier instruction has completed (R265); none stalls. -/
def excOr (e : Eng) (c : Cause) (s : State) : Option State :=
  if (s.engine e).loads.isEmpty then some (raiseExc e c s) else none

def illegalCause : Cause := { code := 1 }
def privCause : Cause := { code := 2 }

/-- Issue the word at pc; an entry under way is over with it (R274, R276). `f` is what the class's instruction does; none is
a stall, which changes nothing. -/
def issue (e : Eng) (cls : EClass) (f : EOp → State → Option State) (s : State) : Res :=
  if !s.coreIssues e then .next s
  else
    let x := s.engine e
    let (w, s1) := fetchCurrent e (s.setEngine e Engine.endEntry)
    let r := match w with
      | none => excOr e { code := 3, eaddr := some x.pc } s1
      | some w => match decodeWord w with
        | none => excOr e illegalCause s1
        | some op =>
          if op.cls != cls then none
          else if illegalPlace x op then excOr e illegalCause s1
          else if (op.reads (shapeOf x.vshape).sew).any fun r => x.owed.contains r then none
          else f op s1
    .next (r.getD s)

/-- Complete with register writes and flags. -/
def complete (e : Eng) (ws : List (Nat × W32)) (flags : Nat) (s : State) : State :=
  s.setEngine e fun x => (x.results ws).retire flags none

/-! ### Register operations (R214 to R216, R244 to R264) -/

/-- The result of a floating-point instruction (R216, R253). -/
def fpResult (x : Engine) (func : Nat) (dbl : Bool) (rd a b c : Nat) : List (Nat × W32) × Nat :=
  let srcDbl := if func == 9 then false else if func == 11 then !dbl else dbl
  let dstDbl := if inRange func 6 9 || func == 10 then false else dbl
  let src := fun r => if srcDbl then x.pair r else (x.reg r).toNat
  let v := fpOp func dbl (fcsrRm x.fcsr) (src a) (src b) (src c)
  (if dstDbl then pairWrites rd v.1 else [(rd, w32 v.1)], v.2)

/-- What an instruction that reads and writes registers alone writes, and its flags. -/
def pureOp (x : Engine) : EOp → Option (List (Nat × W32) × Nat)
  | .alu f rd a b => some ([(rd, aluOp f (x.reg a) (x.reg b))], 0)
  | .bitop f rd a => some ([(rd, bitOp f (x.reg a))], 0)
  | .mul f rd a b =>
    if f == 0 then some ([(rd, x.reg a * x.reg b)], 0)
    else some (pairWrites rd (wideProduct f (x.reg a) (x.reg b)).toNat, 0)
  | .carry f rd a b c => some ([(rd, carryOp f (x.reg a) (x.reg b) (x.reg c))], 0)
  | .madd rd a b c => some ([(rd, x.reg a * x.reg b + x.reg c)], 0)
  | .sel rd a b c => some ([(rd, if x.reg c != 0 then x.reg a else x.reg b)], 0)
  | .cmp f rd a b => some ([(rd, cmpOp f (x.reg a) (x.reg b))], 0)
  | .imm op rd a i => some ([(rd, immOp op (x.reg a) i)], 0)
  | .shi k rd a sh => some ([(rd, aluOp (6 + k) (x.reg a) (w32 sh))], 0)
  | .lui rd i => some ([(rd, w32 (i * 4096))], 0)
  | .auipc rd i => some ([(rd, x.pc + w32 (i * 4096))], 0)
  | .fp f dbl rd a b c => some (fpResult x f dbl rd a b c)
  | _ => none

def doPure (e : Eng) (op : EOp) (s : State) : Option State :=
  (pureOp (s.engine e) op).map fun r => complete e r.1 r.2 s

/-- INTEGER_OP (R215). -/
def execIntegerOp (e : Eng) (s : State) : Res := issue e .integerOp (doPure e) s
/-- CARRY_BORROW_OP (R245). -/
def execCarryBorrowOp (e : Eng) (s : State) : Res := issue e .carryBorrowOp (doPure e) s
/-- BIT_OP (R247). -/
def execBitOp (e : Eng) (s : State) : Res := issue e .bitOp (doPure e) s
/-- MULTIPLY_OP (R246). -/
def execMultiplyOp (e : Eng) (s : State) : Res := issue e .multiplyOp (doPure e) s
/-- FP_ARITH (R253 to R264). -/
def execFpArith (e : Eng) (s : State) : Res := issue e .fpArith (doPure e) s
/-- FP_MIN_MAX_COMPARE (R256). -/
def execFpMinMaxCompare (e : Eng) (s : State) : Res := issue e .fpMinMaxCompare (doPure e) s
/-- FP_CONVERT (R259, R260). -/
def execFpConvert (e : Eng) (s : State) : Res := issue e .fpConvert (doPure e) s

/-- A division begins; the core issues nothing else while it runs (R239, R249). -/
def doDivide (e : Eng) (op : EOp) (s : State) : Option State :=
  match op with
  | .div f rd a b =>
    some (s.setEngine e fun x =>
      let r := divOp f (x.reg a) (x.reg b)
      { x with div := some { rd := rd, result := r.1, dz := r.2, cycles := divCycles f (x.reg a) (x.reg b) } })
  | _ => none

/-- DIVIDE_OP (R248, R249). -/
def execDivideOp (e : Eng) (s : State) : Res := issue e .divideOp (doDivide e) s

/-- The division ends: its remaining cycles pass, its result is written, dz is set by a zero divisor (R248, R249, R251). -/
def divideDone (e : Eng) (s : State) : State :=
  match (s.engine e).div with
  | none => s
  | some d =>
    let s := s.advance (s.vtOfCycles d.cycles)
    s.setEngine e fun x => ({ x with div := none }.results [(d.rd, d.result)]).retire (8 * bit d.dz) none

/-- DIVIDE_COMPLETE. -/
def execDivideComplete (e : Eng) (s : State) : Res := act (s.coreLive e && (s.engine e).div.isSome) (divideDone e) s

/-! ### Loads (R226 to R233, R238, R240, R241) -/

/-- The pieces of an access: one, or two cut at the next multiple of the size (R230). -/
def pieces (a n : Nat) : List (Nat × Nat) :=
  if a % n == 0 then [(a, n)] else [(a, n - a % n), ((a + n - a % n) % 2 ^ 32, a % n)]

/-- Do an access's bytes reach a window (R232)? -/
def inWindow (e : Eng) (a : Nat) (s : State) : Bool := wordRegion (regionOf (s.engine e).remap a)

/-- Read the pieces of an access of `n` bytes in turn: the bytes, or the address of the piece that failed. A window takes
nothing but an aligned word, no half of another access (R232). -/
def readPieces (e : Eng) (n : Nat) : List (Nat × Nat) → State → Except W32 (List Byte) × State
  | [], s => (.ok [], s)
  | (a, k) :: ps, s =>
    if k != n && inWindow e a s then (.error (w32 a), s)
    else match engRead e a k s with
    | (r, s) => match r.all with
      | none => (.error (w32 a), s)
      | some b => match readPieces e n ps s with
        | (.ok l, s) => (.ok (b ++ l), s)
        | (.error x, s) => (.error x, s)

/-- How a load of `n` bytes at `a` meets the buffered stores and the vector stores: it waits, it is answered by the
youngest store that holds all its bytes, or it goes out (R241, R306, R382). -/
inductive LoadWay where
  | wait | forward (bs : List Byte) | out
deriving DecidableEq, Repr

def loadWay (e : Eng) (a n : Nat) (s : State) : LoadWay :=
  let x := s.engine e
  if x.vq.any (·.store) then .wait
  else match x.stores.reverse.find? (·.meets a n) with
  | none => if inWindow e a s && x.stores.any (fun st => inWindow e st.addr s) then .wait else .out
  | some st =>
    let off := (a + 2 ^ 32 - st.addr) % 2 ^ 32
    if off + n ≤ st.bytes.length then .forward ((st.bytes.drop off).take n) else .wait

/-- The gate whose FG_NEXT an address is, where this engine holds the slot (R187, R188). -/
def fgNextAt (e : Eng) (a : Nat) (s : State) : Option Nat :=
  let key := fun (n o : Nat) => match courseReg o with
    | some (.gate sl 0) => if s.slotEngine (gateKey n sl) == e then some (gateKey n sl) else none
    | _ => none
  match regionOf (s.engine e).remap a with
  | .courseWin o => key e.course o
  | .regWin b => if inRange b 0x1000000 0x2000000 then key ((b - 0x1000000) / 0x100000) (b % 0x100000) else none
  | _ => none

/-- Chords of a level are outstanding (R312, R313). -/
def Engine.chordsAt (x : Engine) (handler : Bool) : Bool := x.su.chords.any fun c => c.handler == handler

/-- The values a load writes (R231, R233). -/
def loadWrites (kind rt : Nat) (b : List Byte) : List (Nat × W32) :=
  let v := leNat b
  let ws := match kind with
    | 0 => [(rt, i32 (sgn 8 v))]
    | 2 => [(rt, i32 (sgn 16 v))]
    | 6 => pairWrites rt v
    | _ => [(rt, w32 v)]
  ws.filter fun w => w.1 != 0

/-- Bytes of a load kind LB, LBU, LH, LHU, LW, LWX, LD. -/
def loadSize (kind : Nat) : Nat := match kind with | 0 | 1 => 1 | 2 | 3 => 2 | 6 => 8 | _ => 4

/-- An issued load: its base update, and the registers it will write (R227, R238). -/
def issueLoad (e : Eng) (base : Nat) (upd : Option W32) (ws : List (Nat × W32)) (keep : Bool) (s : State) : State :=
  s.setEngine e fun x =>
    let x : Engine := match upd with | some v => if keep then x else x.results [(base, v)] | none => x
    let x : Engine := x.supersede (ws.map (·.1))
    let x : Engine := { x with loads := x.loads ++ [{ writes := ws }], fgWait := false }
    x.retire 0 none

/-- A load that failed holds its place until it returns (R230, R265). -/
def failLoad (e : Eng) (a : W32) (s : State) : State :=
  s.setEngine e fun x => { x with loads := x.loads ++ [{ writes := [], err := some a }] }

/-- A read of FG_NEXT by the slot's holder: the released job's entry, or the current job ends and the read waits for the
next (R187); it waits for the program-level chords first (R314). -/
def fgNextLoad (e : Eng) (k : Nat) (go : W32 → State → State) (s : State) : Option State :=
  if (s.engine e).chordsAt false then none
  else
    let take := fun (s : State) => go (s.gate k).entry (s.setGate k fun g => { g with fresh := false })
    if (s.gate k).fresh then some (take s)
    else
      let s := endJob k s
      if (s.gate k).fresh then some (take s) else some (s.setEngine e fun x => { x with fgWait := true })

/-- The effective address of a load or store and its base's new value, on an engine (R226). -/
def Engine.address (x : Engine) (base am amf : Nat) : W32 × Option W32 :=
  Machine.address x.reg (fun i => (x.modBase.toList[i]?).getD 0) (fun i => (x.modLen.toList[i]?).getD 0) base am amf

/-- The address a load of a kind reads: LWX that of the word its address lies in (R233). -/
def loadAddr (kind : Nat) (ea : W32) : Nat := if kind == 5 then ea.toNat / 4 * 4 else ea.toNat

/-- The bytes of a load as it moves them: LWX rotates its word right (R233). -/
def loadTurn (kind : Nat) (ea : W32) (b : List Byte) : List Byte :=
  if kind == 5 then b.rotateLeft (ea.toNat % 4) else b

/-- Read at an address for a load: an answer of the store buffer, a read of FG_NEXT, or the memory's; `go` issues it with the
bytes, and an errored load holds its place (R187, R230, R241). -/
def loadGo (e : Eng) (a n : Nat) (go : List Byte → State → State) (s : State) : Option State :=
  match loadWay e a n s with
  | .wait => none
  | .forward b => some (go b s)
  | .out => match (if n == 4 && a % 4 == 0 then fgNextAt e a s else none) with
    | some k => fgNextLoad e k (fun v => go (leBytes 4 v.toNat)) s
    | none => match readPieces e n (pieces a n) s with
      | (.error f, s) => some (failLoad e f s)
      | (.ok b, s) => some (go b s)

def doLoad (e : Eng) (op : EOp) (s : State) : Option State :=
  match op with
  | .load kind rt base am amf =>
    let x := s.engine e
    if 4 ≤ x.loads.length then none
    else
      let (ea, upd) := x.address base am amf
      let keep := base == rt || (kind == 6 && base == rt + 1)
      loadGo e (loadAddr kind ea) (loadSize kind) (fun b => issueLoad e base upd (loadWrites kind rt (loadTurn kind ea b)) keep) s
  | _ => none

/-- LOAD (R226 to R232, R238). -/
def execLoad (e : Eng) (s : State) : Res := issue e .load (doLoad e) s
/-- LWX (R233). -/
def execLwx (e : Eng) (s : State) : Res := issue e .lwx (doLoad e) s

/-- The load at pc, if the word there is one: its kind and the address it reads. -/
def loadAt (e : Eng) (s : State) : Option (Nat × Nat) :=
  match (fetchCurrent e s).1.bind decodeWord with
  | some (.load kind _ base am amf) => some (kind, loadAddr kind ((s.engine e).address base am amf).1)
  | _ => none

/-- FG_NEXT_READ (R187, R233, R314): the LW or LWX at pc, where it reads the FG_NEXT of the slot the engine holds. -/
def execFgNextRead (e : Eng) (s : State) : Res :=
  match loadAt e s with
  | some (kind, a) =>
    if kind != 4 && kind != 5 || (fgNextAt e a s).isNone then .next s
    else issue e (if kind == 5 then .lwx else .load) (doLoad e) s
  | none => .next s

/-- The oldest load returns: its registers are written, or BUSERR is taken (R230, R238, R265). -/
def loadReturn (e : Eng) (s : State) : State :=
  match (s.engine e).loads with
  | [] => s
  | l :: ls =>
    let s := s.setEngine e fun x => ({ x with loads := ls }).setRegs l.writes
    match l.err with
    | some a => raiseExc e { code := 5, eaddr := some a } s
    | none => s

/-- LOAD_RETURN. -/
def execLoadReturn (e : Eng) (s : State) : Res := act (s.coreLive e && !(s.engine e).loads.isEmpty) (loadReturn e) s

/-! ### Stores (R226 to R232, R241, R393) -/

/-- The DMA_CMD register an address is: course and channel. -/
def dmaCmdAt (e : Eng) (a : Nat) (s : State) : Option (Nat × Nat) :=
  let key := fun (n o : Nat) => match courseReg o with | some (.dma c 8) => some (n, c) | _ => none
  match regionOf (s.engine e).remap a with
  | .courseWin o => key e.course o
  | .regWin b =>
    if inRange b 0x1000000 0x2000000 then key ((b - 0x1000000) / 0x100000) (b % 0x100000)
    else if inRange b 0x900000 0x904000 && b % 0x40 == 8 then some ((b - 0x900000) / 0x400, b % 0x400 / 0x40) else none
  | _ => none

/-- The word a store writes to a register: nothing but an aligned word reaches one (R232). -/
def storeWord (a : Nat) (bs : List Byte) : Option Nat := if bs.length == 4 && a % 4 == 0 then some (leNat bs) else none

/-- Is the store a write of go (R391, R393)? -/
def isGo (e : Eng) (a : Nat) (bs : List Byte) (s : State) : Option (Nat × Nat) :=
  (storeWord a bs).bind fun w => if w % 4 == 1 then dmaCmdAt e a s else none

/-- Is a store a write of FG_DONE.done by the slot's holder (R187)? -/
def isFgDone (e : Eng) (a : Nat) (bs : List Byte) (s : State) : Bool :=
  let key := fun (n o : Nat) => match courseReg o with
    | some (.gate sl 0x10) => s.slotEngine (gateKey n sl) == e
    | _ => false
  match storeWord a bs with
  | none => false
  | some w => w % 2 == 1 && (match regionOf (s.engine e).remap a with
    | .courseWin o => key e.course o
    | .regWin b => inRange b 0x1000000 0x2000000 && key ((b - 0x1000000) / 0x100000) (b % 0x100000)
    | _ => false)

/-- A store enters the buffer (R236, R241); a write of go is a privileged start (R286, R393), and one of FG_DONE.done stalls
for the program-level chords (R314; log 156). `done` completes the instruction. -/
def storeOp (e : Eng) (a : Nat) (bs : List Byte) (done : Engine → Engine) (s : State) : Option State :=
  let x := s.engine e
  let push := fun (x : Engine) =>
    done { (x.noteStore a bs) with stores := x.stores ++ [{ addr := a, bytes := bs, seq := x.storeSeq }], storeSeq := x.storeSeq + 1 }
  if 8 ≤ x.stores.length || x.vq.any (·.store) || (isFgDone e a bs s && x.chordsAt false) then none
  else match isGo e a bs s with
  | none => some (s.setEngine e push)
  | some (n, ch) =>
    if x.priv == 0 then excOr e privCause s
    else if n != e.course then some (s.setEngine e push)
    else if 4 ≤ x.starts.length then none
    else some (s.setEngine e fun x => push { x with starts := x.starts ++ [.dma ch x.pc] })

def doStore (e : Eng) (op : EOp) (s : State) : Option State :=
  match op with
  | .store kind rt base am amf =>
    let x := s.engine e
    let (ea, upd) := x.address base am amf
    let v := if kind == 3 then x.pair rt else (x.reg rt).toNat
    storeOp e ea.toNat (leBytes (2 ^ kind) v)
      (fun x => (match upd with | some u => x.results [(base, u)] | none => x).retire 0 none) s
  | _ => none

/-- STORE (R226 to R231, R241, R393). -/
def execStore (e : Eng) (s : State) : Res := issue e .store (doStore e) s

/-- Write the pieces of an access in turn: the address of the first that fails. A window takes no half of an access (R232). -/
def writePieces (e : Eng) (instr : W32) (bs : List Byte) : List (Nat × Nat) → Nat → State → Option W32 × State
  | [], _, s => (none, s)
  | (a, n) :: ps, i, s =>
    if n != bs.length && inWindow e a s then (some (w32 a), s)
    else match engWrite e a ((bs.drop i).take n) instr s with
    | (true, s) => writePieces e instr bs ps (i + n) s
    | (false, s) => (some (w32 a), s)

/-- The targets of the matrix, as far as they keep one engine's accesses in order (R382): LSP and boot ROM, the register
blocks, DRAM, the remote windows, each CSM. -/
def Region.target (course : Nat) : Region → Nat
  | .lsp _ | .rom _ => 0
  | .courseWin _ | .regWin _ => 1
  | .dram _ => 2
  | .remote _ _ => 3
  | .csm _ => 16 + course
  | .csmOf c _ => 16 + c
  | .unmapped => 4

def storeTargets (e : Eng) (x : Engine) (st : StoreEnt) : List Nat :=
  (pieces st.addr st.bytes.length).map fun p => (regionOf x.remap p.1).target e.course

/-- The buffered store at a place, where its target may acknowledge it next: no older one goes to its target (R241, R382). -/
def storeReady (e : Eng) (x : Engine) (i : Nat) : Option StoreEnt :=
  (x.stores[i]?).filter fun st => (x.stores.take i).all fun o => !(storeTargets e x o).any (storeTargets e x st).contains

/-- A buffered store reaches its target (R230, R232, R241): an error response queues BUSERR_ASYNC, and a refused go is no
start. -/
def storeAck (e : Eng) (i : Nat) (s : State) : State :=
  match storeReady e (s.engine e) i with
  | none => s
  | some st =>
    let go := isGo e st.addr st.bytes s
    let instr := match go with | some (_, ch) => ((startOf (eMaster e) ch s).map (·.2)).getD 0 | none => 0
    let s := s.setEngine e fun x => { x with stores := x.stores.eraseIdx i }
    let (r, s) := writePieces e instr st.bytes (pieces st.addr st.bytes.length) 0 s
    match r with
    | none => s
    | some a =>
      let s := match go with
        | some (_, ch) => s.setEngine e fun x => { x with starts := x.starts.erase (.dma ch instr) }
        | none => s
      pushAsync e (.buserr a) s

/-- STORE_ACK: of the buffered store at a place (R241, R382). -/
def execStoreAck (e : Eng) (index : Nat) (s : State) : Res := act (s.alive && Eng.ok e) (storeAck e index) s

/-- The buffered store that writes go of a channel, once its target may acknowledge it. -/
def goStore (e : Eng) (course ch : Nat) (s : State) : Option Nat :=
  (List.range (s.engine e).stores.length).find? fun i => match storeReady e (s.engine e) i with
    | some st => isGo e st.addr st.bytes s == some (course, ch)
    | none => false

/-- DMA_CMD_GO (R391, R393): an engine's is the store that wrote it, as it reaches the register. -/
def execDmaCmdGo (m : Master) (course ch : Nat) (s : State) : Res :=
  act (s.alive && course < 16 && ch < 16 && dmaMaster m course) (fun s => match m with
    | .engine n p => match goStore ⟨n, p⟩ course ch s with
      | some i => storeAck ⟨n, p⟩ i s
      | none => s
    | _ => dmaCmd (dmaKey course ch) 1 none s) s

/-! ### Atomics (R234) -/

def amoOp (op : Nat) (old v : W32) : W32 :=
  match op with | 0 => v | 1 => old + v | 2 => old &&& v | _ => old ||| v

def doAtomic (e : Eng) (op : EOp) (s : State) : Option State :=
  match op with
  | .amo f rt base src =>
    let x := s.engine e
    let a := (x.reg base).toNat
    let place : Option (MemRef × Nat) := match regionOf x.remap a with
      | .lsp o => some (.lsp e.course e.phys, o)
      | .csm o => if s.csmOk e.course then some (.csm e.course, o) else none
      | _ => none
    let berr : Cause := { code := 5, eaddr := some (x.reg base) }
    if a % 4 != 0 then excOr e { code := 4, eaddr := some (x.reg base) } s
    else if x.vq.any (·.store) || x.stores.any (·.meets a 4) then none
    else match place with
    | none => excOr e berr s
    | some (m, o) =>
      let (bs, s) := memLoad m o 4 s
      match allBytes bs with
      | none => excOr e berr s
      | some b =>
        let old := w32 (leNat b)
        let new := leBytes 4 (amoOp f old (x.reg src)).toNat
        let (ok, s) := memStore m o new s
        if ok then some (complete e [(rt, old)] 0 (s.setEngine e (Engine.noteStore a new))) else excOr e berr s
  | _ => none

/-- ATOMIC. -/
def execAtomic (e : Eng) (s : State) : Res := issue e .atomic (doAtomic e) s

/-! ### Paired words (R213, R214) -/

/-- A half that reads and writes registers alone. -/
def sopResult (sop : Nat) (d v : W32) (imm : Nat) : W32 :=
  let s5 := i32 (sgn 5 imm)
  match sop with
  | 1 => v
  | 2 => d + v
  | 3 => d - v
  | 4 => d &&& v
  | 5 => d ||| v
  | 6 => d ^^^ v
  | 7 => aluOp 6 d v
  | 8 => aluOp 7 d v
  | 9 => aluOp 8 d v
  | 10 => d + s5
  | 11 => aluOp 6 d (w32 imm)
  | 12 => aluOp 7 d (w32 imm)
  | 13 => aluOp 8 d (w32 imm)
  | 14 => w32 (bit (d == v))
  | 15 => w32 (bit (d.toInt < v.toInt))
  | 16 => w32 (bit (d.toNat < v.toNat))
  | 17 => 0 - v
  | 18 => ~~~ v
  | 19 => s5
  | 22 => aluOp 10 d v
  | _ => aluOp 11 d v

/-- What a half writes, memory halves and NOP nothing. -/
def halfWrites (x : Engine) (h : Nat) : List (Nat × W32) :=
  let sop := bitsAt h 10 5
  let rd := bitsAt h 5 5
  if sop == 0 || sop == 20 || sop == 21 then []
  else [(rd, sopResult sop (x.reg rd) (x.reg (bitsAt h 0 5)) (bitsAt h 0 5))]

def doPaired (e : Eng) (op : EOp) (s : State) : Option State :=
  match op with
  | .paired a b =>
    let x := s.engine e
    let ws := halfWrites x a ++ halfWrites x b
    match [a, b].find? sopMem with
    | none => some (complete e ws 0 s)
    | some h =>
      let rd := bitsAt h 5 5
      let rs := bitsAt h 0 5
      if bitsAt h 10 5 == 21 then storeOp e (x.reg rd).toNat (leBytes 4 (x.reg rs).toNat) (fun x => (x.results ws).retire 0 none) s
      else if 4 ≤ x.loads.length then none
      else
        loadGo e (x.reg rs).toNat 4 (fun b s => issueLoad e 0 none (loadWrites 4 rd b) true (s.setEngine e fun x => x.results ws)) s
  | _ => none

/-- PAIRED_WORD. -/
def execPairedWord (e : Eng) (s : State) : Res := issue e .pairedWord (doPaired e) s

/-! ### Branches, jumps, loops (R217 to R225) -/

/-- A branch completes and leaves its target to the end of its delay slot. -/
def branchTo (e : Eng) (ws : List (Nat × W32)) (target : W32) (taken : Bool) (s : State) : State :=
  s.setEngine e fun x =>
    let next := x.pc + 8
    { ((x.results ws).retire 0 none) with delay := some (if taken then target else next), taken := taken }

/-- `off` words from pc. -/
def wordsOff (x : Engine) (bits off : Nat) : W32 := x.pc + i32 (4 * sgn bits off)

def doBranch (e : Eng) (op : EOp) (s : State) : Option State :=
  let x := s.engine e
  match op with
  | .branch nz rs off => some (branchTo e [] (wordsOff x 20 off) ((x.reg rs == 0) != nz) s)
  | .jump link off => some (branchTo e (if link then [(31, x.pc + 8)] else []) (wordsOff x 25 off) true s)
  | .jalr rd rs1 imm => some (branchTo e [(rd, x.pc + 8)] ((x.reg rs1 + i32 (sgn 15 imm)) &&& 0xFFFFFFFC) true s)
  | _ => none

/-- BRANCH: BZ and BNZ. -/
def execBranch (e : Eng) (s : State) : Res := issue e .branch (doBranch e) s
/-- JUMP: J and JAL. -/
def execJump (e : Eng) (s : State) : Res := issue e .jump (doBranch e) s
/-- JALR. -/
def execJalr (e : Eng) (s : State) : Res := issue e .jalr (doBranch e) s

def doLoop (e : Eng) (op : EOp) (s : State) : Option State :=
  match op with
  | .loop lvl reg count end13 =>
    some (s.setEngine e fun x =>
      let n := if reg then x.reg count else w32 count
      let last := x.pc + w32 (4 * end13)
      let x := { x with lc := x.lc.set! lvl n, ls := x.ls.set! lvl (x.pc + 4), le := x.le.set! lvl last }
      let x := x.retire 0 none
      if n == 0 then { x with pc := last + 4 } else x)
  | _ => none

/-- LOOP (R220). -/
def execLoop (e : Eng) (s : State) : Res := issue e .loop (doLoop e) s

/-! ### System instructions (R206, R209, R216, R242, R285, R287) -/

def doMfc (e : Eng) (op : EOp) (s : State) : Option State :=
  let x := s.engine e
  match op with
  | .mfc rd n =>
    if !cregReadable x.priv n then excOr e privCause s
    else if n == 0x1E && !x.vq.isEmpty then none
    else some (complete e [(rd, readCreg e n s)] 0 s)
  | _ => none

/-- MFC (R206, R251, R302). -/
def execMfc (e : Eng) (s : State) : Res := issue e .mfc (doMfc e) s

def doMtc (e : Eng) (op : EOp) (s : State) : Option State :=
  let x := s.engine e
  match op with
  | .mtc rs n =>
    if !cregWritable x.priv n || (n == 0 && x.priv == 1 && bitsAt (x.reg rs).toNat 0 2 == 3) then excOr e privCause s
    else some (s.setEngine e fun x => x.retire 0 (some (n, x.reg rs)))
  | _ => none

/-- MTC (R206, R207, R209). -/
def execMtc (e : Eng) (s : State) : Res := issue e .mtc (doMtc e) s

def doTrap (e : Eng) (op : EOp) (s : State) : Option State :=
  match op with
  | .syscall i => excOr e { code := 7, sub := i, skip := true } s
  | .brk i => excOr e { code := 8, sub := i, skip := true } s
  | _ => none

/-- SYSCALL. -/
def execSyscall (e : Eng) (s : State) : Res := issue e .syscall (doTrap e) s
/-- BRK. -/
def execBrk (e : Eng) (s : State) : Res := issue e .brk (doTrap e) s

/-- Return from a handler (R285). -/
def Engine.rfe (x : Engine) : Engine :=
  let nmode := w32 (4 * bit x.nie + x.npriv)
  let y : Engine := { x with
    instret := x.instret + 1, priv := x.ppriv, ie := x.pie, exl := false, ds := false, shadow := false
    skip := false, esc := false, window := 0, pq := [], held := [], delay := none, taken := false }
  let y := y.land
  let again := if x.shadow then some (0, nmode) else none
  match x.ds, x.skip with
  | false, false => { y with pc := x.epc, mtc := again }
  | true, false => { y with pc := x.epc, delay := some x.ebt, taken := true, mtc := again }
  | false, true => (if x.shadow then (y.evalLoop x.epc).writeCreg 0 nmode else y.evalLoop x.epc)
  | true, true => { (if x.shadow then y.writeCreg 0 nmode else y) with pc := x.ebt }

def doRfe (e : Eng) (op : EOp) (s : State) : Option State :=
  let x := s.engine e
  match op with
  | .rfe =>
    if x.priv == 0 then excOr e privCause s
    else if x.chordsAt true then none
    else some (s.setEngine e Engine.rfe)
  | _ => none

/-- RFE (R216, R285, R313). -/
def execRfe (e : Eng) (s : State) : Res := issue e .rfe (doRfe e) s

/-- SYNC waits for the stores and the starts; an error that can be taken is taken before it retires, as it is before any
instruction (R242, R278, R287). -/
def doSync (e : Eng) (op : EOp) (s : State) : Option State :=
  let x := s.engine e
  match op with
  | .sync =>
    if x.stores.isEmpty && x.starts.isEmpty then some (complete e [] 0 s) else none
  | _ => none

/-- SYNC. -/
def execSync (e : Eng) (s : State) : Res := issue e .sync (doSync e) s

def doIflush (e : Eng) (op : EOp) (s : State) : Option State :=
  match op with
  | .iflush => some (s.setEngine e fun x => { (x.retire 0 none) with pq := [], held := [], fetchRemap := x.remap })
  | _ => none

/-- IFLUSH (R61, R235, R237). -/
def execIflush (e : Eng) (s : State) : Res := issue e .iflush (doIflush e) s

/-- WAIT ends once an enabled interrupt is pending, whatever MODE.ie is (R216, R281). -/
def doWait (e : Eng) (op : EOp) (s : State) : Option State :=
  let x := s.engine e
  match op with
  | .wait =>
    if x.irqPend &&& x.irqEn != 0 then some (complete e [] 0 s)
    else if x.waiting then none
    else some (s.setEngine e fun x => { x with waiting := true })
  | _ => none

/-- A WAIT that stalls has ended once an interrupt is pending: it is complete when that is taken (R284). -/
def endWait (e : Eng) (s : State) : State :=
  let x := s.engine e
  if x.waiting && x.irqPend &&& x.irqEn != 0 then complete e [] 0 s else s

/-- WAIT. -/
def execWait (e : Eng) (s : State) : Res := issue e .wait (doWait e) s

/-! ### Interrupts and asynchronous errors (R275 to R284) -/

/-- An instruction boundary at which a cause that is not precise may be taken. -/
def State.atBoundary (s : State) (e : Eng) : Bool :=
  let x := s.engine e
  s.coreLive e && x.loads.isEmpty && !x.exl && x.window == 0

/-- INTERRUPT_ENTRY (R274, R277 to R279, R284). -/
def execInterruptEntry (e : Eng) (s : State) : Res :=
  let x := s.engine e
  match irqTop x with
  | some n =>
    let t := endWait e s
    let y := t.engine e
    .next (if t.atBoundary e && y.irqDue && !y.asyncDue then
      enterCause e { code := 0x20 + n, sub := irqLevel x n } true t else s)
  | none => .next s

def asyncEntry (e : Eng) (s : State) : State :=
  match (s.engine e).asyncQ with
  | [] => s
  | q :: qs =>
    let s := s.setEngine e fun x => { x with asyncQ := qs }
    let c : Cause := match q with
      | .buserr a => { code := 6, eaddr := some a }
      | .startErr dma i => { code := 0x0A, sub := bit dma, eaddr := some i }
    if (s.engine e).esc then haltCore e s else enterCause e c false s

/-- ASYNC_ERROR_ENTRY (R278 to R280, R290). -/
def execAsyncErrorEntry (e : Eng) (s : State) : Res :=
  act (s.atBoundary e && !(s.engine e).asyncQ.isEmpty) (asyncEntry e) s

/-- A higher interrupt takes over an entry still under way: what the entry did is undone but for what it saved, and the
new cause's handler is found (R275). -/
def takeover (e : Eng) (n : Nat) (r : EntryRun) (s : State) : State :=
  let lvl := irqLevel (s.engine e) n
  let s := match r.stackAt with
    | none => s
    | some (a, bs) => match regionOf (s.engine e).remap a with
      | .lsp o => (memStore (.lsp e.course e.phys) o bs s).2
      | _ => s
  let s := s.setEngine e fun x =>
    { (x.setReg 30 r.oldG30) with
      priv := r.oldPriv, ie := r.oldIe, window := 0, entry := none
      stores := x.stores.map fun st => (r.stores.find? (·.seq == st.seq)).getD st }
  enterHandler e { code := 0x20 + n, sub := lvl } true r.age (max 12 (r.age + 9)) s

/-- INTERRUPT_TAKEOVER: in cycles 0 to 7 of an interrupt's entry (R275). -/
def execInterruptTakeover (e : Eng) (s : State) : Res :=
  let x := s.engine e
  match x.entry, irqTop x with
  | some r, some n => act (s.coreLive e && r.age ≤ 7 && (r.source.any fun k => irqBefore x n k)) (takeover e n r) s
  | _, _ => .next s

/-- HANDLER_WINDOW_EXPIRY (R281): the cycles left until the handler begins and of its window pass. -/
def execHandlerWindowExpiry (e : Eng) (s : State) : Res :=
  let x := s.engine e
  act (s.coreLive e && x.window != 0)
    (fun s => (s.advance (s.vtOfCycles (x.entryLeft + x.window))).setEngine e fun x => { x with window := 0 }) s

end Sys2Proof.Machine
end

