-- ==== Sys2Proof/Machine/Vector.lean ====
section
/-! DEFINITION. The short-vector unit's instructions (R291 to R310). An instruction takes its effect as it issues, in
program order; its flags and its g registers follow when it completes (R302, R309; log 29). -/
namespace Sys2Proof.Machine

/-- Issue into the 4-entry queue (R307): none stalls. VPOS is 0 for what follows (R305). -/
def vIssue (e : Eng) (run : VecRun) (f : Engine → Engine) (s : State) : Option State :=
  if 4 ≤ (s.engine e).vq.length then none
  else some (s.setEngine e fun x =>
    let x := (f { (x.supersede (run.writes.map (·.1))) with vpos := 0 }).retire 0 none
    { x with vq := x.vq ++ [{ run with seq := x.storeSeq }], storeSeq := if run.store then x.storeSeq + 1 else x.storeSeq })

/-! ### Length and shape (R296) -/

def doVc (e : Eng) (op : EOp) (s : State) : Option State :=
  let x := s.engine e
  match op with
  | .setvl rd rs1 =>
    let n := min (x.reg rs1).toNat (shapeOf x.vshape).vlmax
    some (complete e [(rd, w32 n)] 0 (s.setEngine e fun x => { x with vl := n }))
  | .shape imm => some (complete e [] 0 (s.setEngine e fun x => { x with vshape := w32 imm, vl := 0 }))
  | .shaper rs1 =>
    if 64 ≤ (x.reg rs1).toNat then excOr e illegalCause s
    else some (complete e [] 0 (s.setEngine e fun x => { x with vshape := x.reg rs1, vl := 0 }))
  | .vrds rd sel =>
    let v := match sel with | 0 => w32 x.vl | 1 => x.vshape | _ => w32 x.vpos
    vIssue e { flags := 0, writes := if rd == 0 then [] else [(rd, v)] } id s
  | .vwrs rs1 => vIssue e { flags := 0 } (fun x => { x with vpos := (x.reg rs1).toNat }) s
  | _ => none

/-- SETVL. -/
def execSetvl (e : Eng) (s : State) : Res := issue e .setvl (doVc e) s
/-- SHAPE. -/
def execShape (e : Eng) (s : State) : Res := issue e .shape (doVc e) s
/-- SHAPER. -/
def execShaper (e : Eng) (s : State) : Res := issue e .shaper (doVc e) s
/-- VRDS (R296, R309). -/
def execVrds (e : Eng) (s : State) : Res := issue e .vrds (doVc e) s
/-- VWRS (R296, R305). -/
def execVwrs (e : Eng) (s : State) : Res := issue e .vwrs (doVc e) s

/-! ### Arithmetic (R294 to R301) -/

def doVa (e : Eng) (op : EOp) (s : State) : Option State :=
  match op with
  | .va major vd v1 vs2 vm src func =>
    let x := s.engine e
    let sh := shapeOf x.vshape
    if vaIllegal sh major vd v1 vs2 vm src func then excOr e illegalCause s
    else
      let r := vaRun sh (fcsrRm x.fcsr) x.reg x.v x.vpos x.vl major vd v1 vs2 vm src func
      vIssue e { flags := r.flags, writes := r.writes.filter fun w => w.1 != 0 } (fun x => { x with v := r.v }) s
  | _ => none

/-- VECTOR_ARITH (R298, R301). -/
def execVectorArith (e : Eng) (s : State) : Res := issue e .vectorArith (doVa e) s
/-- VECTOR_COMPARE (R299). -/
def execVectorCompare (e : Eng) (s : State) : Res := issue e .vectorCompare (doVa e) s
/-- VECTOR_REDUCTION (R300). -/
def execVectorReduction (e : Eng) (s : State) : Res := issue e .vectorReduction (doVa e) s
/-- VECTOR_PERMUTE (R298). -/
def execVectorPermute (e : Eng) (s : State) : Res := issue e .vectorPermute (doVa e) s
/-- VGET_VPUT (R298, R309). -/
def execVgetVput (e : Eng) (s : State) : Res := issue e .vgetVput (doVa e) s

/-- The oldest vector instruction completes: its flags, its g registers (R302, R305, R309). -/
def vectorDone (e : Eng) (s : State) : State :=
  s.setEngine e fun x =>
    match x.vq with
    | [] => x
    | r :: rs => ({ x with vq := rs, fcsr := fcsrOr x.fcsr r.flags }).setRegs r.writes

/-- VECTOR_COMPLETE. A halted core's vector instructions run to their end too (R310). -/
def execVectorComplete (e : Eng) (s : State) : Res := act (s.alive && Eng.ok e && !(s.engine e).vq.isEmpty) (vectorDone e) s

/-! ### Memory (R303 to R306) -/

/-- Registers of an index group: VLMAX indices of 8 << eew bits. -/
def indexRegs (sh : Shape) (eew : Nat) : Nat := max 1 (sh.vlmax * 8 * 2 ^ eew / 512)

def vmIllegal (sh : Shape) (store : Bool) (vd vs2 : Nat) (vm : Bool) (mode eew : Nat) : Bool :=
  let n := indexRegs sh eew
  vd % sh.grp != 0 ||
  (mode == 2 && (vs2 % n != 0 || (!store && 8 * 2 ^ eew != sh.sew && overlap vd sh.grp vs2 n))) ||
  (mode == 3 && !vm) || (!vm && !store && vd == 0)

/-- Address of element i (R303). -/
def elemAddr (x : Engine) (sh : Shape) (rs1 r2 mode eew i : Nat) : W32 :=
  let base := x.reg rs1
  match mode with
  | 0 => base + w32 (i * (sh.sew / 8))
  | 1 => base + w32 i * x.reg r2
  | _ => base + w32 (velem x.v r2 (8 * 2 ^ eew) i)

/-- May a vector access reach an address (R304)? -/
def vecRegion (x : Engine) (store : Bool) (a : Nat) : Bool :=
  match regionOf x.remap a with
  | .lsp _ | .csm _ => true
  | .rom _ => !store
  | _ => false

/-- The check of one element: none passes, else the sub code. -/
def elemCheck (x : Engine) (sh : Shape) (store : Bool) (a : Nat) : Option Nat :=
  if !vecRegion x store a then some 1 else if a % (sh.sew / 8) != 0 then some 2 else none

/-- The check of a whole-group access (R304). -/
def wholeCheck (x : Engine) (sh : Shape) (store : Bool) (a : Nat) : Option Nat :=
  if !(List.range sh.grp).all fun k => a + 64 * k < 2 ^ 32 && vecRegion x store (a + 64 * k) then some 1
  else if a % 64 != 0 then some 2 else none

/-- What a vector load takes from memory: a byte of an uncorrectable codeword is 0 (R370). -/
def vecRead (e : Eng) (a n : Nat) (s : State) : Nat × State :=
  match engRead e a n s with
  | (.bytes l, s) => (leNat (l.map (·.getD 0)), s)
  | (.err, s) => (0, s)

/-- Move one unit of `w` bits between a register group and memory. -/
def vecMove (e : Eng) (store : Bool) (vd w i a : Nat) (s : State) : State :=
  if store then
    let bs := leBytes (w / 8) (velem (s.engine e).v vd w i)
    (engWrite e a bs 0 s).2.setEngine e (Engine.noteStore a bs)
  else
    let (v, s) := vecRead e a (w / 8) s
    s.setEngine e fun x => { x with v := vput x.v vd w i v }

/-- An element's failure: those below it are complete; VPOS and EADDR name it (R304). -/
def vecFault (e : Eng) (sub vpos : Nat) (a : W32) (s : State) : Option State :=
  excOr e { code := 0x0B, sub := sub, eaddr := some a } (s.setEngine e fun x => { x with vpos := vpos })

/-- A buffered store to LSP or CSM holds a vector access back (R306). -/
def vecWaits (x : Engine) : Bool :=
  x.stores.any fun st => match regionOf x.remap st.addr with | .lsp _ | .csm _ => true | _ => false

def doVmem (e : Eng) (op : EOp) (s : State) : Option State :=
  match op with
  | .vmem store vd rs1 r2 vm mode eew =>
    let x := s.engine e
    let sh := shapeOf x.vshape
    let waits := vecWaits x
    if vmIllegal sh store vd r2 vm mode eew then excOr e illegalCause s
    else if waits || 4 ≤ x.vq.length then none
    else if mode == 3 then
      match wholeCheck x sh store (x.reg rs1).toNat with
      | some c => vecFault e c 0 (x.reg rs1) s
      | none =>
        let s := (List.range (8 * sh.grp)).foldl (fun s k => vecMove e store vd 64 k ((x.reg rs1).toNat + 8 * k) s) s
        vIssue e { flags := 0, store := store } id s
    else
      let els := ((List.range x.vl).drop x.vpos).filter fun i => vm || vmask x.v 0 i
      let at' := fun i => (elemAddr x sh rs1 r2 mode eew i)
      let bad := els.find? fun i => (elemCheck x sh store (at' i).toNat).isSome
      let good := match bad with | some b => els.filter (· < b) | none => els
      let s := good.foldl (fun s i => vecMove e store vd sh.sew i (at' i).toNat s) s
      match bad with
      | some b => vecFault e ((elemCheck x sh store (at' b).toNat).getD 1) b (at' b) s
      | none => vIssue e { flags := 0, store := store } id s
  | _ => none

/-- VECTOR_LOAD (R303 to R306, R370). -/
def execVectorLoad (e : Eng) (s : State) : Res := issue e .vectorLoad (doVmem e) s
/-- VECTOR_STORE (R303 to R306). -/
def execVectorStore (e : Eng) (s : State) : Res := issue e .vectorStore (doVmem e) s

end Sys2Proof.Machine
end

