-- ==== Sys2Proof/Machine/Stream.lean ====
section
/-! DEFINITION. The stream unit: starts, checks, chords, stops and returns (R311 to R340, R348, R352 to R358). A chord's
elements are committed in order, all that are left when it completes (log 30). -/
namespace Sys2Proof.Machine

/-! ### Chords of an engine -/

def State.modSu (s : State) (e : Eng) (f : StreamUnit → StreamUnit) : State := s.setEngine e fun x => { x with su := f x.su }

def State.modChord (s : State) (e : Eng) (t : Nat) (f : Chord → Chord) : State :=
  s.modSu e fun u => { u with chords := u.chords.map fun c => if c.ticket == t then f c else c }

def StreamUnit.count (u : StreamUnit) (handler : Bool) : Nat := (u.chords.filter fun c => c.handler == handler).length

/-- The chord that holds the sequencer: running, or on its way to a stop. -/
def isActive (c : Chord) : Bool := c.state == .running || c.state == .stopping
def StreamUnit.active (u : StreamUnit) : Option Chord := u.chords.find? isActive

/-! ### Descriptors and start checks (R316, R320, R348, R352, R356) -/

/-- Read the descriptors of a chord: those in LSP, whether all of them are, and whether each could be read (R370). -/
def readDescs (e : Eng) : Nat → Nat → State → (List (List Byte) × Bool × Bool) × State
  | 0, _, s => (([], true, true), s)
  | n + 1, a, s =>
    match regionOf (s.engine e).remap a with
    | .lsp o =>
      let (bs, s) := memLoad (.lsp e.course e.phys) o 64 s
      match allBytes bs with
      | none => (([], true, false), s)
      | some b =>
        if (parseDesc b).link then
          let ((l, i, ok), s) := readDescs e n (a + 64) s
          ((b :: l, i, ok), s)
        else (([b], true, true), s)
    | _ => (([], false, true), s)

/-- Check the chord whose first descriptor is at `a`, in a mode: the sub code and the failing descriptor's address, or its
descriptors, none where one could not be read: the chord will end with MEDIA. -/
def startCheck (e : Eng) (a : Nat) (restart : Bool) (s : State) : Except (Nat × W32) (List (List Byte)) × State :=
  let remap := (s.engine e).remap
  if a % 64 != 0 then (.error (1, w32 a), s)
  else
    let ((l, inLsp, ok), s) := readDescs e 4 a s
    if !ok then (.ok [], s)
    else match checkChord remap restart true inLsp (l.map parseDesc) with
      | some (c, k) => (.error (c, w32 (a + 64 * k)), s)
      | none => (.ok l, s)

/-- A chord as a check in a mode leaves it (R356). -/
def Chord.check (c : Chord) (l : List (List Byte)) (restart : Bool) : Chord :=
  { c with descs := l, checked := true, restart := restart, staged := restart && chordInPlace (l.map parseDesc) }

/-- A chord as its first check leaves it: the mode in force and the current bank are its own from then on (R348, R352). -/
def checkedChord (l : List (List Byte)) (s : State) (e : Eng) (c : Chord) : Chord :=
  { c.check l s.restartMode with bank := (s.engine e).su.bank }

/-- Queue a chord and give it its ticket; a handler-level start stops a running program-level chord (R312, R313). -/
def queueChord (e : Eng) (c : Chord) (s : State) : State :=
  s.modSu e fun u => { u with
    next := (u.next + 1) % 256
    chords := (if c.handler then u.chords.map fun d => if isActive d && !d.handler then { d with state := .stopping } else d
      else u.chords) ++ [c] }

/-- Stores before a place in program order are still under way (R312, R314). -/
def Engine.storesOut (x : Engine) (after : Nat) : Bool :=
  x.stores.any (·.seq < after) || x.vq.any fun v => v.store && v.seq < after

def doStart (e : Eng) (op : EOp) (s : State) : Option State :=
  let x := s.engine e
  let new := fun (a : Nat) => ({ ticket := x.su.next, instr := x.pc, addr := a, handler := x.exl, after := x.storeSeq, checked := false,
                                 restart := false, bank := 0 } : Chord)
  match op with
  | .sstart rd rs1 =>
    if !s.ready Rdy.ucode || x.storesOut x.storeSeq || 4 ≤ x.su.count x.exl then none
    else
      let a := (x.reg rs1).toNat
      match startCheck e a s.restartMode s with
      | (.error (c, f), s) => excOr e { code := 0x0C, sub := c, eaddr := some f } s
      | (.ok l, s) => some (complete e [(rd, w32 x.su.next)] 0 (queueChord e (checkedChord l s e (new a)) s))
  | .sstarta rd rs1 =>
    if x.priv == 0 then excOr e privCause s
    else if !s.ready Rdy.ucode || 4 ≤ x.su.count x.exl || 4 ≤ x.starts.length then none
    else
      let s := queueChord e (new (x.reg rs1).toNat) s
      let s := s.setEngine e fun y => { y with starts := y.starts ++ [.stream x.su.next x.pc] }
      some (complete e [(rd, w32 x.su.next)] 0 s)
  | _ => none

/-- SSTART (R312, R313, R320). -/
def execSstart (e : Eng) (s : State) : Res := issue e .sstart (doStart e) s
/-- SSTARTA (R286, R312, R313). -/
def execSstarta (e : Eng) (s : State) : Res := issue e .sstarta (doStart e) s

def State.dropChord (s : State) (e : Eng) (t : Nat) : State :=
  s.modSu e fun u => { u with chords := u.chords.filter fun c => c.ticket != t }

/-- The half of a chord's level in the stage buffer is free, where the chord held it (R351, R356). -/
def freeStage (staged handler : Bool) (u : StreamUnit) : StreamUnit :=
  if !staged then u
  else if handler then { u with stageH := [], stageInUse := putBit u.stageInUse 1 false }
  else { u with stageP := [], stageInUse := putBit u.stageInUse 0 false }

/-- A late failure of a start (R286, R320). -/
def startError (e : Eng) (t sub : Nat) (instr : W32) (s : State) : State :=
  let s := (s.dropChord e t).modSu e fun u => { u with startErr := w32 (256 * t + sub) }
  pushAsync e (.startErr false instr) s

/-- The check of an unchecked chord ends. -/
def lateCheck (e : Eng) (t : Nat) (instr : W32) (s : State) : State :=
  let s := s.setEngine e fun x => { x with starts := x.starts.erase (.stream t instr) }
  match (s.engine e).su.chords.find? (·.ticket == t) with
  | none => s
  | some c => match startCheck e c.addr s.restartMode s with
    | (.error (k, _), s) => startError e t k instr s
    | (.ok l, s) => s.modChord e t (checkedChord l s e)

/-- Can the check of a start end now: its stores have gone out, its channel runs? -/
def checkable (e : Eng) (s : State) (p : PrivStart) : Bool :=
  match p with
  | .stream t _ => match (s.engine e).su.chords.find? (·.ticket == t) with
    | some c => !(s.engine e).storesOut c.after
    | none => true
  | .dma ch i =>
    let c := s.dmaCh (dmaKey e.course ch)
    c.starter == some (e, i) && dmaRunning c && c.desc.isNone

def startCheckDone (e : Eng) (s : State) : State :=
  match (s.engine e).starts.find? (checkable e s) with
  | some (.stream t i) => lateCheck e t i s
  | some (.dma ch _) => dmaCheck (dmaKey e.course ch) s
  | none => s

/-- START_CHECK_COMPLETE (R286, R320, R392, R393). -/
def execStartCheckComplete (e : Eng) (s : State) : Res := act (s.alive && Eng.ok e) (startCheckDone e) s

/-! ### What a chord reads and writes -/

/-- The read of one lane item; its failure carries the address in units of 16 (log 30). -/
def chordRead (e : Eng) (c : Chord) (s : State) (a n : Nat) : Except Nat (List Byte) :=
  match (engRead e a n s).1 with
  | .err => .error (3 + 16 * (a + 1))
  | .bytes l => match allBytes l with
    | none => .error (4 + 16 * (a + 1))
    | some b => .ok (b.zipIdx.map fun p => tabGet c.undo (a + p.2) p.1)

def chordCtx (e : Eng) (c : Chord) (s : State) : StreamCtx :=
  { rd := chordRead e c s, remap := (s.engine e).remap }

/-- The run of a chord as its sources stand: a chord whose descriptors could not be read ends with MEDIA. -/
def chordRun (e : Eng) (c : Chord) (s : State) : ChordRun :=
  if c.descs.isEmpty then { code := 4 } else runChord (chordCtx e c s) (c.descs.map parseDesc)

def runCode (r : ChordRun) : Nat := r.code % 16

/-- The memory effects of the reads: corrected codewords a source lane meets, then the failing read itself (R369, R370,
R385). -/
def touchSpan (e : Eng) (x : Nat × Int × Nat × Nat) (s : State) : State :=
  let meets := fun (lo hi : Nat) => (List.range x.2.2.2).any fun i =>
    let a := (x.1 : Int) + x.2.1 * i
    a < (hi : Int) && (lo : Int) < a + x.2.2.1
  match engMem e (regionOf (s.engine e).remap x.1) 1 s with
  | none => s
  | some (m, o) =>
    let key := (cwOf m o).key
    (s.ecc key).bad.foldl (fun s b =>
      let k := instK key
      let start := if inRange key 224 228 then none else some (b.1 * k)
      match start with
      | some st =>
        if o ≤ st + k && meets (x.1 + st - o) (x.1 + st + k - o) then (memLoad m st 1 s).2 else s
      | none => s) s

/-- A span from its element `i` on. -/
def spanFrom (i : Nat) (x : Nat × Int × Nat × Nat) : Nat × Int × Nat × Nat :=
  (((x.1 : Int) + x.2.1 * min i x.2.2.2).toNat, x.2.1, x.2.2.1, x.2.2.2 - i)

/-- What a chord reads from its committed element on: a table and a packed lane whole. -/
def spansFrom (i : Nat) (d : Desc) : List (Nat × Int × Nat × Nat) :=
  let whole := inRange d.op 0x30 0x34 || packsS0 d
  (laneSpans d.s0 (srcCount d 0) (packsS0 d) ++ laneSpans d.s2 d.len false).map (if packsS0 d || d.op == 0x30 then id else spanFrom i) ++
    (laneSpans d.s1 (srcCount d 1) false).map (if whole then id else spanFrom i)

def touchSources (e : Eng) (c : Chord) (r : ChordRun) (s : State) : State :=
  let s := ((c.descs.map parseDesc).flatMap (spansFrom c.index)).foldl (fun s x => touchSpan e x s) s
  if 16 ≤ r.code then (engRead e (r.code / 16 - 1) 1 s).2 else s

def stageOf (u : StreamUnit) (handler : Bool) : Tab Byte := if handler then u.stageH else u.stageP
def setStage (handler : Bool) (t : Tab Byte) (u : StreamUnit) : StreamUnit :=
  if handler then { u with stageH := t } else { u with stageP := t }

def tabSetList (t : Tab Byte) (a : Nat) (bs : List Byte) : Tab Byte := bs.zipIdx.foldl (fun t p => tabSet t (a + p.2) p.1) t

/-- Write one run of bytes of an item: to the stage buffer where the chord is staged, else to memory, keeping what
stood there; false is an error response. -/
def chordWrite (e : Eng) (c : Chord) (w : LaneWrite) (s : State) : Bool × State :=
  if w.bytes.isEmpty then (true, s)
  else if c.staged then (true, s.modSu e fun u => setStage c.handler (tabSetList (stageOf u c.handler) w.addr w.bytes) u)
  else
    let old : List Byte := match (engRead e w.addr w.bytes.length s).1 with | .bytes l => l.map (·.getD 0) | .err => []
    let (ok, s) := engWrite e w.addr w.bytes 0 s
    let keep := fun (t : Tab Byte) => old.zipIdx.foldl (fun (t : Tab Byte) (p : Byte × Nat) =>
      if (tabFind t (w.addr + p.2)).isSome then t else tabSet t (w.addr + p.2) p.1) t
    (ok, s.modChord e c.ticket fun c => { c with undo := keep c.undo })

/-- Write an item's runs; false at an error response, which leaves the whole item as it stood (R334). -/
def writeElFrom (e : Eng) (c : Chord) (s0 : State) : List LaneWrite → State → Bool × State
  | [], s => (true, s)
  | w :: ws, s =>
    match chordWrite e c w s with
    | (true, s) => writeElFrom e c s0 ws s
    | (false, _) => (false, (chordWrite e c w s0).2)

def writeEl (e : Eng) (c : Chord) (ws : List LaneWrite) (s : State) : Bool × State := writeElFrom e c s ws s

/-- Write items in order: how many were written. -/
def writeEls (e : Eng) (c : Chord) : List (List LaneWrite) → Nat → State → Nat × Bool × State
  | [], n, s => (n, true, s)
  | w :: ws, n, s =>
    match writeEl e c w s with
    | (true, s) => writeEls e c ws (n + 1) s
    | (false, s) => (n, false, s)

/-- Index, flags, counts and bytes with the first `k` elements committed. -/
def chordTally (r : ChordRun) (k : Nat) (c : Chord) : Chord :=
  let els := r.els.take k
  let count := fun b => min 65535 ((els.filter fun x => bitsAt x.fl b 1 == 1).length)
  { c with index := k, flags := fpOf els ||| r.side, noprior := count 0, nopost := count 1
           bytes := match r.items k with | 0 => 0 | n + 1 => (r.bytesAt[n]?).getD 0 }

/-- Commit elements up to `k` of a run; the answer is the status of a write that failed. -/
def commitTo (e : Eng) (c : Chord) (r : ChordRun) (k : Nat) (s : State) : Option Nat × State :=
  let have' := r.items c.index
  let (n, ok, s) := writeEls e c ((r.writes.take (r.items k)).drop have') 0 s
  (if ok then none else some 3,
    s.modChord e c.ticket (chordTally r (if ok then min k r.index else r.unit * (have' + n))))

/-- Copy the level's stage buffer to the destination lanes (R356, R357). -/
def drainStage (e : Eng) (c : Chord) (s : State) : Bool × State :=
  (stageOf (s.engine e).su c.handler).foldl (fun (acc : Bool × State) p =>
    let (ok, s) := engWrite e p.1 [p.2] 0 acc.2
    (acc.1 && ok, s)) (true, s)

/-! ### Completion (R314, R334 to R336) -/

def statusWord (code opx index : Nat) : W32 := w32 (2 ^ 28 * code + 2 ^ 26 * opx + index % 2 ^ 24)

/-- Does the first descriptor of a chord ask for SU_DONE (R335)? It is read where the chord has not been checked or not whole:
none that cannot be read asks. -/
def firstIrq (e : Eng) (c : Chord) (s : State) : Bool :=
  match c.descs.head? with
  | some d => (parseDesc d).irq
  | none => match regionOf (s.engine e).remap c.addr with
    | .lsp o => match allBytes (memLoad (.lsp e.course e.phys) o 64 s).1 with
      | some b => (parseDesc b).irq
      | none => false
    | _ => false

/-- A chord has its status: the items of SSTAT, SU_DONE, and its threads end. -/
def chordDone (e : Eng) (c : Chord) (code opx : Nat) (s : State) : State :=
  let w := statusWord code opx c.index
  let active := isActive c
  let irq := firstIrq e c s
  let s := s.modSu e fun u => { u with
    chords := u.chords.filter fun d => d.ticket != c.ticket
    doneSt := ((c.ticket, w) :: u.doneSt.filter fun p => p.1 != c.ticket).take 16
    lastStatus := w, lastTicket := c.ticket, lastFlags := c.flags
    lastCounts := w32 (65536 * c.nopost + c.noprior)
    lastBytes := if (c.descs.map parseDesc).any fun d => d.op == 0x21 || d.op == 0x22 then w32 c.bytes else u.lastBytes
    threads := if active then Vector.replicate 4 {} else u.threads }
  let s := s.modSu e (freeStage c.staged c.handler)
  if irq then s.setEngine e (irqEdge 1) else s

/-- The status END words have given an operation that failed: its code and number (R344). -/
def endedBad (u : StreamUnit) : Option (Nat × Nat) :=
  (List.range 4).findSome? fun t => match (threadOf u t).ended with
    | some code => if code != 0 then some (code, t) else none
    | none => none

/-- The active chord runs to its end: what is left is committed, a staged chord is drained, and its status is set. -/
def chordFinish (e : Eng) (s : State) : State :=
  match (s.engine e).su.active with
  | none => s
  | some c =>
    let now := fun (s : State) => ((s.engine e).su.chords.find? (·.ticket == c.ticket)).getD c
    match endedBad (s.engine e).su with
    | some (code, t) => chordDone e c code t s
    | none =>
      let r := chordRun e c s
      let s := touchSources e c r s
      let (bad, s) := if c.committed then (none, s) else commitTo e c r r.index s
      let (ok, s) := if c.staged then drainStage e c s else (true, s)
      match (if ok then bad else some 3) with
      | some code => chordDone e (now s) code (c.descs.length - 1) s
      | none => chordDone e (now s) (runCode r) (if runCode r == 0 then 0 else r.opx) s

/-- CHORD_COMPLETE. -/
def execChordComplete (e : Eng) (s : State) : Res :=
  act (s.alive && Eng.ok e && (match (s.engine e).su.active with | some c => !c.cancel | none => false)) (chordFinish e) s

/-! ### Dispatch (R341, R342, R346 to R348) -/

def bankOf (u : StreamUnit) (b : Nat) : Option PatchBody := if b == 0 then u.banks[0] else u.banks[1]

/-- The entry microaddress of an op (R347). A ROM entry lies in the ROM (log 31). -/
def dispatchOf (p : Option PatchBody) (op : Nat) : Nat :=
  let rom := (Config.seqDispatch op).toNat % 0x4000
  match p with
  | some b =>
    let w := ((b.dispatch[op]?).getD 0).toNat
    if 2 ^ 31 ≤ w then w % 65536 else rom
  | none => rom

/-- Thread t begins the chord's operation t; a thread without one is idle. -/
def dispatchThread (u : StreamUnit) (c : Chord) (t : Nat) : UThread :=
  match (c.descs.map parseDesc)[t]? with
  | some d => { active := true, upc := dispatchOf (bankOf u c.bank) d.op }
  | none => {}

/-- A chord takes the sequencer. -/
def beginChord (e : Eng) (c : Chord) (s : State) : State :=
  let s := s.modSu e fun u => { u with
    threads := Vector.ofFn fun (t : Fin 4) => dispatchThread u c t, uaccBy := 0
    stageInUse := if c.staged then putBit u.stageInUse (if c.handler then 1 else 0) true else u.stageInUse }
  s.modChord e c.ticket fun c => { c with state := .running, trap := none }

/-- The stream unit works: the engine is not halted, and its core runs (R338). -/
def State.suLive (s : State) (e : Eng) : Bool :=
  let x := s.engine e
  s.alive && Eng.ok e && (x.st == .run || x.st == .shadow)

/-- The next chord to start: handler level first; program level only behind no stopped one (R313). -/
def nextChord (u : StreamUnit) : Option Chord :=
  if u.active.isSome then none
  else if u.chords.any (·.handler) then u.chords.find? (·.handler)
  else u.chords.head?

def chordStart (e : Eng) (s : State) : State :=
  match nextChord (s.engine e).su with
  | some c => beginChord e c s
  | none => s

/-- CHORD_START (R313, R314, R332, R341). -/
def execChordStart (e : Eng) (s : State) : Res :=
  let x := s.engine e
  act (s.suLive e && (match nextChord x.su with | some c => c.checked && c.state == .queued && !x.storesOut c.after | none => false))
    (chordStart e) s

/-! ### The context slot (R353, R354) -/

def slotAddr : Nat := 0x3FF00

def threadBytes (t : UThread) : List Byte :=
  leBytes 2 t.upc ++ leBytes 1 (bit t.active) ++ [0] ++ (t.ucnt.toList.flatMap fun w => leBytes 4 w.toNat) ++
    (t.ucur.toList.flatMap fun w => leBytes 4 w.toNat) ++ leBytes 4 t.uidx.toNat

/-- The 256 bytes of the slot for a stopped chord. -/
def slotBytes (u : StreamUnit) (c : Chord) (tag : Nat) : List Byte :=
  let o := u.uaccBy
  let body := leBytes 1 tag ++ leBytes 1 c.ticket ++ leBytes 1 c.bank ++ [0] ++ leBytes 2 (patchLevelOf (bankOf u c.bank)) ++
    [0, 0] ++ leBytes 4 c.addr ++ leBytes 4 (c.index % 2 ^ 24) ++
    ((List.range 4).flatMap fun t => threadBytes (threadOf u t)) ++
    ((threadOf u o).uacc.toList.flatMap fun w => leBytes 8 w.toNat) ++
    leBytes 4 (o + 4 * (c.flags % 64)) ++ leBytes 2 c.noprior ++ leBytes 2 c.nopost ++ leBytes 4 c.bytes ++
    List.replicate 32 0
  body ++ leBytes 4 (crc32c body).toNat

def writeLsp (e : Eng) (a : Nat) (bs : List Byte) (s : State) : State := (memStore (.lsp e.course e.phys) a bs s).2

def slotTag (e : Eng) (s : State) : Nat := (memRead (s.engine e).lsp slotAddr).toNat

/-- A thread as the slot holds it: one that has an operation and is not active has ended it, and what it had committed it
had worked on (R353, R354). -/
def threadFrom (b : List Byte) (present : Bool) (t : Nat) : UThread :=
  let f := fun i n => leNat ((b.drop (0x10 + 0x20 * t + i)).take n)
  let g := fun i n => leNat ((b.drop i).take n)
  { active := f 2 1 % 2 == 1, upc := f 0 2, execd := f 0x1C 4
    ended := if present && f 2 1 % 2 == 0 then some 0 else none
    ucnt := Vector.ofFn fun (k : Fin 4) => w32 (f (4 + 4 * k.val) 4)
    ucur := Vector.ofFn fun (k : Fin 2) => w32 (f (0x14 + 4 * k.val) 4)
    uidx := w32 (f 0x1C 4)
    uacc := if g 0xD0 1 % 4 == t then Vector.ofFn fun (k : Fin 8) => w64 (g (0x90 + 8 * k.val) 8) else Vector.replicate 8 0 }

/-! ### Stops (R313, R337, R340, R353 to R358) -/

/-- The element at which the stop is taken: where the last operation's words have come to a trap point, the committed one;
else the routine's trap points are not in the spec, and it is open between the committed one and the last (R353; log 30). -/
def stopIndex (c : Chord) (r : ChordRun) (s : State) : Nat × State :=
  if c.trap == some true || r.index ≤ c.index then (c.index, s)
  else
    let (x, s) := s.draw
    (c.index + x.toNat % (r.index - c.index + 1), s)

/-- The source cursors of an operation with `k` elements committed: S1's position for TBRACKET, both positions for TMERGE
(R342); an operation whose cursors the spec does not name keeps them. -/
def cursorsAt (d : Desc) (out : List OutEl) (k : Nat) (x : UThread) : UThread :=
  if d.op == 0x31 then
    { x with ucur := x.ucur.set! 0 (w32 (bitsAt (match (out.take k).getLast? with | some e => e.val | none => 0) 0 30)) }
  else if d.op == 0x30 then
    let from1 := ((out.take k).filter fun e => bitsAt e.fl 2 1 == 1).length
    { x with ucur := (x.ucur.set! 0 (w32 (k - from1))).set! 1 (w32 from1) }
  else x

/-- Before a stop every thread finishes what is in the chain buffers: all describe the same committed element (R353). The
words themselves have moved the cursors where they came to the trap point. -/
def alignThreads (c : Chord) (r : ChordRun) (k : Nat) (u : StreamUnit) : StreamUnit :=
  { u with threads := Vector.ofFn fun (t : Fin 4) =>
      let x := threadOf u t
      match (c.descs.map parseDesc)[t.val]? with
      | some d =>
        let n := min k (produces d)
        let x : UThread := if c.trap == some true then x else cursorsAt d ((r.outs[t.val]?).getD []) n x
        { x with uidx := w32 n, execd := n }
      | none => x }

/-- The active chord stops: it is saved, abandoned or cancelled. -/
def chordStop (e : Eng) (s : State) : State :=
  match (s.engine e).su.active with
  | none => s
  | some c =>
    let now := fun (s : State) => ((s.engine e).su.chords.find? (·.ticket == c.ticket)).getD c
    let halted := (s.engine e).st == .halt
    let r := chordRun e c s
    let (k, s) := stopIndex c r s
    let s := if c.committed then s else (commitTo e c r k (touchSources e c { r with code := 0 } s)).2
    let s := s.modSu e (alignThreads c r (now s).index)
    if c.cancel then
      let d := now s
      chordDone e (if c.restart then { d with index := 0 } else d) 1 0 s
    else
      let s := s.modSu e fun u => { u with traps := if c.restart then u.traps else satAdd 16 u.traps 1 }
      let s := if c.restart then
          let s := s.modSu e fun u => { u with restarts := satAdd 16 u.restarts 1 }
          let s := s.modSu e (freeStage (c.staged && !c.committed) c.handler)
          s.modChord e c.ticket fun c => if c.committed then { c with state := .abandoned }
            else { c with state := .abandoned, index := 0, flags := 0, noprior := 0, nopost := 0, bytes := 0, undo := [] }
        else
          let tag := if halted then 2 else 1
          let s := if halted && slotTag e s != 0 then s else writeLsp e slotAddr (slotBytes (s.engine e).su (now s) tag) s
          s.modChord e c.ticket fun c => { c with state := .stopped }
      s.modSu e fun u => { u with threads := Vector.replicate 4 {} }

/-- CHORD_STOP: a stop is pending and its words stand at a trap point, or the core has halted (R290, R353). -/
def execChordStop (e : Eng) (s : State) : Res :=
  let x := s.engine e
  act (s.alive && Eng.ok e &&
    (match x.su.active with | some c => (c.state == .stopping && c.trap != some false) || x.st == .halt | none => false))
    (chordStop e) s

/-- The chord that waits to continue, once no handler-level chord is outstanding (R313, R354). -/
def StreamUnit.waiting (u : StreamUnit) (st : ChordState) : Option Chord :=
  if u.active.isSome || u.chords.any (·.handler) then none else u.chords.find? fun c => c.state == st

/-- A chord stopped in trap mode continues from the slot (R354). -/
def chordResume (e : Eng) (s : State) : State :=
  match (s.engine e).su.waiting .stopped with
  | none => s
  | some c =>
    let (bs, s) := memLoad (.lsp e.course e.phys) slotAddr 256 s
    let b := bs.map (·.getD 0)
    let whole := (allBytes bs).isSome
    let good := whole && leNat (b.take 1) == 1 && crc32c (b.take 252) == w32 (leNat (b.drop 252))
    if good then
      let s := writeLsp e slotAddr [0] s
      let s := s.modSu e fun u => { u with
        threads := Vector.ofFn fun (t : Fin 4) => threadFrom b (t.val < c.descs.length) t, uaccBy := leNat ((b.drop 0xD0).take 1) % 4 }
      s.modChord e c.ticket fun c => { c with state := .running, trap := none, index := leNat ((b.drop 0x0C).take 3) }
    else
      raiseFault (Src.seqCtxBad e.course) 0 (unitEng e.course e.phys) (chordDone e c 4 0 s)

/-- CHORD_RESUME. -/
def execChordResume (e : Eng) (s : State) : Res :=
  act (s.suLive e && ((s.engine e).su.waiting .stopped).isSome) (chordResume e) s

/-- A chord abandoned in restart mode is checked and begun again, in its own mode and with its own bank; past its commit point
it begins at its drain (R348, R352, R355, R357). -/
def chordRestart (e : Eng) (s : State) : State :=
  match (s.engine e).su.waiting .abandoned with
  | none => s
  | some c =>
    if c.committed then s.modChord e c.ticket fun c => { c with state := .running, trap := none }
    else match startCheck e c.addr c.restart s with
      | (.error (k, _), s) => startError e c.ticket k c.instr s
      | (.ok l, s) => beginChord e (c.check l c.restart) (s.modChord e c.ticket fun c => c.check l c.restart)

/-- CHORD_RESTART. -/
def execChordRestart (e : Eng) (s : State) : Res :=
  act (s.suLive e && ((s.engine e).su.waiting .abandoned).isSome) (chordRestart e) s

/-! ### SWAIT, SSTAT, SCANCEL (R313, R315, R336) -/

/-- The item SSTAT reads (R336). -/
def sstatItem (x : Engine) (sel : Nat) : W32 :=
  match sel with
  | 0 => match x.su.chords.find? fun c => isActive c && c.handler == x.exl with
    | some c => statusWord 15 0 c.index
    | none => x.su.lastStatus
  | 1 => w32 x.su.lastTicket
  | 2 => w32 (x.su.lastFlags % 64)
  | 3 => x.su.lastCounts
  | 4 => x.su.lastBytes
  | _ => x.su.startErr

/-- SCANCEL of one chord: a running one stops, another ends at once (R313, R355). -/
def cancelChord (e : Eng) (c : Chord) (s : State) : State :=
  if isActive c then s.modChord e c.ticket fun c => { c with state := .stopping, cancel := true }
  else
    let s := if c.state == .stopped then writeLsp e slotAddr [0] s else s
    let s := s.setEngine e fun y => { y with starts := y.starts.erase (.stream c.ticket c.instr) }
    chordDone e (if c.restart then { c with index := 0 } else c) 1 0 s

/-- SCANCEL ends every chord of its level; it is privileged (R313). -/
def doScancel (e : Eng) (s : State) : Option State :=
  let x := s.engine e
  if x.priv == 0 then excOr e privCause s
  else some (complete e [] 0 ((x.su.chords.filter fun c => c.handler == x.exl).foldl (fun s c => cancelChord e c s) s))

def doSu (e : Eng) (op : EOp) (s : State) : Option State :=
  let x := s.engine e
  match op with
  | .swait rd rs1 =>
    let t := (x.reg rs1).toNat % 256
    if x.su.chords.any (·.ticket == t) then none
    else some (complete e [(rd, tabGet x.su.doneSt t 0xE0000000)] 0 s)
  | .sstat rd sel => some (complete e [(rd, sstatItem x sel)] 0 s)
  | .scancel => doScancel e s
  | _ => none

/-- SWAIT (R315). -/
def execSwait (e : Eng) (s : State) : Res := issue e .swait (doSu e) s
/-- SSTAT (R336). -/
def execSstat (e : Eng) (s : State) : Res := issue e .sstat (doSu e) s
/-- SCANCEL (R313, R355). -/
def execScancel (e : Eng) (s : State) : Res := issue e .scancel (doSu e) s

end Sys2Proof.Machine
end

