-- ==== Sys2Proof/Machine/Micro.lean ====
section
/-! DEFINITION. The microwords of the sequencer (R341 to R347, R350, R353, R357). The word is the command's operand, none where
the word read is uncorrectable (R346): the ROM's words are not in the spec, and a patch word is the loaded one (log 31). -/
namespace Sys2Proof.Machine

/-! ### Micro-registers (R342) -/

def uregWide (n : Nat) : Bool := 8 ≤ n

def UThread.ureg (t : UThread) (n : Nat) : Nat :=
  match n with
  | 0 => 0
  | 5 => t.uidx.toNat
  | 6 => t.ucur[0].toNat
  | 7 => t.ucur[1].toNat
  | n => if n < 5 then ((t.ucnt.toList[n - 1]?).getD 0).toNat else ((t.uacc.toList[n - 8]?).getD 0).toNat

def UThread.setUreg (t : UThread) (n v : Nat) : UThread :=
  match n with
  | 0 => t
  | 5 => { t with uidx := w32 v }
  | 6 => { t with ucur := t.ucur.set! 0 (w32 v) }
  | 7 => { t with ucur := t.ucur.set! 1 (w32 v) }
  | n => if n < 5 then { t with ucnt := t.ucnt.set! (n - 1) (w32 v) } else { t with uacc := t.uacc.set! (n - 8) (w64 v) }

/-! ### Fields (R343) -/

structure MWord where
  cls  : Nat
  cyc  : Nat
  tp   : Bool
  cm   : Bool
  cond : Nat
  tgt  : Nat
  opnd : Nat
deriving DecidableEq, Repr

def parseMw (w : W64) : MWord :=
  { cls := bitsAt w.toNat 60 4, cyc := bitsAt w.toNat 56 4, tp := w.getLsbD 55, cm := w.getLsbD 54, cond := bitsAt w.toNat 50 4, tgt := bitsAt w.toNat 32 16
    opnd := w.toNat % 2 ^ 32 }

def putThread (t : Nat) (x : UThread) (u : StreamUnit) : StreamUnit := { u with threads := u.threads.set! t x }

/-- Elements in the chain buffer before thread t, and whether its producer has ended; a thread without one waits for
nothing. -/
def chainHeld (u : StreamUnit) (t : Nat) : Nat := if t == 0 then 0 else (threadOf u (t - 1)).execd - (threadOf u t).execd
def producerEnded (u : StreamUnit) (t : Nat) : Bool := t == 0 || (threadOf u (t - 1)).ended.isSome

/-! ### Which thread issues (R341, R343, R344) -/

/-- A CWAIT is over. -/
def cwaitOver (u : StreamUnit) (t : Nat) : Bool := 0 < chainHeld u t || producerEnded u t

/-- A thread that can issue once the cycles of its last word are over. -/
def threadReady (u : StreamUnit) (t : Nat) : Bool := (threadOf u t).active && (!(threadOf u t).cwait || cwaitOver u t)

/-- The thread that issues next: of those that can soonest, the one that has waited longest, the lowest of equals. -/
def nextThread (u : StreamUnit) : Option Nat :=
  let ready := (List.range 4).filter (threadReady u)
  let soon := ready.foldl (fun m t => min m (threadOf u t).hold) 15
  (ready.filter fun t => (threadOf u t).hold ≤ soon).foldl (fun (b : Option Nat) t =>
    match b with
    | none => some t
    | some k => if (threadOf u k).waited < (threadOf u t).waited then some t else some k) none

/-- Thread t has issued a word of `cyc`: the cycles up to the next one that may issue pass. -/
def passCycles (t cyc : Nat) (u : StreamUnit) : StreamUnit :=
  let n := (threadOf u t).hold + 1
  { u with threads := Vector.ofFn fun (k : Fin 4) =>
      let x := threadOf u k
      if k.val == t then { x with waited := 0, hold := cyc } else { x with waited := x.waited + n, hold := x.hold - n } }

/-- The conditions of R345. -/
def condHolds (u : StreamUnit) (c : Chord) (d : Desc) (t : Nat) (x : UThread) (cond : Nat) : Bool :=
  match cond with
  | 0 => true
  | 1 => x.z
  | 2 => !x.z
  | 3 => x.lt
  | 4 => !x.lt
  | 5 => chainHeld u t == 0
  | 6 => producerEnded u t
  | 7 => c.state == .stopping
  | 8 => c.restart
  | 9 => x.uidx.toNat == d.len
  | _ => false

/-- A UALU word (R344): the value it computes, and the thread after it. -/
def uAlu (m : MWord) (x : UThread) : Nat × UThread :=
  let dst := bitsAt m.opnd 24 4
  let wd := if uregWide dst then 64 else 32
  let a := x.ureg dst
  let b := (x.ureg (bitsAt m.opnd 20 4) + bitsAt m.opnd 0 20) % 2 ^ wd
  let r := (match bitsAt m.opnd 28 4 with
    | 0 => b
    | 1 => a + b
    | 2 | 8 => a + 2 ^ wd - b
    | 3 => a &&& b
    | 4 => a ||| b
    | 5 => a ^^^ b
    | 6 => if b < wd then a * 2 ^ b else 0
    | _ => if b < wd then a / 2 ^ b else 0) % 2 ^ wd
  let cmp := bitsAt m.opnd 28 4 == 8
  let y := if cmp then { x with lt := decide (a < b) } else x.setUreg dst r
  (r, { y with z := r == 0 })

/-- A LOOP word (R344): a counter of 0 is loaded first, with the count or from the ureg, at the counter's 32 bits; the value
is the counter decremented, which wraps. -/
def uLoop (m : MWord) (x : UThread) : Nat × UThread :=
  let k := bitsAt m.opnd 28 4
  let n := bitsAt m.opnd 0 24
  let load := (if n == 0 then x.ureg (bitsAt m.opnd 24 4) else n) % 2 ^ 32
  let cur := if x.ureg k == 0 then load else x.ureg k
  let v := (cur + 2 ^ 32 - 1) % 2 ^ 32
  (v, x.setUreg k v)

/-- Does a word use uacc0 to uacc7 (R353)? -/
def usesUacc (m : MWord) : Bool :=
  match m.cls with
  | 1 => uregWide (bitsAt m.opnd 24 4) || uregWide (bitsAt m.opnd 20 4)
  | 2 => uregWide (bitsAt m.opnd 24 4)
  | 3 => uregWide (bitsAt m.opnd 16 4)
  | 7 => uregWide (bitsAt m.opnd 28 4) || (bitsAt m.opnd 0 24 == 0 && uregWide (bitsAt m.opnd 24 4))
  | _ => false

/-- The value a word computes for cm, if it computes one (log 31). -/
def mwValue (m : MWord) (bs : List Byte) (x : UThread) : Option Nat :=
  match m.cls with
  | 1 => some (uAlu m x).1
  | 2 => some (descWord bs (bitsAt m.opnd 2 6))
  | 3 => some (x.ureg (bitsAt m.opnd 16 4) + bitsAt m.opnd 20 8)
  | 7 => some (uLoop m x).1
  | _ => none

/-- A word's effect on its own thread, its condition holding. -/
def mwThread (m : MWord) (bs : List Byte) (x : UThread) : UThread :=
  match m.cls with
  | 1 => (uAlu m x).2
  | 2 => x.setUreg (bitsAt m.opnd 24 4) (descWord bs (bitsAt m.opnd 2 6))
  | 5 => { x with upc := m.tgt }
  | 6 => if bitsAt m.opnd 0 1 == 1 then { x with upc := x.ret } else { x with ret := x.upc, upc := m.tgt }
  | 7 => let r := uLoop m x; if r.1 != 0 then { r.2 with upc := m.tgt } else r.2
  | 8 => { x with ended := some (bitsAt m.opnd 28 4), active := false }
  | _ => x

def activeChord (e : Eng) (t : Nat) (s : State) : Option (Chord × List Byte) :=
  match (s.engine e).su.active with
  | some c => c.descs[t]?.map fun bs => (c, bs)
  | none => none

/-- The active chord ends with a status, where one is given. -/
def failChord (e : Eng) (c : Chord) (t : Nat) (r : Option Nat) (s : State) : State :=
  match r, (s.engine e).su.chords.find? (·.ticket == c.ticket) with
  | some code, some d => chordDone e d code t s
  | _, _ => s

/-- LANE of a source lane: its elements are read (R344, R369, R370). -/
def laneRead (e : Eng) (t : Nat) (c : Chord) (d : Desc) (lane at' n : Nat) (s : State) : State :=
  let l := match lane with | 0 | 4 | 8 => d.s0 | 1 | 5 | 9 => d.s1 | _ => d.s2
  if l.absent || l.chn then s
  else
    let bad := (List.range n).findSome? fun i => match srcEl (chordCtx e c s) l [] (at' + i) with
      | .error k => some k
      | .ok _ => none
    let s := ((laneSpans l (at' + n) false).map (spanFrom at')).foldl (fun s x => touchSpan e x s) s
    let s := match bad with | some k => if 16 ≤ k then (engRead e (k / 16 - 1) 1 s).2 else s | none => s
    failChord e c t (bad.map (· % 16)) s

/-- LANE of a destination lane of the last operation: the elements EXEC has worked on are written, each lane by its own words
(R344). -/
def laneWrite (e : Eng) (t : Nat) (c : Chord) (lane at' n : Nat) (x : UThread) (s : State) : State :=
  let r := chordRun e c s
  let items := (r.writes.take (r.items (min (at' + n) x.execd))).drop (r.items at')
  let w := writeEls e c (items.map fun ws => ws.filter (·.lane == lane)) 0 s
  failChord e c t (if w.2.1 then none else some 3) w.2.2

/-- What a word moves: LANE reads source lanes and writes the last operation's destination; EXEC works on elements, as many as
its chain buffer holds; STAGE drains the stage buffer. The codes of the stage micro-operations are not in the spec (log 31). -/
def mwMoves (e : Eng) (t : Nat) (c : Chord) (d : Desc) (m : MWord) (x : UThread) (s : State) : State :=
  let last := t + 1 == c.descs.length
  let lane := bitsAt m.opnd 28 4
  let at' := x.ureg (bitsAt m.opnd 16 4)
  if m.cls == 4 then
    s.modSu e fun u =>
      let y := threadOf u t
      let n := y.execd + bitsAt m.opnd 16 8
      putThread t { y with execd := if t == 0 then n else min n (threadOf u (t - 1)).execd } u
  else if m.cls == 3 && (lane == 3 || lane == 7 || lane == 11) then
    if last then laneWrite e t c lane at' (bitsAt m.opnd 20 8) x s else s
  else if m.cls == 3 && lane != 10 then laneRead e t c d lane at' (bitsAt m.opnd 20 8) s
  else if m.cls == 9 && bitsAt m.opnd 0 1 == 1 && last && c.staged then
    let r := chordRun e c s
    let (bad, s) := if c.committed then (none, s) else commitTo e c r r.index s
    match bad with
    | some k => failChord e c t (some k) s
    | none =>
      let s := s.modChord e c.ticket fun c => { c with committed := true }
      let (ok, s) := drainStage e c s
      failChord e c t (if ok then none else some 3) s
  else s

/-- A commit by the last operation's thread: the chord's element index is its uidx (R342, R343). -/
def mwCommit (e : Eng) (t : Nat) (v : Nat) (s : State) : State :=
  match (s.engine e).su.active with
  | none => s
  | some c =>
    let r := chordRun e c s
    if v % 2 ^ 32 ≤ c.index then s.modChord e c.ticket (chordTally r (v % 2 ^ 32))
    else
      let (bad, s) := commitTo e c r (v % 2 ^ 32) s
      failChord e c t bad s

/-- The stop pending for a chord meets a word: a trap point of the last operation's thread is where it is taken (R353). -/
def Chord.meetWord (c : Chord) (tp : Bool) : Chord :=
  if c.state == .stopping then { c with trap := some (c.trap == some true || tp) } else c

/-- One microword of thread t. Its cm and tp act whether or not its condition holds; a CWAIT that must wait stays where it is
(R343, R344). -/
def mwRun (e : Eng) (t : Nat) (word : W64) (s : State) : State :=
  match activeChord e t s with
  | none => s
  | some (c, bs) =>
    let m := parseMw word
    let d := parseDesc bs
    let last := t + 1 == c.descs.length
    let u := (s.engine e).su
    let x := threadOf u t
    let holds := condHolds u c d t x m.cond
    let waits := holds && m.cls == 10 && !cwaitOver u t
    let next : UThread := if waits then { x with cwait := true } else { x with upc := x.upc + 1, cwait := false }
    let y := if holds then mwThread m bs next else next
    let v := if m.cm then mwValue m bs x else none
    let y := match v with | some v => { y with uidx := w32 v } | none => y
    let s := s.modSu e fun u =>
      let u := passCycles t m.cyc (putThread t y u)
      if usesUacc m then { u with uaccBy := t } else u
    let s := if holds then mwMoves e t c d m x s else s
    let s := match v with | some v => if last then mwCommit e t v s else s | none => s
    s.modChord e c.ticket fun c => c.meetWord (m.tp && last && !waits)

/-- A word fetched where no store is, or one that is uncorrectable: the operation ends with MEDIA (R346). -/
def mwUnmapped (e : Eng) (t : Nat) (s : State) : State :=
  let s := s.modSu e fun u => let x := threadOf u t; putThread t { x with active := false, ended := some 4 } u
  raiseFault (Src.seqCsErr e.course) 0 (unitEng e.course e.phys) s

/-- The word at a thread's microaddress may be this one: any word of the ROM, the loaded word of a patch. -/
def wordStands (p : Option PatchBody) (upc : Nat) (word : W64) : Bool :=
  if upc < 0x4000 then !wordBad (match p with | some b => b.wordCount.toNat | none => 0) word
  else match p with
    | some b => b.words[upc - 0x4000]? == some word
    | none => false

def wordMapped (p : Option PatchBody) (upc : Nat) : Bool :=
  upc < 0x4000 || (match p with | some b => inRange upc 0x4000 (0x4000 + b.wordCount.toNat) | none => false)

/-- Issue a word of class `cls` on thread t, whose turn it is. At a trap point with a stop pending no more issues. -/
def mwIssue (e : Eng) (t : Nat) (word : Option W64) (cls : Nat) (s : State) : Res :=
  let u := (s.engine e).su
  let x := threadOf u t
  match activeChord e t s with
  | none => .next s
  | some (c, _) =>
    let p := bankOf u c.bank
    if !(s.suLive e && nextThread u == some t && c.trap != some true) then .next s
    else if !wordMapped p x.upc then .next (mwUnmapped e t s)
    else match word with
      | none => .next (mwUnmapped e t s)
      | some w => act ((parseMw w).cls == cls && wordStands p x.upc w) (mwRun e t w) s

/-- MW_NOP (R344). -/
def execMwNop (e : Eng) (thread : Nat) (word : Option W64) (s : State) : Res := mwIssue e thread word 0 s
/-- MW_UALU (R344). -/
def execMwUalu (e : Eng) (thread : Nat) (word : Option W64) (s : State) : Res := mwIssue e thread word 1 s
/-- MW_LDC (R344). -/
def execMwLdc (e : Eng) (thread : Nat) (word : Option W64) (s : State) : Res := mwIssue e thread word 2 s
/-- MW_LANE (R344). -/
def execMwLane (e : Eng) (thread : Nat) (word : Option W64) (s : State) : Res := mwIssue e thread word 3 s
/-- MW_EXEC (R344). -/
def execMwExec (e : Eng) (thread : Nat) (word : Option W64) (s : State) : Res := mwIssue e thread word 4 s
/-- MW_BR (R344, R345). -/
def execMwBr (e : Eng) (thread : Nat) (word : Option W64) (s : State) : Res := mwIssue e thread word 5 s
/-- MW_CALL (R344). -/
def execMwCall (e : Eng) (thread : Nat) (word : Option W64) (s : State) : Res := mwIssue e thread word 6 s
/-- MW_LOOP (R344). -/
def execMwLoop (e : Eng) (thread : Nat) (word : Option W64) (s : State) : Res := mwIssue e thread word 7 s
/-- MW_END (R344). -/
def execMwEnd (e : Eng) (thread : Nat) (word : Option W64) (s : State) : Res := mwIssue e thread word 8 s
/-- MW_STAGE (R344, R357). -/
def execMwStage (e : Eng) (thread : Nat) (word : Option W64) (s : State) : Res := mwIssue e thread word 9 s
/-- MW_CWAIT (R344). -/
def execMwCwait (e : Eng) (thread : Nat) (word : Option W64) (s : State) : Res := mwIssue e thread word 10 s

end Sys2Proof.Machine
end

