-- ==== Sys2Proof/Machine/DmaCmds.lean ====
section
/-! DEFINITION. What the DMA channels move (R387 to R398), accesses that time out (R384, R501), and the memories' own
steps (R362, R367, R369, R371, R378, R379). -/
namespace Sys2Proof.Machine

/-! ### Elements (R389, R390) -/

def DmaDesc.total (d : DmaDesc) : Nat := d.n0 * d.n1 * d.n2

/-- Address of element i of a side. -/
def elemAt (d : DmaDesc) (base : Nat) (steps : List Int) (i : Nat) : Nat :=
  let ix := [i % d.n0, i / d.n0 % d.n1, i / (d.n0 * d.n1)]
  ((steps.zip ix).foldl (fun (a : Int) p => a + p.1 * p.2) (base : Int)).toNat
def DmaDesc.srcAt (d : DmaDesc) (i : Nat) : Nat := elemAt d d.src d.ss i
def DmaDesc.dstAt (d : DmaDesc) (i : Nat) : Nat := elemAt d d.dst d.ds i

/-- One element converted (R390). -/
def dmaConv (d : DmaDesc) (bs : List Byte) : List Byte :=
  let n := leNat bs
  let v : Int := if d.signed then sgn (8 * d.sw) n else n
  let cut := fun (x : Int) => leBytes d.dw (x % 2 ^ (8 * d.dw)).toNat
  if d.dw < d.sw then
    if !d.satur then leBytes d.dw n
    else if d.signed then cut (max (-2 ^ (8 * d.dw - 1)) (min (2 ^ (8 * d.dw - 1) - 1) v))
    else cut (min (2 ^ (8 * d.dw) - 1) v)
  else if d.sw < d.dw then cut v
  else bs

/-- Elements of one read: a contiguous run within an aligned 64-byte block, one at a time from a register block (R396). -/
def runLen (d : DmaDesc) (i n : Nat) : Nat → Nat
  | 0 => 1
  | k + 1 =>
    let j := runLen d i n k
    if j == k + 1 && i + j < n && !dmaWordSide d.src && d.srcAt (i + j) == d.srcAt i + j * d.sw &&
       d.srcAt (i + j) / 64 == d.srcAt i / 64
    then k + 2 else j

/-- The holding register: where it starts, its bytes, its first element. -/
structure DmaHold where
  addr  : Nat := 0
  bytes : List Byte := []
  first : Nat := 0
deriving DecidableEq, Repr

/-- Write the holding register out: the first element of a write that fails. -/
def flushHold (n : Nat) (h : DmaHold) (s : State) : Option Nat × State :=
  if h.bytes.isEmpty then (none, s)
  else
    let (ok, s) := write40 (.courseDma n) n h.addr h.bytes s
    (if ok then none else some h.first, s)

/-- An element enters the holding register, which is written out first where the element does not follow on, and at once
where it goes to a register block. -/
def pushElem (n : Nat) (d : DmaDesc) (i : Nat) (bs : List Byte) (h : DmaHold) (s : State) : Option Nat × DmaHold × State :=
  let a := d.dstAt i
  if !h.bytes.isEmpty && !dmaWordSide d.dst && a == h.addr + h.bytes.length && a / 64 == h.addr / 64 then
    (none, { h with bytes := h.bytes ++ bs }, s)
  else
    let (r, s) := flushHold n h s
    (r, if r.isNone then { addr := a, bytes := bs, first := i } else {}, s)

def pushElems (n : Nat) (d : DmaDesc) : List (List Byte) → Nat → DmaHold → State → Option Nat × DmaHold × State
  | [], _, h, s => (none, h, s)
  | b :: bs, i, h, s =>
    match pushElem n d i b h s with
    | (none, h, s) => pushElems n d bs (i + 1) h s
    | r => r

/-- The elements of a read that came whole before the first that did not. -/
def wholeElems (sw : Nat) : Nat → List (Option Byte) → List (List Byte)
  | 0, _ => []
  | k + 1, l =>
    match allBytes (l.take sw) with
    | some b => b :: wholeElems sw k (l.drop sw)
    | none => []

/-- How a movement went: to its end, or stopped with a code at an element. -/
inductive DmaEnd where
  | done | fail (code first : Nat)
deriving DecidableEq, Repr

/-- Move elements i to n - 1; what is left in the holding register is not yet written. -/
def moveElems (c : Nat) (d : DmaDesc) (n : Nat) : Nat → Nat → DmaHold → State → DmaEnd × DmaHold × State
  | 0, _, h, s => (.done, h, s)
  | k + 1, i, h, s =>
    if n ≤ i then (.done, h, s)
    else
      let len := runLen d i n (64 / d.sw)
      let bad := fun (code at' : Nat) (h : DmaHold) (s : State) =>
        match flushHold c h s with
        | (none, s) => (DmaEnd.fail code at', ({} : DmaHold), s)
        | (some f, s) => (DmaEnd.fail 5 f, {}, s)
      match read40 (.courseDma c) c (d.srcAt i) (len * d.sw) s with
      | (.err, s) => bad 5 i h s
      | (.bytes l, s) =>
        let els := (wholeElems d.sw len l).map (dmaConv d)
        match pushElems c d els i h s with
        | (some f, h, s) => (.fail 5 f, h, s)
        | (none, h, s) => if els.length < len then bad 6 (i + els.length) h s else moveElems c d n k (i + len) h s

/-- Move the first n elements and write the holding register out. -/
def moveFlush (c : Nat) (d : DmaDesc) (n : Nat) (s : State) : DmaEnd × State :=
  match moveElems c d n n 0 {} s with
  | (.done, h, s) => match flushHold c h s with
    | (none, s) => (.done, s)
    | (some f, s) => (.fail 5 f, s)
  | (r, _, s) => (r, s)

def setPos (k : Nat) (d : DmaDesc) (i : Nat) (s : State) : State :=
  s.setDma k fun c => { c with i0 := i % d.n0, i1 := i / d.n0 % d.n1, i2 := i / (d.n0 * d.n1) % 65536 }

/-! ### Completion, stop, error (R393, R394, R397) -/

/-- Completion in the order of R394; a stop met after the last element reads STOPPED (R393). -/
def dmaComplete (k : Nat) (d : DmaDesc) (s : State) : State :=
  let stop := (s.dmaCh k).stopReq
  let s := (setPos k d d.total s).setDma k fun c => { c with done := c.done + 1, desc := none, stopReq := false }
  let s := if d.irq then dmaIrq k d.eng s else s
  let s := assertProducer (224 + k) s
  s.setDma k fun c =>
    if stop then { c with code := 3 }
    else if d.chain then { c with cur := d.next &&& 0xFFFFFFFFFF }
    else { c with code := 2 }

def dmaEnd (k : Nat) (d : DmaDesc) (r : DmaEnd) (ok : State → State) (s : State) : State :=
  match r with
  | .done => ok s
  | .fail code i => dmaFail k code 0 (setPos k d i s)

def dmaRunAll (k : Nat) (s : State) : State :=
  match (s.dmaCh k).desc with
  | none => s
  | some b =>
    let d := parseDma b
    let (r, s) := moveFlush (k / 16) d d.total s
    dmaEnd k d r (dmaComplete k d) s

def dmaLive (s : State) (course ch : Nat) : Bool := s.alive && course < 16 && ch < 16 && dmaRunning (s.dmaCh (dmaKey course ch))

/-- DMA_DESCRIPTOR_CHECK (R392). -/
def execDmaDescriptorCheck (course ch : Nat) (s : State) : Res :=
  let k := dmaKey course ch
  act (dmaLive s course ch && (s.dmaCh k).desc.isNone) (dmaCheck k) s

/-- DMA_DESCRIPTOR_COMPLETE (R394). -/
def execDmaDescriptorComplete (course ch : Nat) (s : State) : Res :=
  let k := dmaKey course ch
  act (dmaLive s course ch && (s.dmaCh k).desc.isSome) (dmaRunAll k) s

/-- A stop is taken at an element boundary the spec leaves open (R393). -/
def dmaStopAt (k : Nat) (s : State) : State :=
  match (s.dmaCh k).desc with
  | none => dmaReport k false (s.setDma k fun c => { c with code := 3, stopReq := false })
  | some b =>
    let d := parseDma b
    let (x, s) := s.draw
    let n := x.toNat % (d.total + 1)
    let (r, s) := moveFlush (k / 16) d n s
    dmaEnd k d r (fun s =>
      if n == d.total then dmaComplete k d s
      else (setPos k d n s).setDma k fun c => { c with code := 3, stopReq := false, desc := none }) s

/-- DMA_STOP_TAKEN (R393). -/
def execDmaStopTaken (course ch : Nat) (s : State) : Res :=
  let k := dmaKey course ch
  act (dmaLive s course ch && (s.dmaCh k).stopReq) (dmaStopAt k) s

/-- An error response meets the channel at an element the spec leaves open (R397): elements before it are written; of a
failing write a run of bytes may have landed. -/
def dmaErrorAt (k : Nat) (isWrite : Bool) (s : State) : State :=
  match (s.dmaCh k).desc with
  | none => s
  | some b =>
    let d := parseDma b
    let c := k / 16
    let (x, s) := s.draw
    let n := x.toNat % d.total
    if isWrite then
      match moveElems c d (n + 1) (n + 1) 0 {} s with
      | (.fail code i, _, s) => dmaFail k code 0 (setPos k d i s)
      | (.done, h, s) =>
        let (y, s) := s.draw
        let (_, s) := flushHold c { h with bytes := h.bytes.take (y.toNat % (h.bytes.length + 1) / d.dw * d.dw) } s
        dmaFail k 5 0 (setPos k d h.first s)
    else
      let (r, s) := moveFlush c d n s
      dmaEnd k d r (fun s => dmaFail k 5 0 (setPos k d n s)) s

/-- DMA_ERROR_RESPONSE (R397). -/
def execDmaErrorResponse (course ch : Nat) (isWrite : Bool) (s : State) : Res :=
  let k := dmaKey course ch
  act (dmaLive s course ch && (s.dmaCh k).desc.isSome) (dmaErrorAt k isWrite) s

/-! ### Accesses that time out (R384, R501) -/

/-- The engine's load at pc goes to this fabric address: its engine-local address. -/
def hangsLoad (e : Eng) (addr : Nat) (s : State) : Option Nat :=
  if s.coreIssues e && (s.engine e).loads.length < 4 then
    match loadAt e s with
    | some (kind, a) =>
      if loadWay e a (loadSize kind) s == .out && engFabric e a (regionOf (s.engine e).remap a) s == addr then some a else none
    | none => none
  else none

/-- The place of the engine's buffered store that goes to this fabric address and waits for no older one. -/
def hangsStore (e : Eng) (addr : Nat) (s : State) : Option Nat :=
  (List.range (s.engine e).stores.length).find? fun i => match storeReady e (s.engine e) i with
    | some st => engFabric e st.addr (regionOf (s.engine e).remap st.addr) s == addr
    | none => false

/-- The lowest running channel of a course whose side covers the address. -/
def hangsDma (course addr : Nat) (write : Bool) (s : State) : Option Nat :=
  (List.range 16).find? fun ch =>
    let c := s.dmaCh (dmaKey course ch)
    dmaRunning c && (match c.desc with
      | some b =>
        let d := parseDma b
        let r := if write then dmaRange d.dst d.ds d.n0 d.n1 d.n2 d.dw else dmaRange d.src d.ss d.n0 d.n1 d.n2 d.sw
        decide (r.1 ≤ (addr : Int)) && decide ((addr : Int) < r.2)
      | none => false)

/-- Does the master have the access outstanding? A host, pegbox or link access is the command itself. -/
def hangs (m : Master) (addr : Nat) (write : Bool) (s : State) : Bool :=
  match m with
  | .engine n p => Eng.ok ⟨n, p⟩ && (if write then (hangsStore ⟨n, p⟩ addr s).isSome else (hangsLoad ⟨n, p⟩ addr s).isSome)
  | .courseDma n => n < 16 && (hangsDma n addr write s).isSome
  | _ => true

/-- The error response reaches the master (R79, R240, R241, R265, R397, R500). -/
def timedOut (m : Master) (addr : Nat) (write : Bool) (s : State) : State :=
  match m with
  | .engine n p =>
    let e : Eng := ⟨n, p⟩
    if write then
      match (hangsStore e addr s).bind fun i => (storeReady e (s.engine e) i).map fun st => (i, st) with
      | some (i, st) =>
        let go := isGo e st.addr st.bytes s
        let s := s.setEngine e fun x => { x with stores := x.stores.eraseIdx i }
        let s := match go with
          | some (_, ch) => match startOf (eMaster e) ch s with
            | some (_, i) => s.setEngine e fun x => { x with starts := x.starts.erase (.dma ch i) }
            | none => s
          | none => s
        pushAsync e (.buserr (w32 st.addr)) s
      | none => s
    else
      match hangsLoad e addr s with
      | some a => failLoad e (w32 a) s
      | none => s
  | .courseDma n => match hangsDma n addr write s with
    | some ch => dmaErrorAt (dmaKey n ch) write s
    | none => s
  | .pf | .vf _ =>
    let s := tlpError .completerAbort s
    if write then s else s.emit (.readCompletion none false)
  | .link k => s.emit (.brlAccessRsp k none)
  | .pegbox => s

/-- FABRIC_TIMEOUT (R384): a register block or the eMRAM window. -/
def execFabricTimeout (m : Master) (addr : Nat) (write : Bool) (s : State) : Res :=
  act (s.alive && (match target40 addr with | .bar0 _ => true | _ => false) && hangs m addr write s)
    (fun s => timedOut m addr write (fabError true write (fabMaster m) addr s)) s

/-- The link an access through a window goes out on: the lowest whose neighbour is nearer its device (R488). -/
def remoteLink (addr : Nat) (s : State) : Nat :=
  let cube := match target40 addr with | .remote w _ => (tabGet s.brl.wins w { cube := 0, base := 0, size := 0 }).cube | _ => 0
  let d := hopsFrom s cube
  ((([0, 1, 2, 3] : List Nat).find? fun k => s.linkUp k && hopsTo d (farEnd s.cubeId k) < hopsTo d s.cubeId).getD 0)

def remoteTimeout (m : Master) (addr : Nat) (write : Bool) (s : State) : State :=
  let s := s.modBrl fun b => { b with timeouts := b.timeouts + 1 }
  timedOut m addr write (raiseFault Src.brlTimeout (w64 (remoteLink addr s)) unitNone s)

/-- REMOTE_ACCESS_TIMEOUT (R501). -/
def execRemoteAccessTimeout (m : Master) (addr : Nat) (write : Bool) (s : State) : Res :=
  act (s.alive && (match target40 addr with | .remote w _ => (tabFind s.brl.wins w).isSome | _ => false) && hangs m addr write s)
    (remoteTimeout m addr write) s

/-! ### The memories' own steps -/

/-- ECC_WRITE_BACK (R369): the corrected codeword is stored, unless a newer write has replaced it. -/
def eccBack (key cw : Nat) (s : State) : State :=
  s.setEcc key fun r => { r with
    bad := tabDel r.bad cw, back := r.back.filter (· != cw), injected := setDel r.injected cw
    last := r.last.map fun p => if p.1 == cw then (p.1, p.2.1, true) else p }
def execEccWriteBack (inst : MemInst) (cw : Nat) (s : State) : Res :=
  act (s.alive && (s.ecc (MemInst.key inst)).back.contains cw) (eccBack (MemInst.key inst) cw) s

/-- Codewords of an instance that the patrol covers: the memory's size (R364, R371, R376), the boot ROM after the LSP's; of
eMRAM the window's; of the other SRAMs none. -/
def instCws (key : Nat) (s : State) : Nat :=
  if key < 208 then 8192 + 512 else if key < 224 then 262144 else if key < 228 then s.dramU / 128
  else if key == 228 then 2 ^ 19 else 0

/-- PATROL_SCRUB_READ (R371): one codeword is read and corrected; a UE changes nothing. -/
def patrol (key cw : Nat) (s : State) : State :=
  let c : Cw := { key, idx := cw, start := cw * instK key, k := instK key }
  (eccCheck c true s).2
def execPatrolScrubRead (inst : MemInst) (cw : Nat) (s : State) : Res :=
  act (s.alive && cw < instCws (MemInst.key inst) s) (patrol (MemInst.key inst) cw) s

/-- LSP_STARVE_LIMIT (R362); 0 disables the monitor (R363). -/
def execLspStarveLimit (e : Eng) (s : State) : Res :=
  act (s.alive && Eng.ok e && tabGet s.fab.starve e.course 0x1000 != 0)
    (raiseFault (Src.lspStarve e.course) 0 (unitEng e.course e.phys)) s

/-- The sequence a row belongs to (R367, R379, R533), and the row's bit. -/
def copySeq (row : RowCopy) (q : SpareSeq) : Bool :=
  let shadow := match q.step with | .shadow _ => true | _ => false
  match row with
  | .csm n k _ => shadow && q.cls == 1 && q.out / 128 == n && q.inc == k
  | .dram c k => shadow && q.cls == 7 && q.inc == 64 * c + k
def copyBit (row : RowCopy) : Nat := match row with | .csm _ _ r => 2 ^ r | .dram _ _ => 1

/-- SPARE_ROW_COPY (R367, R379): a row of the shadowing unit is copied, its symbols unchanged. -/
def markRow (row : RowCopy) (q : SpareSeq) : SpareSeq := if copySeq row q then { q with copied := q.copied ||| copyBit row } else q
def rowCopied (row : RowCopy) (s : State) : State := s.modHealth fun h => { h with seqs := h.seqs.map (markRow row) }
def rowInRange (row : RowCopy) : Bool :=
  match row with | .csm n k r => n < 16 && k < 8 && r < 2048 | .dram c k => c < 4 && k < 64
def execSpareRowCopy (row : RowCopy) (s : State) : Res := act (s.alive && rowInRange row) (rowCopied row) s

/-- DRAM_REFRESH (R378): the rows keep what they hold. -/
def execDramRefresh (_channel : Nat) (s : State) : Res := .next s

end Sys2Proof.Machine
end

