-- ==== Sys2Proof/Machine/Health.lean ====
section
/-! DEFINITION. Health monitors, retirement and reinstatement, the spare map, group 5 (R526 to R538, R543, R544). -/
namespace Sys2Proof.Machine

/-! ### Units (R528, R532) -/

def classCode : UnitClass → Nat
  | .engine => 0 | .csmBank => 1 | .brlLane => 2 | .pegbox => 3 | .osc => 4 | .lspRow => 5 | .emrRow => 6 | .dramRow => 7
  | .nandBlock => 8

/-- Units of a class; proposal slots for the row and block classes. -/
def classSize (cls : Nat) : Nat :=
  match cls with | 0 => 208 | 1 => 2048 | 2 => 20 | 3 => 2 | 4 => 2 | 5 | 6 | 7 | 8 => 64 | _ => 0

def unitKey (cls idx : Nat) : Nat := 4096 * cls + idx

/-- RETIRED or FAILED in the spare map. -/
def State.unitOut (s : State) (cls idx : Nat) : Bool := s.em.retired.contains (unitKey cls idx)
def markOut (cls idx : Nat) (out : Bool) (s : State) : State :=
  s.modEm fun m => { m with retired := if out then setAdd m.retired (unitKey cls idx) else setDel m.retired (unitKey cls idx) }

/-- The spare pegbox pair shadows; the standby crystal path is good (R532, R536, R543). -/
def State.pbxSpare (s : State) : Bool := s.health.pbxShadow && !s.unitOut 3 (1 - s.em.pbxPair)
def State.oscGood (s : State) : Bool :=
  let other := if s.time.path then 0 else 1
  s.health.oscStandby && !s.unitOut 4 other && !s.time.pathFailed.getLsbD other

def engOf (idx : Nat) : Eng := ⟨idx / 13, idx % 13⟩

/-- Spare banks of a course in a state. -/
def csmInState (s : State) (n : Nat) (st : BankState) : List Nat :=
  (List.range 8).filter fun k => (tabGet s.em.csmSpare (8 * n + k) (.idle, 0)).1 == st

/-- Does a sequence hold this unit or spare? -/
def seqHolds (s : State) (cls idx : Nat) : Bool :=
  s.health.seqs.any fun q => q.cls == cls && (q.out == idx || (cls != 1 && q.inc == idx))

/-- A spare bank that no sequence holds. -/
def freeBank (s : State) (n : Nat) : Option Nat :=
  (csmInState s n .idle).find? fun k => !(s.health.seqs.any fun q => q.cls == 1 && q.out / 128 == n && q.inc == k)

/-- The free spare engine of a course that no sequence holds. -/
def freeEngine (s : State) (n : Nat) : Option Nat := (s.freeSpare n).filter fun p => !seqHolds s 0 (engKey n p)

/-- The spare lane of a link: good, in service, and standing in for no other (R487, R528). -/
def freeLane (s : State) (k : Nat) : Bool :=
  let l := s.brLink k
  !s.unitOut 2 (5 * k + 4) && (tabFind s.em.laneOut k).isNone && l.spareFor == 7 && !l.bad.getLsbD 4

/-- Has the memory a redundant row left for a row: 4 in each LSP bank, 64 in eMRAM (R528, R530)? -/
def freeRow (s : State) (cls index : Nat) (detail : W64) : Bool :=
  let same := fun (r : Nat × Nat × W64) => r.1 == cls && r.2.1 == index && (cls == 6 || r.2.2.toNat / 65536 == detail.toNat / 65536)
  (s.em.repairs.filter same).length < (if cls == 6 then 64 else 4)

/-! ### NAND blocks in a proposal's detail (R543) -/

def nandDetail (f : NandFit) (b : Nat) : W64 :=
  w64 (b % 8 + 256 * (b / 8 % f.ces) + 65536 * (b / 8 / f.ces % f.luns) + 2 ^ 24 * (b / 8 / f.ces / f.luns))
def nandBlockOf (f : NandFit) (d : W64) : Nat :=
  let n := d.toNat
  bitsAt n 0 8 + 8 * (bitsAt n 8 8 + f.ces * (bitsAt n 16 8 + f.luns * (n / 2 ^ 24)))

/-! ### Proposals (R527, R529) -/

def State.proposal (s : State) (k : Nat) : Option Proposal := (tabFind s.health.props k).filter (·.state != 0)
def setProposal (k st : Nat) (s : State) : State :=
  s.modHealth fun h => { h with
    props := if st == 0 then tabDel h.props k else h.props.map fun p => if p.1 == k then (k, { p.2 with state := st }) else p }
def setSlot (slot : Option Nat) (st : Nat) (s : State) : State := match slot with | some k => setProposal k st s | none => s

/-- The pending proposal of a unit. -/
def proposalOf (s : State) (cls idx : Nat) : Option Nat :=
  (s.health.props.find? fun p => p.2.state == 1 && p.2.cls == cls && p.2.index == idx).map (·.1)

def policyOf (s : State) (cls : Nat) : Nat := tabGet s.em.policy cls 1

/-! ### Beginning a sequence (R530, R533, R538) -/

/-- What a RETIRE or REINSTATE comes to at its capo. -/
inductive SpareAns where
  | done (status : Nat) | wait
deriving DecidableEq, Repr

def addSeq (q : SpareSeq) (s : State) : State :=
  let s := s.modHealth fun h => { h with seqs := h.seqs ++ [q] }
  let s := setSlot q.slot 2 s
  if q.cls == 0 then s.setEngine (engOf q.inc) fun x => { x with st := .bist } else s

def coursePowered (s : State) (n : Nat) : Bool := s.stroke.powered.getLsbD n && s.stroke.inProfile.getLsbD n

/-- Retire a unit at a capo: `slot` its proposal, `waiter` the command. -/
def retireUnit (cls idx : Nat) (slot : Option Nat) (waiter : Option (Nat × Nat)) (s : State) : SpareAns × State :=
  let slot := match slot with | some k => some k | none => if cls < 5 then proposalOf s cls idx else some idx
  let out := fun (s : State) => (SpareAns.done 0, setSlot slot 0 (markOut cls idx true s))
  if cls < 5 && (s.unitOut cls idx || seqHolds s cls idx) then (.done Stat.busy, s)
  else match cls with
  | 0 =>
    let e := engOf idx
    if !coursePowered s e.course then (.done Stat.accessDenied, s)
    else match s.slotOf e with
    | none => out (s.setEngine e fun x => { x with st := .retired })
    | some _ => match freeEngine s e.course with
      | none => (.done (if seqHolds s 0 (engKey e.course ((s.freeSpare e.course).getD 13)) then Stat.busy else Stat.exhausted), s)
      | some p =>
        let own := match slot.bind s.proposal with | some pr => pr.reason == 1 | none => false
        (.wait, addSeq { cls, out := idx, inc := engKey e.course p, reinst := false, waiter, slot,
                         forced := own || (s.engine e).st == .halt } s)
  | 1 =>
    if !coursePowered s (idx / 128) then (.done Stat.accessDenied, s)
    else match freeBank s (idx / 128) with
    | none => (.done Stat.exhausted, s)
    | some k => (.wait, addSeq { cls, out := idx, inc := k, reinst := false, waiter, slot } s)
  | 2 =>
    let sp := idx / 5 * 5 + 4
    if seqHolds s 2 sp then (.done Stat.busy, s)
    else if !freeLane s (idx / 5) then (.done Stat.exhausted, s)
    else if idx == sp then out s
    else (.wait, addSeq { cls, out := idx, inc := sp, reinst := false, waiter, slot } s)
  | 3 =>
    if idx != s.em.pbxPair then out (s.modHealth fun h => { h with pbxShadow := false })
    else if s.pbxSpare then
      out ((s.modEm fun m => { m with pbxPair := 1 - idx }).modHealth fun h => { h with pbxShadow := false })
    else (.done Stat.exhausted, s)
  | 4 =>
    let inUse := idx == bit s.time.path
    if !inUse then out (s.modHealth fun h => { h with oscStandby := false })
    else if s.oscGood then
      let s := openFault Src.oscPath 0 unitNone ((s.modTime fun t => { t with path := !t.path }).modEm fun m => { m with oscB := idx == 0 })
      out (s.modHealth fun h => { h with oscStandby := false })
    else (.done Stat.exhausted, s)
  | _ => match (slot.bind s.proposal).filter fun p => p.cls == cls && p.state == 1 with
    | none => (.done Stat.noObject, s)
    | some p =>
      if cls == 7 then
        let ch := (dramPlace p.detail.toNat).1
        let mine := (s.em.remap.filter fun a => (dramPlace a.toNat).1 == ch).length +
          (s.health.seqs.filter fun q => q.cls == 7 && q.inc / 64 == ch).length
        if 64 ≤ mine then (.done Stat.exhausted, raiseFault Src.dramRemapFull (w64 ch) unitNone s)
        else (.wait, addSeq { cls, out := slot.getD 0, inc := 64 * ch + mine, reinst := false, waiter, slot,
                              step := .shadow s.stroke.num } s)
      else if cls == 8 then
        match s.lgs.fit with
        | none => (.done Stat.exhausted, s)
        | some f =>
          if s.lgs.spares == 0 then (.done Stat.exhausted, s)
          else (.done 0, setSlot slot 0 (growBad (nandBlockOf f p.detail) s))
      else if !freeRow s cls p.index p.detail then (.done Stat.exhausted, s)
      else (.done 0, setSlot slot 3 (s.modEm fun m => { m with repairs := m.repairs ++ [(cls, p.index, p.detail)] }))

/-- Reinstate a unit at a capo (R537, R538). -/
def reinstateUnit (cls idx : Nat) (waiter : Option (Nat × Nat)) (s : State) : SpareAns × State :=
  if !s.unitOut cls idx || seqHolds s cls idx then (.done Stat.busy, s)
  else match cls with
  | 0 =>
    let e := engOf idx
    if !coursePowered s e.course then (.done Stat.accessDenied, s)
    else
      let now := s.nowHolds e.course e.phys
      if seqHolds s 0 (engKey e.course now) then (.done Stat.busy, s)
      else (.wait, addSeq { cls, out := engKey e.course now, inc := idx, reinst := true, waiter } s)
  | 1 =>
    let n := idx / 128
    if !coursePowered s n then (.done Stat.accessDenied, s)
    else match (csmInState s n .active).find? fun k => (tabGet s.em.csmSpare (8 * n + k) (.idle, 0)).2 == idx % 128 with
      | none => (.done Stat.busy, s)
      | some k => (.wait, addSeq { cls, out := idx, inc := k, reinst := true, waiter } s)
  | 4 => (.wait, addSeq { cls, out := 1 - idx, inc := idx, reinst := true, waiter }
      (s.modHealth fun h => { h with oscCompare := some (idx == 1), oscAgreed := false }))
  | _ => (.wait, addSeq { cls, out := if cls == 2 then idx / 5 * 5 + 4 else 1 - idx, inc := idx, reinst := true, waiter } s)

/-! ### Activation (R533 to R536) -/

/-- Synchronisation complete (R534). -/
def synced (q : SpareSeq) (s : State) : Bool :=
  match q.cls with
  | 0 =>
    let x := s.engine (engOf q.out)
    q.forced || q.out == q.inc || (x.fgWait && x.su.chords.isEmpty && slotTag (engOf q.out) s == 0)
  | 1 => q.copied == 2 ^ 2048 - 1
  | 7 => q.copied != 0
  | _ => true

/-- VE_SENSEL moves with the slot (R535). -/
def moveSensel (o i : Nat) (s : State) : State :=
  s.modSen fun n => { n with
    sensel := ((List.range 8).foldl (fun (t : Tab W32) j =>
      match tabFind n.sensel (8 * o + j) with | some w => tabSet t (8 * i + j) w | none => tabDel t (8 * i + j))
      (n.sensel.filter fun p => p.1 / 8 != o)) }

/-- The engine at key `i` takes the place of the one at `o`. -/
def moveEngine (q : SpareSeq) (s : State) : State :=
  let o := q.out
  let i := q.inc
  let eo := engOf o
  let x := s.engine eo
  let y := s.engine (engOf i)
  let slot := (s.slotOf eo).getD 0
  let next : Engine :=
    if q.forced then
      { (coreReset y) with st := .run, run := true, fetchRemap := x.remap, irqPend := x.irqPend, irqEn := x.irqEn
                           irqLvl0 := x.irqLvl0, irqLvl1 := x.irqLvl1, remap := x.remap, lsp := x.lsp }
    else { x with su := y.su }
  let gone : Engine := { st := if q.reinst then .idle else .retired, su := { banks := x.su.banks, bank := x.su.bank } }
  let s := if q.forced then endJob (gateKey eo.course slot) s else s
  let bad := (s.ecc o).bad.filter fun p => p.1 < 8192
  let s := (s.setEngine (engOf i) fun _ => next).setEngine eo fun _ => gone
  let s := if bad.isEmpty then s else
    (s.setEcc i fun r => { r with bad := r.bad ++ bad }).setEcc o fun r => { r with bad := r.bad.filter fun p => 8192 ≤ p.1 }
  let s := s.modEm fun m => { m with slotPhys := tabSet m.slotPhys (12 * eo.course + slot) (i % 13) }
  moveSensel o i s

/-- The incoming unit becomes active, and the spare map is written (R532, R535). -/
def activate (q : SpareSeq) (s : State) : State :=
  let s := setSlot q.slot 0 s
  let unit := if q.reinst then q.inc else q.out
  match q.cls with
  | 0 =>
    let s := if q.out == q.inc then s.setEngine (engOf q.inc) fun x => { x with st := .idle } else moveEngine q s
    markOut 0 unit (!q.reinst) s
  | 1 =>
    let s := s.modEm fun m => { m with
      csmSpare := tabSet m.csmSpare (8 * (q.out / 128) + q.inc) (if q.reinst then (.idle, 0) else (.active, q.out % 128)) }
    markOut 1 q.out (!q.reinst) s
  | 2 =>
    let k := unit / 5
    let lane := unit % 5
    let s := s.modEm fun m => { m with laneOut := if q.reinst then tabDel m.laneOut k else tabSet m.laneOut k lane }
    let s := if lane == 4 then s else s.setLink k fun l => { l with spareFor := if q.reinst then 7 else lane }
    markOut 2 unit (!q.reinst) s
  | 3 => markOut 3 q.inc false (s.modHealth fun h => { h with pbxShadow := true })
  | 4 =>
    let s := s.modTime fun t => { t with pathFailed := putBit t.pathFailed (q.inc % 2) false }
    markOut 4 q.inc false (s.modHealth fun h => { h with oscStandby := true, oscCompare := none, oscAgreed := false })
  | _ => match q.slot.bind fun k => tabFind s.health.props k with
    | some p => s.modEm fun m => { m with remap := m.remap ++ [p.detail], repairs := m.repairs ++ [(7, p.index, p.detail)] }
    | none => s

/-- The command that waits completes. -/
def finishSeq (q : SpareSeq) (status result : Nat) (s : State) : State :=
  match q.waiter with
  | some w => finish w.1 w.2 status (w32 result) s
  | none => s

/-- It completes at a capo, with the VT64 of that capo (R116, R538). -/
def capoSeq (q : SpareSeq) (result : Nat) (s : State) : State :=
  match q.waiter with
  | some w => finishAt w.1 w.2 0 (w32 result) s.stroke.vt s.quality s
  | none => s

/-- A unit enters SHADOW, or its activation is due, at the boundary that begins the running stroke (R533). What stays under
way is answered. -/
def stepSeq (q : SpareSeq) (s : State) : Option SpareSeq × State :=
  let n := s.stroke.num
  match q.step with
  | .selfTest => (some q, s)
  | .tested =>
    if q.cls == 4 then (none, capoSeq q n (activate q s))
    else
      let s := match q.cls with
        | 0 => s.setEngine (engOf q.inc) fun x => { x with st := .shadow }
        | 1 => s.modEm fun m => { m with
            csmSpare := if q.reinst then m.csmSpare else tabSet m.csmSpare (8 * (q.out / 128) + q.inc) (.shadow, q.out % 128) }
        | _ => s
      (some { q with step := .shadow n }, s)
  | .shadow since =>
    if n ≤ since then (some q, s)
    else if synced q s then
      let s := activate q s
      (none, capoSeq q (if q.reinst then n else 0) s)
    else (some q, raiseFault Src.shadowDefer 0 unitNone s)

/-- Every sequence at a boundary; none moves in the safe state. -/
def stepSeqs (s : State) : State :=
  if s.fcu.safe then s
  else
    let r := s.health.seqs.foldl (fun (acc : List SpareSeq × State) q =>
      let (x, s) := stepSeq q acc.2
      (acc.1 ++ x.toList, s)) (([] : List SpareSeq), s)
    r.2.modHealth fun h => { h with seqs := r.1 }

/-- A sequence ends without activation: the incoming unit returns to the state it had, or is out of service. -/
def endSeq (q : SpareSeq) (failed : Bool) (s : State) : State :=
  let s := s.modHealth fun h => { h with seqs := h.seqs.erase q }
  let s := setSlot q.slot 1 s
  match q.cls with
  | 0 =>
    let out := failed || q.reinst
    let s := if failed then markOut 0 q.inc true s else s
    s.setEngine (engOf q.inc) fun x => { x with st := if out then .retired else .idle }
  | 1 =>
    if q.reinst then s
    else s.modEm fun m => { m with
      csmSpare := tabSet m.csmSpare (8 * (q.out / 128) + q.inc) (if failed then .failed else .idle, 0) }
  | 2 => if failed then markOut 2 q.inc true s else s
  | _ => s.modHealth fun h => { h with oscCompare := if q.cls == 4 then none else h.oscCompare }

/-- Sequences of a course that a capo powers down are abandoned (R533). -/
def abandonSeqs (course : Nat) (s : State) : State :=
  let mine := s.health.seqs.filter fun q => (q.cls == 0 && q.out / 13 == course) || (q.cls == 1 && q.out / 128 == course)
  mine.foldl (fun s q => finishSeq q Stat.accessDenied 0 (endSeq q false s)) s

/-- The result of an incoming unit's self-test (R533, R536, R538). -/
def selfTested (q : SpareSeq) (pass : Bool) (s : State) : State :=
  if pass then
    s.modHealth fun h => { h with seqs := h.seqs.map fun x => if x == q then { x with step := .tested } else x }
  else finishSeq q (if q.reinst then Stat.busy else Stat.exhausted) 0 (endSeq q true s)

/-- The sequence whose incoming unit this is; a CSM spare is named by the bank it serves. -/
def seqTesting (s : State) (cls idx : Nat) : Option SpareSeq :=
  s.health.seqs.find? fun q => q.cls == cls && q.step == .selfTest && (if cls == 1 then q.out == idx else q.inc == idx)

/-- UNIT_SELF_TEST_COMPLETE (R533). -/
def execUnitSelfTestComplete (cls : UnitClass) (index : Nat) (pass : Bool) (s : State) : Res :=
  act (s.alive && !s.fcu.safe && classCode cls < 4)
    (fun s => match seqTesting s (classCode cls) index with | some q => selfTested q pass s | none => s) s

/-- OSC_COMPARE_END (R537). -/
def oscEnd (agree : Bool) (s : State) : State :=
  match s.health.oscCompare.bind fun b => seqTesting s 4 (bit b) with
  | some q => selfTested q agree (s.modHealth fun h => { h with oscAgreed := agree })
  | none => s
def execOscCompareEnd (agree : Bool) (s : State) : Res := act (s.alive && s.health.oscCompare.isSome) (oscEnd agree) s

/-- PBX_LOCKSTEP_MISMATCH (R536). -/
def pbxMismatch (s : State) : State :=
  let spare := s.pbxSpare
  let s := raiseFault Src.pbxLockstep 0 unitNone s
  if spare then
    let s := markOut 3 s.em.pbxPair true s
    (s.modEm fun m => { m with pbxPair := 1 - m.pbxPair }).modHealth fun h => { h with pbxShadow := false }
  else askWarm 5 s
def execPbxLockstepMismatch (s : State) : Res := act s.alive pbxMismatch s

/-! ### AUTO (R529) -/

/-- Is a proposal's capo the one that begins the running stroke, or an earlier one? -/
def autoDue (s : State) (p : Proposal) : Bool :=
  p.state == 1 && policyOf s p.cls == 1 && (if p.fret < 60 then p.stroke + 1 ≤ s.stroke.num else p.stroke + 2 ≤ s.stroke.num)

def autoOne (k : Nat) (p : Proposal) (s : State) : State :=
  match retireUnit p.cls (if p.cls < 5 then p.index else k) (some k) none s with
  | (.done st, s) =>
    if st == Stat.exhausted && p.cls != 7 then raiseFault Src.spareNone 0 unitNone s else s
  | (.wait, s) => s

def autoPolicy (s : State) : State :=
  if s.stroke.profile == 4 || s.fcu.safe then s
  else s.health.props.foldl (fun s kp => if autoDue s kp.2 then autoOne kp.1 kp.2 s else s) s

/-! ### Monitors (R526, R527) -/

/-- δ in ppm to life used in 0.01%. -/
def lifeUsed (delta : Nat) : Nat := delta / 5
def maxDelta (s : State) : Nat := s.health.deltas.foldl max 0

/-- Corrected reads of a course since reset: LSPs and boot ROMs, and CSM (R544). -/
def lspCorrected (s : State) (n : Nat) : W32 := (List.range 13).foldl (fun a p => a + (s.ecc (instLsp n p)).ce) 0
def csmCorrected (s : State) (n : Nat) : W32 := (s.ecc (instCsm n)).ce

/-- An operating hour ends: the accounts of R478 and R543. -/
def hourEnds (s : State) : State :=
  let ns := List.range 16
  let h := s.health
  let since := fun (k : Nat) (now : W32) => (now - tabGet h.corrected k 0).toNat
  let s1 := s.modHealth fun h => { h with
    hourLsp := ns.map fun n => (n, since (2 * n) (lspCorrected s n))
    hourCsm := ns.map fun n => (n, since (2 * n + 1) (csmCorrected s n))
    corrected := (List.range 32).map fun k => (k, if k % 2 == 0 then lspCorrected s (k / 2) else csmCorrected s (k / 2)) }
  let s1 := s1.modEm fun m => { m with hours := m.hours + 1, tens := 0 }
  lifeCheck (s1.modLgs fun l => { l with hourMarks := ((l.bytesIn, l.bytesOut) :: l.hourMarks).take 168 })

/-- HEALTH_MONITOR_SAMPLE (R526): every 10 minutes of operation. Whether Tj reaches 105 °C is not known here unless TJ_WARN
stands (log 32). -/
def healthSample (deltas : List Nat) (s : State) : State :=
  let s := s.bringTo (9600000000000 + s.health.sampled)
  let (x, s) := s.draw
  let hot := 1 ≤ s.pins.tjBand || x.getLsbD 0
  let s := s.modHealth fun h => { h with deltas := deltas, sampled := s.time.mono }
  let s := s.modEm fun m => { m with
    tens := m.tens + 1, hotTens := if hot then (m.hotTens + 1) % 6 else m.hotTens
    hotHours := if hot && m.hotTens == 5 then m.hotHours + 1 else m.hotHours }
  let s := if s.em.tens == 6 then hourEnds s else s
  setCause Src.healthAging (8000 ≤ lifeUsed (maxDelta s)) 0 s
def execHealthMonitorSample (deltas : List Nat) (s : State) : Res :=
  act (s.fwUp && deltas.length == 19) (healthSample deltas) s

/-- The units an instance's corrected reads propose, as class, index and detail (R527): the row of a codeword corrected
twice, which is a CSM's for none; the engine of an LSP, or the bank of a CSM, with too many in an hour. -/
def ceUnits (key : Nat) (r : EccRec) : List (Nat × Nat × W64) :=
  (r.twice.filterMap fun i =>
    if key < 208 then (if i < 8192 then some (5, key, w64 (32 * i)) else none)
    else if inRange key 224 228 then some (7, 0xFFFF, w64 (dramData (key - 224) i))
    else if key == instEmram then some (6, 0xFFFF, w64 (32 * i)) else none) ++
  r.dense.map fun u => if key < 208 then (0, key, 0) else (1, 128 * (key - 208) + u, 0)

/-- The CE monitors make their proposals (R527). -/
def ceCheck (s : State) : State :=
  let found := s.fab.ecc.flatMap fun kr => ceUnits kr.1 kr.2
  found.foldl (fun s u => propose u.1 u.2.1 2 0 u.2.2 s)
    (s.modFab fun b => { b with ecc := b.ecc.map fun kr => (kr.1, { kr.2 with twice := [], dense := [] }) })

/-- CE_RATE_CHECK (R527). -/
def execCeRateCheck (s : State) : Res := act s.fwUp ceCheck s

/-- EYE_MARGIN_CHECK (R527); a lane's first check stands for its margin at first training (log 32). -/
def eyeMargin (link lane margin : Nat) (s : State) : State :=
  let k := 5 * link + lane
  match tabFind s.em.firstMargin k with
  | none => s.modEm fun m => { m with firstMargin := tabSet m.firstMargin k margin }
  | some f => if 2 * margin < f then propose 2 k 3 0 0 s else s
def execEyeMarginCheck (link lane margin : Nat) (s : State) : Res :=
  act (s.fwUp && link < 4 && lane < 5) (eyeMargin link lane margin) s

/-! ### Group 5 and HEALTH_READ (R543, R544) -/

def group5Course (s : State) (n : Nat) : List W32 :=
  let engs := (List.range 13).map fun p => (s.engine ⟨n, p⟩).st
  let spare := (s.freeSpare n).getD 15
  let phys := fun i => (s.slotEngine (gateKey n i)).phys
  let nib := fun (l : List Nat) => (l.zipIdx.map fun p => p.1 * 16 ^ p.2).foldl (· + ·) 0
  [w32 (2 ^ 24 * spare + 2 ^ 20 * min 15 ((List.range 13).filter fun p => s.unitOut 0 (engKey n p)).length +
      2 ^ 16 * min 15 (engs.filter (· == .shadow)).length + 2 ^ 12 * (csmInState s n .idle).length +
      256 * (csmInState s n .active).length + 16 * (csmInState s n .shadow).length +
      8 * bit (s.stroke.powered.getLsbD n) + 4 * bit (s.boot.courseReady.getLsbD n)),
    w32 (nib ((List.range 8).map phys)),
    w32 (65536 * lifeUsed ((s.health.deltas[n]?).getD 0) + nib ((List.range 4).map fun i => phys (8 + i))),
    lspCorrected s n + csmCorrected s n]

def group5 (s : State) : List W32 := (List.range 16).flatMap (group5Course s)

def propBytes (p : Proposal) : List Byte :=
  leBytes 1 p.state ++ leBytes 1 p.cls ++ leBytes 2 (if p.cls < 5 then p.index else 0xFFFF) ++ leBytes 1 p.reason ++ [0] ++ leBytes 2 p.src ++
  leBytes 8 p.detail.toNat

def healthBytes (s : State) : List Byte :=
  let h := s.health
  leBytes 4 s.em.hours ++ leBytes 4 s.em.hotHours ++ leBytes 4 (lifeUsed (maxDelta s)) ++ leBytes 4 (maxDelta s) ++
  ((List.range 9).flatMap fun c => leBytes 1 (policyOf s c)) ++ leBytes 3 0 ++ leBytes 1 (bit s.pbxSpare) ++
  leBytes 1 (bit s.oscGood) ++ leBytes 2 (256 - s.em.remap.length) ++ leBytes 4 s.lgs.spares ++
  leBytes 1 (h.props.filter fun p => p.2.state == 1).length ++ leBytes 27 0 ++
  ((List.range 16).flatMap fun n => wordsBytes (group5Course s n) ++ leBytes 4 ((h.deltas[n]?).getD 0) ++
    leBytes 4 (tabGet h.hourLsp n 0) ++ leBytes 4 (tabGet h.hourCsm n 0) ++ leBytes 4 0) ++
  ((List.range 64).flatMap fun k => match tabFind h.props k with | some p => propBytes p | none => leBytes 16 0)

end Sys2Proof.Machine
end

