-- ==== Sys2Proof/Machine/Ports.lean ====
section
/-! DEFINITION. The sensor ports: streams, admission, rings, CSI-2, Ethernet, CAN FD, SPI, camera triggers, and the posting
of bound events (R424 to R449). -/
namespace Sys2Proof.Machine

/-! ### Streams and admission (R425 to R431) -/

def State.stream (s : State) (id : Nat) : IngStream := tabGet s.ports.streams id {}
def State.setStream (s : State) (id : Nat) (f : IngStream → IngStream) : State :=
  s.modPorts fun p => { p with streams := tabMod p.streams id {} f }

def streamId (ty port sub : Nat) : Nat := 4096 * ty + 256 * port + sub

/-- Does the admission rule take a record of class `c` (R430)? -/
def Ports.admits (p : Ports) (c maxLen : Nat) : Bool :=
  p.fill + maxLen ≤ 1024 * min 8192 ((p.thr.toList[c]?).getD 0)

/-- The gap record of a stream's refusals (R431). -/
def gapRecord (id c : Nat) (g : Nat × W64 × Quality × W64 × Nat) : IngRecord :=
  { stream := id, vt := g.2.1, stamp := g.2.1, ql := g.2.2.1, seq := g.1, cls := c, info := qualCode g.2.2.1 + 8, aux32 := w32 g.2.2.2.2
    aux64 := g.2.2.2.1, payload := [] }

/-- An admitted record: a gap record first where the stream has had refusals. -/
def admitRecord (r : IngRecord) (s : State) : State :=
  let st := s.stream r.stream
  let gap := match st.refused with
    | some g => [gapRecord r.stream r.cls g]
    | none => []
  let s := s.setStream r.stream fun x => { x with seq := x.seq + 1, refused := none }
  let fill := s.ports.fill + r.payload.length
  s.modPorts fun p => { p with
    queue := p.queue ++ gap ++ [{ r with seq := st.seq }]
    fill := fill
    peak := max p.peak (fill / 1024)
    strokePeak := max p.strokePeak (fill / 1024)
    admitted := tabMod p.admitted r.cls 0 (· + r.payload.length) }

/-- A refused record: counted, ING_REFUSED, and the stroke is overloaded (R195, R430, R431, R448, R449). -/
def refuseRecord (ty port : Nat) (r : IngRecord) (s : State) : State :=
  let s := s.setStream r.stream fun x => { x with
    seq := x.seq + 1
    refused := match x.refused with
      | some (q, v, k, _, n) => some (q, v, k, r.stamp, n + 1)
      | none => some (x.seq, r.stamp, r.ql, r.stamp, 1) }
  let s := s.modPorts fun p => { p with refusedBy := tabMod p.refusedBy r.cls 0 (satAdd 32 · 1) }
  let s := if r.cls < 6 then s.setSport ty port fun x => x.tick (10 + r.cls) else s
  raiseFault Src.ingRefused (w64 port) unitNone (s.modStroke fun k => { k with loaded := true })

/-- Offer one record to its stream: data of an unbound one is discarded before admission (R426, R429, R430). -/
def offer (ty port maxLen : Nat) (r : IngRecord) (s : State) : State :=
  let st := s.stream r.stream
  if st.ring.isNone then s
  else
    let r := { r with cls := st.cls.getD r.cls }
    if s.ports.admits r.cls maxLen then admitRecord r s else refuseRecord ty port r s

/-! ### Rings (R426 to R428) -/

def ingHeader (vt : W64) (seq len stream cls info : Nat) (aux32 : W32) (aux64 : W64) : List Byte :=
  leBytes 8 vt.toNat ++ leBytes 4 seq ++ leBytes 4 len ++ leBytes 2 stream ++ leBytes 1 cls ++ leBytes 1 info ++
  leBytes 4 aux32.toNat ++ leBytes 8 aux64.toNat

def IngRecord.header (r : IngRecord) : List Byte :=
  ingHeader r.vt r.seq r.payload.length r.stream r.cls r.info r.aux32 r.aux64

/-- Payload padded to 32 bytes. -/
def padTo32 (b : List Byte) : List Byte := b ++ List.replicate ((32 - b.length % 32) % 32) 0

def dramStore (a : Nat) (b : List Byte) (s : State) : State := (memStore .dram a b s).2

/-- Where a record of `n` bytes goes in a ring of `len`: the ring start where it does not fit before the end. -/
def ringPlace (pos len n : Nat) : Nat := if len < pos + n then 0 else pos

/-- Write one record: padding to the ring end where it does not fit, the payload, then the header (R428). -/
def ringWrite (base len : Nat) (r : IngRecord) (s : State) : State :=
  let body := padTo32 r.payload
  let n := 32 + body.length
  let pos := (s.stream r.stream).pos
  let at' := ringPlace pos len n
  let s := if at' == pos || pos == len then s
    else dramStore (base + pos) (ingHeader 0 0 (len - pos - 32) 0xFFFF 0 0 0 0) s
  let s := dramStore (base + at') r.header (dramStore (base + at' + 32) body s)
  s.setStream r.stream fun x => { x with pos := at' + n }

/-- A record also enters the log store under its ingress class, with header and payload as its body (R454). -/
def logIngress (r : IngRecord) (s : State) : State :=
  if r.info.testBit 3 then s
  else (enterRecord { kind := 0, cls := r.cls, info := r.info % 8, era := s.time.era, vt := r.vt, evt := s.now, stream := r.stream,
                      body := r.header ++ r.payload } s).2

/-- The oldest admitted record is written to its ring, its EVENT entry is posted, and it enters the log store. -/
def ingressWrite (s : State) : State :=
  match s.ports.queue with
  | [] => s
  | r :: rest =>
    let s := s.modPorts fun p => { p with queue := rest, fill := p.fill - r.payload.length }
    let st := s.stream r.stream
    match st.ring with
    | none => s
    | some (base, len, qp) =>
      let s := ringWrite base len r s
      let e : Cqe := { unsolEntry s 4 (w32 (65536 * st.handle + r.seq % 65536)) r.stamp with quality := r.ql }
      let s := if qp == 0xFFFFFFFF then s
        else s.modLink fun l => { l with posting := l.posting ++ [{ qp := qp, cqe := e }] }
      logIngress r s

/-- INGRESS_RECORD_WRITE (R427, R428). -/
def execIngressRecordWrite (s : State) : Res := act s.alive ingressWrite s

/-! ### CSI-2 (R434 to R437) -/

def State.csi (s : State) (p : Nat) : Port := s.sport 0 p

/-- VC entry v of the configuration in force (R435). -/
def Port.vcEntry (x : Port) (vc : Nat) : List Byte := (x.cfg.drop (16 + 16 * vc)).take 16

def entryByte (e : List Byte) (i : Nat) : Nat := ((e[i]?).getD 0).toNat
def entryWord (e : List Byte) (i n : Nat) : Nat := leNat ((e.drop i).take n)

/-- A receiving port and VC. -/
def csiOn (p vc : Nat) (s : State) : Bool :=
  p < 8 && vc < 16 && s.time.counting && (s.csi p).byte 0 == 1 && entryByte ((s.csi p).vcEntry vc) 1 % 2 == 1

/-- The trigger edge a frame associates with (R437): the latest that precedes the FS stamp by no more than max_lat_vt and
that no earlier frame of the VC has used. -/
def frameEdge (edges : List (W64 × Quality)) (used : List W64) (fs : W64) (maxLat : Nat) : Option (W64 × Quality) :=
  edges.find? fun e => e.1.toNat < fs.toNat && fs.toNat - e.1.toNat ≤ maxLat && !used.contains e.1

/-- Stamps within the last 2^32 vt: max_lat_vt has 32 bits. -/
def recent (fs e : W64) : Bool := fs.toNat ≤ e.toNat + 2 ^ 32

/-- A frame start: stamped, its producer and bound events act, its base is found (R400, R436, R437). -/
def frameStart (p vc : Nat) (frame : W16) (s : State) : State :=
  let fs := s.now
  let s := assertProducer (480 + p) s
  let s := postBound 4 (fun src => src == 256 * p + vc) none fs s.quality s
  let entry := (s.csi p).vcEntry vc
  let key := 16 * p + vc
  let used := (tabGet s.ports.usedEdge key []).filter (recent fs)
  let trig := entryByte entry 0
  let edge := if trig < 16 then frameEdge (tabGet s.ports.trigs trig {}).edges used fs (entryWord entry 12 4) else none
  let base := edge.getD (fs, s.quality)
  let f : CsiFrame := { entry, frame, base := base.1, baseQl := base.2, nobase := edge.isNone, lines := 0, fsVt := fs, fsQl := s.quality, ls := none }
  let s := s.setSport 0 p fun x => if edge.isNone then (x.tick 1).tick 8 else x.tick 1
  s.modPorts fun q => { q with
    frames := tabSet q.frames key f
    usedEdge := tabSet q.usedEdge key ((edge.map (·.1)).toList ++ used) }

/-- CSI2_FRAME_START (R436, R437). -/
def execCsi2FrameStart (p vc : Nat) (frame : W16) (s : State) : Res := act (s.alive && csiOn p vc s) (frameStart p vc frame) s

def State.csiFrame (s : State) (p vc : Nat) : Option CsiFrame := tabFind s.ports.frames (16 * p + vc)

/-- A line start: its stamp serves the line to come (R436, R437). -/
def lineStart (p vc : Nat) (s : State) : State :=
  match s.csiFrame p vc with
  | some f => s.modPorts fun q => { q with frames := tabSet q.frames (16 * p + vc) { f with ls := some (s.now, s.quality) } }
  | none => s

/-- CSI2_LINE_START (R436). -/
def execCsi2LineStart (p vc : Nat) (s : State) : Res := act s.alive (lineStart p vc) s

/-- The data types of R434, by the codes of the CSI-2 standard. -/
def csiSupported (dt : Nat) : Bool := inRange dt 0x28 0x38 || dt == 0x1E || dt == 0x1F || dt == 0x24 || dt == 0x12

/-- Longest payload of a record (R427). -/
def maxPayload : Nat := 65504

/-- One line's record (R437): line k's time, the frame number and k, and the base. -/
def lineRecord (p vc : Nat) (f : CsiFrame) (emb crcOk : Bool) (data : List Byte) : IngRecord :=
  let k := f.lines
  let t0 : Int := (w32 (entryWord f.entry 4 4)).toInt
  let ls := if entryByte f.entry 1 / 2 % 2 == 1 then f.ls else none
  let vt : W64 := match ls with
    | some (v, _) => v + i64 t0
    | none => f.base + i64 (t0 + k * entryWord f.entry 8 4)
  let ql := match ls with | some (_, q) => q | none => f.baseQl
  let stamp := match ls with | some (v, _) => v | none => f.fsVt
  let stampQl := match ls with | some (_, q) => q | none => f.fsQl
  { stream := streamId 0 p ((if emb then 16 else 0) + vc), vt, stamp, ql := stampQl, seq := 0, cls := 4
    info := qualCode ql + 16 * bit (!crcOk) + 32 * bit (maxPayload < data.length) + 64 * bit f.nobase
    aux32 := w32 (65536 * f.frame.toNat + k % 65536), aux64 := f.base, payload := data.take maxPayload }

/-- A long packet with an intact or corrected header. -/
def longPacket (p vc dt : Nat) (crcOk : Bool) (data : List Byte) (s : State) : State :=
  match s.csiFrame p vc with
  | none => s
  | some f =>
    let s := s.modPorts fun q => { q with frames := tabSet q.frames (16 * p + vc) { f with lines := f.lines + 1, ls := none } }
    if !csiSupported dt then s.setSport 0 p fun x => x.tick 7
    else
      let emb := dt == 0x12
      let s := s.setSport 0 p fun x => x.tick (if emb then 3 else 2)
      let s := if crcOk then s else raiseFault Src.csiErr (w64 p) unitNone (s.setSport 0 p fun x => x.tick 6)
      let r := lineRecord p vc f emb crcOk data
      offer 0 p data.length r s

/-- A long packet (R437): a two-bit header error discards it, a single-bit one is corrected. -/
def csiPacket (p vc dt : Nat) (ecc : HdrEcc) (crcOk : Bool) (data : List Byte) (s : State) : State :=
  match ecc with
  | .bad => raiseFault Src.csiErr (w64 p) unitNone (s.setSport 0 p fun x => x.tick 5)
  | .corrected => longPacket p vc dt crcOk data (s.setSport 0 p fun x => x.tick 4)
  | .ok => longPacket p vc dt crcOk data s

/-- CSI2_LONG_PACKET (R437). -/
def execCsi2LongPacket (p vc dt : Nat) (ecc : HdrEcc) (crcOk : Bool) (data : List Byte) (s : State) : Res :=
  act (s.alive && p < 8 && vc < 16 && ((s.csi p).byte 0 == 1 || (s.csiFrame p vc).isSome)) (csiPacket p vc dt ecc crcOk data) s

/-- A frame end: its stamp and its bound events; the frame is over. -/
def frameEnd (p vc : Nat) (s : State) : State :=
  let s := postBound 4 (fun src => src == 0x1000 + 256 * p + vc) none s.now s.quality s
  s.modPorts fun q => { q with frames := tabDel q.frames (16 * p + vc) }

/-- CSI2_FRAME_END (R424, R436). -/
def execCsi2FrameEnd (p vc : Nat) (s : State) : Res :=
  act (s.alive && (csiOn p vc s || (s.csiFrame p vc).isSome)) (frameEnd p vc) s

/-- CSI2_ULPS_EXIT and CSI2_ULPS_ENTRY (R447): lanes out of ULPS with deskew done, or not. -/
def execCsi2UlpsExit (p : Nat) (s : State) : Res :=
  act (s.alive && p < 8) (fun s => s.setSport 0 p fun x => { x with linkUp := true }) s
def execCsi2UlpsEntry (p : Nat) (s : State) : Res :=
  act (s.alive && p < 8) (fun s => s.setSport 0 p fun x => { x with linkUp := false }) s

/-! ### Ethernet (R440 to R442) -/

/-- Big-endian bytes as a number. -/
def beNat (b : List Byte) : Nat := b.foldl (fun a x => 256 * a + x.toNat) 0

/-- `n` bytes at `i` of a frame, if it holds them. -/
def fieldAt (d : List Byte) (i n : Nat) : Option Nat :=
  if i + n ≤ d.length then some (beNat ((d.drop i).take n)) else none

/-- EtherType, behind one 802.1Q tag. -/
def etherType (d : List Byte) : Nat :=
  let t := beNat ((d.drop 12).take 2)
  if t == 0x8100 then beNat ((d.drop 16).take 2) else t

/-- Do the two tests of a rule pass (R442)? -/
def ruleTakes (d r : List Byte) : Bool :=
  let ok := fun (o m v : Nat) =>
    let mask := entryWord r m 4
    if mask == 0 then true
    else match fieldAt d (entryWord r o 2) 4 with
      | some x => x &&& mask == entryWord r v 4
      | none => false
  ok 0 4 8 && ok 2 12 16

/-- The sensor's time field in ns (R441, R442). -/
def sensorTime (d r : List Byte) : Nat :=
  let o := entryWord r 0x1A 2
  match entryByte r 0x17 with
  | 1 => (fieldAt d o 8).getD 0
  | 2 => match fieldAt d o 4, fieldAt d (o + 4) 4 with
    | some sec, some ns => sec * 1000000000 + ns
    | _, _ => 0
  | 3 => ((fieldAt d o 4).getD 0) * 1000
  | _ => 0

def State.eth (s : State) (p : Nat) : Port := s.sport 1 p

/-- A frame taken by rule `i`. -/
def ethTaken (p i : Nat) (r data : List Byte) (stamp : W64) (s : State) : State :=
  if entryByte r 0x16 % 2 == 1 then s.setSport 1 p fun x => x.tick 3
  else
    let s := assertProducer (488 + p) (s.setSport 1 p fun x => x.tick 2)
    let s := postBound 4 (fun src => src == 0x2000 + 256 * p + i) none stamp s.quality s
    let rec' : IngRecord := { stream := streamId 1 p (entryByte r 0x14), vt := stamp, stamp, ql := s.quality, seq := 0, cls := entryByte r 0x15, info := qualCode s.quality, aux32 := w32 i, aux64 := w64 (sensorTime data r), payload := data.drop (entryWord r 0x18 2) }
    offer 1 p ((s.eth p).word 4 2) rec' s

/-- A received frame, FCS excluded (R440, R442). -/
def ethFrame (p : Nat) (fcsOk : Bool) (data : List Byte) (s : State) : State :=
  let x := s.eth p
  let stamp := s.now - i64 (s.tune (0x140 + p))
  let size := data.length + 4
  if !fcsOk then s.setSport 1 p fun x => x.tick 4
  else if x.word 4 2 < size then s.setSport 1 p fun x => x.tick 8
  else if size < 64 then s
  else
    let s := s.setSport 1 p fun x => x.tick 1
    if etherType data == 0x8808 then s.setSport 1 p fun x => x.tick 5
    else if etherType data == 0x88F7 && beNat (data.take 6) == 0x0180C200000E then s.setSport 1 p fun x => x.tick 7
    else match (List.range x.rules.length).find? fun i => ruleTakes data ((x.rules[i]?).getD []) with
      | some i => ethTaken p i ((x.rules[i]?).getD []) data stamp s
      | none => s.setSport 1 p fun x => x.tick 6

/-- ETHERNET_FRAME_RECEIVE (R440, R442). -/
def execEthernetFrameReceive (p : Nat) (fcsOk : Bool) (data : List Byte) (s : State) : Res :=
  act (s.alive && p < 8 && s.time.counting && (s.eth p).byte 0 == 1) (ethFrame p fcsOk data) s

/-- Block lock lost: ETH_LINK on an enabled port (R447, R449). -/
def lockLoss (p : Nat) (s : State) : State :=
  let was := (s.eth p).linkUp
  let s := s.setSport 1 p fun x => { x with linkUp := false }
  if was && (s.eth p).byte 0 == 1 then raiseFault Src.ethLink (w64 p) unitNone (s.setSport 1 p fun x => x.tick 9) else s

/-- ETH_BLOCK_LOCK_LOSS (R449). -/
def execEthBlockLockLoss (p : Nat) (s : State) : Res := act (s.alive && p < 8) (lockLoss p) s

/-- ETH_BLOCK_LOCK_GAIN (R447). -/
def execEthBlockLockGain (p : Nat) (s : State) : Res :=
  act (s.alive && p < 8) (fun s => s.setSport 1 p fun x => { x with linkUp := true }) s

/-! ### CAN FD (R443, R444) -/

def State.can (s : State) (p : Nat) : Port := s.sport 2 p

/-- Filter f takes the frame. -/
def filterTakes (x : Port) (fr : CanFrame) (f : Nat) : Bool :=
  let e := (x.cfg.drop (12 + 16 * f)).take 16
  let ide := entryByte e 8
  (fr.id.toNat &&& entryWord e 0 4) == entryWord e 4 4 && (ide == 2 || (ide == 1) == fr.ide)

/-- A received frame (R443, R444). -/
def canFrame (p : Nat) (fr : CanFrame) (s : State) : State :=
  let x := s.can p
  let stamp := s.stamp (54 + p)
  let s := s.setSport 2 p fun x => x.tick 1
  if fr.remote then s.setSport 2 p fun x => x.tick 6
  else
    let s := assertProducer (496 + p) s
    match (List.range (x.byte 11)).find? (filterTakes x fr) with
    | none => s.setSport 2 p fun x => x.tick 3
    | some f =>
      let s := s.setSport 2 p fun x => x.tick 2
      let s := postBound 4 (fun src => src == 0x3000 + 256 * p + f) none stamp s.quality s
      let aux := 2 ^ 31 * bit fr.ide + 2 ^ 30 * bit fr.fdf + 2 ^ 29 * bit fr.brs + fr.id.toNat
      let r : IngRecord := { stream := streamId 2 p f, vt := stamp, stamp, ql := s.quality, seq := 0, cls := x.byte (12 + 16 * f + 9), info := qualCode s.quality, aux32 := w32 aux, aux64 := 0, payload := fr.data.take 64 }
      offer 2 p 64 r s

/-- CAN_FRAME_RECEIVE (R443, R444): a configured port that is not stopped by bus-off. -/
def execCanFrameReceive (p : Nat) (frame : CanFrame) (s : State) : Res :=
  act (s.alive && p < 4 && s.time.counting && !(s.can p).cfg.isEmpty && !(s.can p).busOff) (canFrame p frame) s

/-- Bus-off in active mode stops the port and raises CAN_ERR (R444). -/
def canOff (p : Nat) (s : State) : State :=
  raiseFault Src.canErr (w64 p) unitNone (s.setSport 2 p fun x => { (x.tick 5) with busOff := true })

/-- CAN_BUS_OFF (R444). -/
def execCanBusOff (p : Nat) (s : State) : Res :=
  act (s.alive && p < 4 && (s.can p).byte 10 == 1 && !(s.can p).busOff) (canOff p) s

/-- CAN_BUS_OFF_RECOVERY (R444). -/
def execCanBusOffRecovery (p : Nat) (s : State) : Res :=
  act (s.alive && p < 4 && (s.can p).busOff) (fun s => s.setSport 2 p fun x => { x with busOff := false }) s

/-! ### SPI (R445, R446) -/

/-- Does the DRDY pin of a port start its transactions? -/
def drdyStarts (p : Nat) (s : State) : Bool := (s.sport 3 p).byte 0x13 == 1 && (s.sport 3 p).byte 0x11 == 0

/-- An edge of the DRDY pin in the configured direction: stamped, on a disabled port too (R433), unless it follows the last
too closely, and then counted as a miss (R36, R156); a data-ready event where the pin is the source (R445). -/
def drdyEdge (p : Nat) (s : State) : State :=
  if !s.edgeStamped (50 + p) then missEdge (50 + p) s
  else if drdyStarts p s then dataReady p (s.stamp (50 + p)) s.quality (markEdge (50 + p) s)
  else markEdge (50 + p) s

/-- SPI_DRDY_EVENT (R433, R445, R446). -/
def execSpiDrdyEvent (p : Nat) (s : State) : Res := act (s.alive && p < 4 && s.time.counting) (drdyEdge p) s

/-- The end of a transaction: its record, with the events that overlapped (R445, R446). -/
def spiDone (p : Nat) (data : List Byte) (s : State) : State :=
  let x := s.sport 3 p
  match x.spiRun with
  | none => s
  | some (stamp, ql) =>
    let s := s.setSport 3 p fun x => { (x.tick 1) with spiRun := none, overlaps := 0, lastOverlap := 0 }
    let r : IngRecord := { stream := streamId 3 p 0, vt := stamp, stamp, ql, seq := 0, cls := 4, info := qualCode ql, aux32 := w32 x.overlaps, aux64 := x.lastOverlap, payload := data }
    offer 3 p x.spiLen r s

/-- SPI_TRANSACTION_COMPLETE (R445): the bytes read are rd_len of the configuration it began with. -/
def execSpiTransactionComplete (p : Nat) (data : List Byte) (s : State) : Res :=
  act (s.alive && p < 4 && data.length == (s.sport 3 p).spiLen) (spiDone p data) s

/-! ### Camera triggers (R438, R439) -/

def State.trig (s : State) (t : Nat) : Trigger := tabGet s.ports.trigs t {}
def State.setTrig (s : State) (t : Nat) (f : Trigger → Trigger) : State :=
  s.modPorts fun p => { p with trigs := tabMod p.trigs t {} f }

/-- vt from `now` to the first scheduled value at or after `now + wait`. -/
def edgeWait (x : Trigger) (now : W64) (wait : Nat) : Nat :=
  let v := now.toNat + wait
  wait + (x.period - (v + x.period - x.phase) % x.period) % x.period

/-- The next rising edge: on schedule, with the pin low for 16 vt before it. -/
def trigRise (t : Nat) (s : State) : State :=
  let x := s.trig t
  let low := match x.fall with | some m => (m + 16 - s.now).toInt.toNat | none => 0
  let s := s.advanceVt (edgeWait x s.now low)
  let e := s.now
  let s := s.setTrig t fun x => { x with
    fall := some (e + w64 x.width)
    high := true
    edges := (e, s.quality) :: x.edges.filter fun p => recent e p.1 }
  let s := if tioFunc (s.sen.tioCfg t) == 2 then driveBall t true s else s
  postBound 4 (fun src => src == 0x7000 + t) none e s.quality (assertProducer (48 + t) s)

/-- TRIGGER_RISE (R438, R439): the safe state stops the schedules. -/
def execTriggerRise (t : Nat) (s : State) : Res :=
  act (s.alive && t < 16 && s.time.counting && (s.trig t).period != 0 && !(s.trig t).high && !s.fcu.safe) (trigRise t) s

/-- The end of a pulse: its width is never cut (R438, R439). -/
def trigFall (t : Nat) (s : State) : State :=
  match (s.trig t).fall with
  | some m =>
    let s := (s.bringVt m).setTrig t fun x => { x with high := false }
    if tioFunc (s.sen.tioCfg t) == 2 then driveBall t false s else s
  | none => s

/-- TRIGGER_FALL (R438). -/
def execTriggerFall (t : Nat) (s : State) : Res := act (s.alive && t < 16 && (s.trig t).high) (trigFall t) s

/-! ### Bound events (R111, R424) and what a port reports (R447, R448) -/

/-- The oldest entry on its way is posted to its QP. -/
def postNext (s : State) : State :=
  match s.link.posting with
  | [] => s
  | u :: rest => postUnsol u.qp u.cqe (s.modLink fun l => { l with posting := rest })

/-- EVENT_ENTRY_POST (R111, R424, R479). -/
def execEventEntryPost (s : State) : Res := act s.alive postNext s

def portEnabled (ty : Nat) (x : Port) : Bool :=
  match ty with
  | 2 => !x.cfg.isEmpty
  | 3 => x.byte 0x13 == 1
  | _ => x.byte 0 == 1

def portLink (ty : Nat) (x : Port) : Bool :=
  match ty with
  | 2 => !x.cfg.isEmpty && !x.busOff
  | 3 => true
  | _ => x.linkUp

/-- The 64 bytes of PORT_STATUS (R447). -/
def portStatusBytes (ty p : Nat) (s : State) : List Byte :=
  let x := s.sport ty p
  leBytes 4 (bit (portEnabled ty x) + 2 * bit (portLink ty x) + 4 * bit (ty == 2 && x.busOff)) ++
  ((List.range 15).map fun i => leBytes 4 (tabGet x.cnt (i + 1) (0 : W32)).toNat).flatten

/-- Group 4 (R448). -/
def group4 (s : State) : List W32 :=
  let c := fun (ty p w : Nat) => tabGet (s.sport ty p).cnt w (0 : W32)
  let each := fun (n : Nat) (f : Nat → W32) => (List.range n).map f
  each 8 (fun k => w32 (tabGet s.ports.admitted k 0 / 64)) ++ each 8 (fun k => w32 (tabGet s.ports.refusedBy k 0)) ++
  [w32 (s.ports.fill / 1024), w32 s.ports.strokePeak] ++
  each 8 (fun p => c 0 p 1) ++ each 8 (fun p => c 1 p 2) ++ each 4 (fun p => c 2 p 2) ++ each 4 (fun p => c 3 p 1) ++
  each 8 (fun p => c 0 p 5 + c 0 p 6) ++ each 8 (fun p => c 1 p 4 + c 1 p 9) ++ each 4 (fun p => c 2 p 4) ++
  [(each 4 fun p => c 3 p 2).foldl (· + ·) 0, 0]

end Sys2Proof.Machine
end

