-- ==== Sys2Proof/Machine/LogCmds.lean ====
section
/-! DEFINITION. What the log store does of its own accord: appends, page programs, commit points, triggers' ends, seals, media
management, and the capsules (R452, R455, R456, R461, R462, R465 to R477, R522). -/
namespace Sys2Proof.Machine

/-! ### Engine appends (R455, R456, R462) -/

/-- The memory and offset a payload address of the 40-bit form names: DRAM, any CSM, or an LSP of the same course. -/
def appendSrc (n len : Nat) (src : Nat) (s : State) : Option (MemRef × Nat) :=
  if 2 ^ 40 ≤ src then none else s.memAt n (target40 src) len

/-- Enter the record a descriptor describes: its cause, or 0 (R456). -/
def appendRecord (n : Nat) (d : List Byte) (s : State) : Nat × State :=
  let len := entryWord d 0x10 4
  let cls := entryByte d 0x16
  let flags := entryByte d 0x17
  if s.logStopped then (4, s)
  else if !(1 ≤ len && len ≤ 1048576 && 8 ≤ cls && cls ≤ 15 && flags < 16 && flags % 8 ≤ 4) then (3, s)
  else match appendSrc n len (entryWord d 8 8) s with
    | none => (3, s)
    | some (m, a) =>
      let (bytes, s) := memLoad m a len s
      match allBytes bytes with
      | none => (3, s)
      | some body =>
        let vt := w64 (entryWord d 0 8)
        let r : LogRec := { kind := 1, cls, info := flags % 8, era := s.time.era, vt, evt := s.now, stream := entryWord d 0x14 2, body }
        let (c, s) := enterRecord r s
        if c == 0 && flags.testBit 3 then
          if 16 ≤ s.lgs.trigs.length then (0, raiseFault Src.lgsTrigLost 0 unitNone s)
          else (0, (openTrigger vt s.lgs.trigPre.toNat s.lgs.trigPost.toNat cls 1 s).2)
        else (c, s)

/-- The oldest request of a course is processed: a descriptor that cannot be read raises LGS_APP_ERR. -/
def appendProcess (n : Nat) (s : State) : State :=
  match appQueue n s with
  | [] => s
  | val :: rest =>
    let s := s.modLgs fun l => { l with appends := tabSet l.appends n rest }
    let fail := raiseFault Src.lgsAppErr 0 unitNone
    match appendPlace n val with
    | none => fail s
    | some p =>
      if !placeOk s p 32 then fail s
      else
        let (bytes, s) := memLoad p.1 p.2 32 s
        match allBytes bytes with
        | none => fail s
        | some d =>
          let (c, s) := appendRecord n d s
          appendResult n val (if c == 0 then 2 ^ 63 else 2 ^ 62 + c) s

/-- APPEND_PROCESS (R456). -/
def execAppendProcess (n : Nat) (s : State) : Res := act (s.alive && n < 16) (appendProcess n) s

/-! ### Programming, committing, sealing (R465 to R469) -/

/-- NAND may be programmed and erased: WP_N released and no safe state (R23, R33, R472). -/
def State.nandUp (s : State) : Bool := s.alive && s.ready Rdy.lgsWrite && s.pins.wpN && !s.fcu.safe

/-- PAGE_PROGRAM_COMPLETE (R466). -/
def execPageProgramComplete (pass : Bool) (s : State) : Res :=
  act (s.nandUp && !(nextPage s.lgs).1.isEmpty) (programPage pass) s

/-- COMMIT_POINT (R466). -/
def execCommitPoint (s : State) : Res := act (s.nandUp && !s.lgs.placed.isEmpty) commitPoint s

/-- PERIODIC_SEAL (R469). -/
def execPeriodicSeal (s : State) : Res := act (s.nandUp && !s.logStopped) (doSeal none) s

/-! ### The end of a trigger (R461, R464) -/

/-- Every ring record a trigger takes has been committed or reported. -/
def trigServed (id : Nat) (l : LogStore) : Bool :=
  let mine := fun (r : LogRec) => r.trig == w32 id
  !(l.backfill.any mine || l.queue.any mine || l.placed.any mine)

/-- Earliest and latest record time committed: values the spec leaves open where none was (log 7). -/
def trigSpan (t : LogTrig) (s : State) : (W64 × W64) × State :=
  match t.span with
  | some p => (p, s)
  | none =>
    let (a, s) := s.draw
    let (b, s) := s.draw
    ((a, b), s)

/-- A trigger closes 10 ms past its window: GAP records for what was overwritten, then its TRIGGER record. -/
def trigClose (t : LogTrig) (s : State) : State :=
  let s := s.bringVt (w64 (160000000 + (t.t.toNat + t.post)))
  let s := flushGap (fun g => g.cause == 2) (s.modLgs fun l => { l with trigs := l.trigs.filter (·.id != t.id) })
  let (p, s) := trigSpan t s
  enterSystem 3 t.t 0
    (leBytes 4 t.id ++ leBytes 1 t.cls ++ leBytes 1 t.src ++ leBytes 2 0 ++ leBytes 8 t.pre ++ leBytes 8 t.post ++
      leBytes 8 p.1.toNat ++ leBytes 8 p.2.toNat ++ leBytes 8 0) s

def trigEnd (id : Nat) (s : State) : State :=
  match s.lgs.trigs.find? (·.id == id) with
  | some t => if trigServed id s.lgs then trigClose t s else s
  | none => s

/-- TRIGGER_CLOSE (R461). -/
def execTriggerClose (id : Nat) (s : State) : Res := act (s.nandUp && !s.logStopped) (trigEnd id) s

/-! ### Media (R452, R473 to R477) -/

/-- A segment moves to a free one of its region: its records keep seq and bytes, and its blocks are erased after the
table has switched (R475). -/
def relocate (k : Nat) (s : State) : State :=
  match s.lgs.fit, tabFind s.lgs.segs k with
  | some f, some g =>
    match freeSeg s.lgs f g.slc with
    | none => s
    | some k2 =>
      let move := fun (r : LogRec) => if r.seg == k && r.slc == g.slc then { r with seg := k2 } else r
      (s.emit (.nandHeader k2 (segHeader k2 { g with vt := s.now, gen := s.lgs.headGen }))).modLgs fun l => { l with
        segs := tabSet (tabDel l.segs k) k2 { g with vt := s.now, gen := l.headGen }
        recs := l.recs.map move
        programmed := l.programmed + 16 * (g.ofs - 256)
        toErase := l.toErase ++ (List.range (segBlocks f)).map (k * segBlocks f + ·) }
  | _, _ => s

/-- Highest and lowest erase count among the good blocks of chip enable `ce` (R475). -/
def wearSpan (l : LogStore) (f : NandFit) (ce : Nat) : Nat × Nat :=
  let bad := f.factoryBad ++ l.grown
  let mine := (l.erases.filter fun p => p.1 % (8 * f.ces) == ce && !bad.contains p.1).map (·.2)
  let all := f.luns * f.blocks - (bad.filter fun b => b % (8 * f.ces) == ce).length
  let hi := mine.foldl max 0
  (hi, if mine.length < all then 0 else mine.foldl min hi)

/-- A segment to relocate: it holds a grown bad block, or the lowest-count blocks of a chip enable whose counts differ by
more than 1/20 of the endurance figure (R474, R475). -/
def relocates (k : Nat) (s : State) : Bool :=
  match s.lgs.fit, tabFind s.lgs.segs k with
  | some f, some _ =>
    let blocks := (List.range (segBlocks f)).map (k * segBlocks f + ·)
    s.lgs.bulkSeg != some k && s.lgs.slcSeg != some k && !(s.lgs.placed.any fun p => p.seg == k) &&
    (blocks.any s.lgs.grown.contains ||
     (List.range (8 * f.ces)).any fun ce =>
       let w := wearSpan s.lgs f ce
       (lifeE s).1 < 20 * (w.1 - w.2) &&
       blocks.any fun b => b % (8 * f.ces) == ce && tabGet s.lgs.erases b 0 == w.2)
  | _, _ => false

/-- BLOCK_RELOCATION (R475). -/
def execBlockRelocation (k : Nat) (s : State) : Res := act (s.nandUp && relocates k s) (relocate k) s

/-- The segment in use that holds a block. -/
def segOfBlock (b : Nat) (l : LogStore) : Option Nat :=
  match l.fit with
  | some f => (l.segs.map (·.1)).find? fun k => k == b / segBlocks f
  | none => none

/-- A new pass begins 7 days of powered time after the last one ended (R476). -/
def scrubBegin (s : State) : State :=
  if s.lgs.scrubbing then s
  else (s.bringTo (7 * 86400 * 16000000000 + s.lgs.scrubDone)).modLgs fun l => { l with scrubbing := true, scrubbed := [] }

/-- A pass ends once every block in use has been read. -/
def scrubEnd (s : State) : State :=
  match s.lgs.fit with
  | none => s
  | some f =>
    let used := (s.lgs.segs.map fun g => (List.range (segBlocks f)).map (g.1 * segBlocks f + ·)).flatten
    if used.all s.lgs.scrubbed.contains then s.modLgs fun l => { l with scrubbing := false, scrubDone := s.time.mono } else s

/-- An uncorrectable codeword: LGS_UE, and one record of the segment is lost; the spec leaves open which (R452; log 7). -/
def loseRecord (k : Nat) (s : State) : State :=
  let s := raiseFault Src.lgsUe 0 unitNone (s.modLgs fun l => { l with uncorr := l.uncorr + 1 })
  let rs := s.lgs.recs.filter fun r => r.seg == k
  if rs.isEmpty then s
  else
    let (d, s) := s.draw
    match rs[d.toNat % rs.length]? with
    | some r => s.modLgs fun l => { l with lostRecs := setAdd l.lostRecs r.seq }
    | none => s

/-- A block needed read retry in a scrub pass, or did not: after 3 successive passes it is proposed (R527). -/
def retryRun (b : Nat) (retried : Bool) (s : State) : State :=
  let n := if retried then tabGet s.lgs.retryRuns b 0 + 1 else 0
  let s := s.modLgs fun l => { l with retryRuns := if n == 0 then tabDel l.retryRuns b else tabSet l.retryRuns b n }
  match s.lgs.fit with
  | some f => if 3 ≤ n then propose 8 0xFFFF 4 0 (nandDetail f b) s else s
  | none => s

/-- One block is read by the scrub: retries counted by channel, an uncorrectable codeword, soft-decision decoding a second
time making it a grown bad block, a weak block refreshed (R452, R474, R476). -/
def scrubBlock (b k : Nat) (softDecoded retried weak uncorrectable : Bool) (s : State) : State :=
  let s := (scrubBegin s).modLgs fun l => { l with scrubbed := setAdd l.scrubbed b }
  let s := retryRun b retried (if retried then s.modLgs fun l => { l with retries := tabMod l.retries (b % 8) 0 (· + 1) } else s)
  let s := if uncorrectable then loseRecord k s else s
  let s := if softDecoded then
      (if s.lgs.softOnce.contains b then growBad b s else s.modLgs fun l => { l with softOnce := setAdd l.softOnce b })
    else s
  let s := if weak then
      s.modLgs fun l => { l with
        refreshed := l.refreshed + 1
        programmed := l.programmed + (match l.fit with | some f => blockBytes f | none => 0) }
    else s
  scrubEnd s

def scrub (b : Nat) (softDecoded retried weak uncorrectable : Bool) (s : State) : State :=
  match segOfBlock b s.lgs with
  | some k => scrubBlock b k softDecoded retried weak uncorrectable s
  | none => s

/-- RETENTION_SCRUB (R476). -/
def execRetentionScrub (b : Nat) (softDecoded retried weak uncorrectable : Bool) (s : State) : Res :=
  act s.nandUp (scrub b softDecoded retried weak uncorrectable) s

/-- The oldest segment of a region that is neither open nor holds a record not yet committed. -/
def oldestSeg (slc : Bool) (l : LogStore) : Option (Nat × Segment) :=
  let c := l.segs.filter fun g => g.2.slc == slc && l.bulkSeg != some g.1 && l.slcSeg != some g.1 &&
    !(l.placed.any fun p => p.seg == g.1)
  c.foldl (fun (b : Option (Nat × Segment)) g => match b with
    | none => some g
    | some x => if g.2.firstSeq < x.2.firstSeq then some g else some x) none

/-- The oldest segment of a region with no free segment is erased, and its records are no longer retained (R477). -/
def reclaim (slc : Bool) (s : State) : State :=
  match s.lgs.fit, oldestSeg slc s.lgs with
  | some f, some (k, _) =>
    if (regionSegs s.lgs slc).all fun n => (tabFind s.lgs.segs n).isSome then
      let gone := (s.lgs.recs.filter fun r => r.seg == k).map (·.seq)
      s.modLgs fun l => { l with
        segs := tabDel l.segs k
        recs := l.recs.filter fun r => r.seg != k
        lostRecs := l.lostRecs.filter fun q => !gone.contains q
        toErase := l.toErase ++ (List.range (segBlocks f)).map (k * segBlocks f + ·) }
    else s
  | _, _ => s

/-- SEGMENT_RECLAIM (R477). -/
def execSegmentReclaim (slc : Bool) (s : State) : Res := act s.nandUp (reclaim slc) s

/-- A block erase ends: counted; one that fails makes a grown bad block (R474, R475). -/
def eraseDone (b : Nat) (pass : Bool) (s : State) : State :=
  if s.lgs.toErase.contains b then
    let s := s.modLgs fun l => { l with
      toErase := l.toErase.erase b, erases := tabMod l.erases b 0 (· + 1), softOnce := setDel l.softOnce b }
    lifeCheck (if pass then s else growBad b s)
  else s

/-- NAND_BLOCK_ERASE_COMPLETE (R474). -/
def execNandBlockEraseComplete (b : Nat) (pass : Bool) (s : State) : Res := act s.nandUp (eraseDone b pass) s

/-! ### Capsules (R522) -/

/-- The body of an FJ record. -/
def fjBody (first : Nat) (es : List JEntry) (lost : Nat) : List Byte :=
  leBytes 4 first ++ leBytes 4 es.length ++ leBytes 4 lost ++ leBytes 4 0 ++ (es.map journalBytes).flatten

/-- The oldest uncommitted capsule enters as an FJ record, one at a time; its commit frees the slot. -/
def capsuleEnter (s : State) : State :=
  match s.em.capsules with
  | [] => s
  | c :: _ =>
    if (s.lgs.urgent ++ s.lgs.placed ++ s.lgs.sysWait).any (·.capsule) then s
    else
      let first := match c.entries with | e :: _ => e.seq | [] => 0
      enterSys { sysRecord 4 c.vt 0 (fjBody first c.entries c.lost) s with info := qualCode c.quality, capsule := true } s

/-- CAPSULE_COMMIT (R522). -/
def execCapsuleCommit (s : State) : Res := act (s.nandUp && !s.logStopped) capsuleEnter s

/-- FJ_EXPORT's record of the entries not yet exported; in the safe state a capsule instead (R522). -/
def fjExport (q cid : Nat) (s : State) : State :=
  if s.fcu.safe then finish q cid 0 0xFFFFFFFF ((copyCapsule s).modFcu fun u => { u with exp := u.head })
  else
    let es := (journalHeld s.fcu).filter fun e => (e.seq + 2 ^ 32 - s.fcu.exp) % 2 ^ 32 < 2 ^ 31
    let first := match es with | e :: _ => e.seq | [] => s.fcu.exp
    let r := { sysRecord 4 s.now 0 (fjBody first es s.fcu.lost) s with waiter := some (q, cid) }
    (enterSys r s).modFcu fun u => { u with exp := u.head }

end Sys2Proof.Machine
end

