-- ==== Sys2Proof/Machine/Bridge.lean ====
section
/-! DEFINITION. The bridge links: training, lanes, the cube's shape and its lead, time distribution, remote windows from
outside (R484 to R505). -/
namespace Sys2Proof.Machine

/-! ### The cube (R484, R488, R489) -/

/-- Recompute hops to the lead and the upstream link: the lowest whose neighbour is nearer the lead (R488, R493). -/
def routes (s : State) : State :=
  let d := hopsFrom s s.brl.lead
  let own := hopsTo d s.cubeId
  let up := ([0, 1, 2, 3] : List Nat).find? fun k => s.linkUp k && hopsTo d (farEnd s.cubeId k) < own
  s.modBrl fun b => { b with hops := if own == 8 then 0 else own, up := up.getD 0 }

/-- Is a link the upstream one of a follower? -/
def isUpstream (k : Nat) (s : State) : Bool := s.isFollower && s.brl.up == k && s.brl.hops != 0

/-- The device R489 chooses among those present. -/
def electee (s : State) : Nat :=
  let here := (List.range 8).filter fun i => s.brl.present.getLsbD i
  ((here.find? fun i => s.brl.prefs.getLsbD i).orElse fun _ => here.head?).getD s.cubeId

/-- The lead role is at `d` (R489, R490, R491): a device that becomes the lead stops using BRL and goes on in the era it
followed; one that becomes a follower places BRL first. -/
def setLead (d : Nat) (s : State) : State :=
  let was := s.isFollower
  let s := s.modBrl fun b => { b with lead := d, leadKnown := true, lastMsg := s.time.mono, anchor := if b.lead == d then b.anchor else none }
  let s := routes s
  if was && !s.isFollower then
    sourcesChanged (s.modTime fun t => { t with era := t.leadEra.getD t.era, leadEra := none })
  else if s.isFollower then sourcesChanged s
  else s

def elect (s : State) : State := setLead (electee s) s

/-- This device counts itself present from the first election on. -/
def selfPresent (s : State) : State :=
  s.modBrl fun b => { b with
    present := putBit b.present s.cubeId true, prefs := putBit b.prefs s.cubeId (s.boot.straps.getLsbD 6) }

/-- BRL_READY_CHECK (R492): the election runs as READY_MAP.brl first sets. -/
def brlReady (s : State) : State := setReady Rdy.brl (elect (selfPresent s))
def execBrlReadyCheck (s : State) : Res :=
  act (s.fwUp && !s.ready Rdy.brl && ([0, 1, 2, 3] : List Nat).all fun k => (s.brLink k).state != 3) brlReady s

/-! ### Training and lanes (R485 to R488) -/

/-- Width and the lane the spare serves, by the lanes that may serve: lane 4 stands in for the lowest failed one; short of
four lanes the widest of x4, x2 and x1 (R487). -/
def linkShape (good : BitVec 5) : Nat × Nat :=
  let badData := ([0, 1, 2, 3] : List Nat).filter fun i => !good.getLsbD i
  let spare := if good.getLsbD 4 then (badData.head?).getD 7 else 7
  let n := popCount good
  (if badData.isEmpty || 4 ≤ n then 3 else if 2 ≤ n then 2 else if 1 ≤ n then 1 else 0, spare)

/-- Lanes that may serve: good ones that the policy has not retired. -/
def servingLanes (k : Nat) (bad : BitVec 5) (s : State) : BitVec 5 :=
  (List.range 5).foldl (fun g l => if s.unitOut 2 (5 * k + l) then putBit g l false else g) (~~~ bad)

/-- BRL_DOWN's cause: a link is DOWN (R488, R507). -/
def downCause (s : State) : State :=
  let downs := (([0, 1, 2, 3] : List Nat).filter fun k => (s.brLink k).state == 4)
  setCause Src.brlDown (!downs.isEmpty) (w64 ((downs.head?).getD 0)) s

/-- Give a link the shape its lanes allow; BRL_LANE where it is narrower than its data lanes. -/
def shapeLink (k : Nat) (bad : BitVec 5) (st : Nat) (s : State) : State :=
  let sh := linkShape (servingLanes k bad s)
  let s := s.setLink k fun l => { l with bad := bad, width := sh.1, spareFor := sh.2, state := st }
  if sh.1 < 3 then raiseFault Src.brlLane (w64 k) unitNone s else s

/-- A link trains (R485): its neighbour's ID is checked; new positions join the present mask, and the election runs over
the joined set (R491). -/
def trained (k nbr : Nat) (good : BitVec 5) (peer : Nat) (s : State) : State :=
  if nbr != farEnd s.cubeId k then
    raiseFault Src.brlTopo (w64 k) unitNone (s.setLink k fun l => { l with nbr := nbr % 8, nbrOk := false })
  else if (linkShape (servingLanes k (~~~ good) s)).1 == 0 then
    downCause (s.setLink k fun l => { l with state := 4, width := 0, bad := ~~~ good })
  else
    let s := shapeLink k (~~~ good) 2 (s.setLink k fun l => { l with nbr, nbrOk := true, exch := none, fresh := true })
    let was := s.brl.present
    let mask : BitVec 8 := putBit (BitVec.ofNat 8 peer) nbr true
    let s := selfPresent (s.modBrl fun b => { b with
      present := b.present ||| mask
      prefs := (b.prefs &&& ~~~ mask) ||| (BitVec.ofNat 8 (peer / 256) &&& mask) })
    let s := downCause s
    if s.ready Rdy.brl && s.brl.present != was then elect s else if s.brl.leadKnown then routes s else s

/-- BRL_TRAINING_COMPLETE (R485). -/
def execBrlTrainingComplete (k nbr : Nat) (good : BitVec 5) (peer : Nat) (s : State) : Res :=
  act (s.alive && k < 4 && ((s.brLink k).state == 1 || (s.brLink k).state == 4)) (trained k nbr good peer) s

/-- A lane fails (R487): one in service starts a retrain. -/
def laneFails (k lane : Nat) (s : State) : State :=
  let l := s.brLink k
  let bad := putBit l.bad lane true
  if (lanesInUse l).testBit lane || l.state == 3 then shapeLink k bad 3 s else s.setLink k fun l => { l with bad := bad }

/-- BRL_LANE_FAILURE (R487). -/
def execBrlLaneFailure (k lane : Nat) (s : State) : Res :=
  act (s.alive && k < 4 && lane < 5 && s.linkUp k) (laneFails k lane) s

/-- A retrain ends and frames in flight are replayed; the next sample does not count (R487, R495, R502). -/
def retrained (k replays : Nat) (s : State) : State :=
  s.setLink k fun l => { l with state := 2, replays := l.replays + replays, retrains := l.retrains + 1, fresh := true }

/-- BRL_RETRAIN_COMPLETE (R487). -/
def execBrlRetrainComplete (k replays : Nat) (s : State) : Res :=
  act (s.alive && k < 4 && (s.brLink k).state == 3 && (s.brLink k).width != 0) (retrained k replays) s

/-- The positions some path still reaches, of those the devices report. -/
def stillPresent (reported : BitVec 8) (s : State) : State :=
  selfPresent (s.modBrl fun b => { b with present := b.present &&& reported })

/-- A lead that has left the present mask is replaced by election (R489). -/
def leadCheck (s : State) : State :=
  if s.ready Rdy.brl && s.brl.leadKnown && !s.brl.present.getLsbD s.brl.lead then elect s
  else if s.brl.leadKnown then routes s
  else s

/-- A link that cannot train at x1 is DOWN (R488). -/
def linkDown (k : Nat) (present : Byte) (s : State) : State :=
  let s := downCause (s.setLink k fun l => { l with state := 4, width := 0 })
  leadCheck (stillPresent present s)

/-- BRL_LINK_DOWN (R488). -/
def execBrlLinkDown (k : Nat) (present : Byte) (s : State) : Res :=
  act (s.alive && k < 4 && s.linkUp k) (linkDown k present) s

/-- No time message for 500 us: the lead is lost, a new one is elected, BRL_LEAD_LOST (R489). -/
def leadLost (s : State) : State :=
  let s := s.bringTo (8000000 + s.brl.lastMsg)
  let s := s.modBrl fun b => { b with present := putBit b.present b.lead false }
  raiseFault Src.brlLeadLost 0 unitNone (elect s)

/-- LEAD_LOSS (R489). -/
def execLeadLoss (s : State) : Res := act (s.alive && s.ready Rdy.brl && s.isFollower) leadLost s

/-! ### Time distribution (R493 to R495) -/

def qualOf (c : Nat) : Quality := match c with | 0 => .free | 1 => .acquire | 2 => .locked | 3 => .holdover | _ => .lead

/-- Send a time message on a link, with this device's own t1. -/
def sendTime (m : BrlMsg) (k : Nat) (s : State) : State :=
  s.emit (.brlTime k { m with t1 := s.now, t4 := (s.brLink k).t4 })

/-- The lead's message. -/
def leadMsg (s : State) : BrlMsg :=
  { t1 := s.now, t4 := 0, quality := BitVec.ofNat 3 (qualCode s.quality), era := w8 s.time.era, anchorN := w64 s.stroke.anchorN
    anchorVt := s.stroke.anchorVt, periodNs := w32 s.stroke.period }

def timeSend (s : State) : State :=
  ([0, 1, 2, 3] : List Nat).foldl (fun s k => if (s.brLink k).state == 2 then sendTime (leadMsg s) k s else s) s

/-- BRL_TIME_MESSAGE_SEND (R493). -/
def execBrlTimeMessageSend (s : State) : Res :=
  act (s.alive && s.ready Rdy.brl && s.isLead && s.time.counting) timeSend s

/-- Mean delay d and offset of R494 in 1/16 vt, from the stamps of the exchange before and of this message. -/
def linkDelay (t1 t2 t3 t4 : W64) : Int := 8 * ((t4 - t1).toInt - (t3 - t2).toInt)
def linkOffset (t1 t2 : W64) (d a : Int) : Int := 16 * (t2 - t1).toInt - (d + a / 2)

/-- The BRL sample of one message from upstream: a change of the lead's era takes the servo back to ACQUIRE, from which it
steps (R149, R166); the first sample after a retrain does not count (R495). -/
def brlSample (k : Nat) (m : BrlMsg) (stamp : W64) (ofs : Int) (s : State) : State :=
  let fresh := (s.brLink k).fresh
  let era := m.era.toNat
  let turned := match s.time.leadEra with | some e => e != era | none => false
  let s := s.modTime fun t => { t with leadEra := some era, leadQual := qualOf m.quality.toNat }
  let s := (s.setLink k fun l => { l with fresh := false }).modBrl fun b => { b with lastOfs := ofs, samples := b.samples + 1 }
  let s := if turned && s.time.source == 4 && (s.time.servo == .locked || s.time.servo == .holdover) then goServo .acquire 4 s else s
  sample 4 stamp (ofs / 16) (!fresh && !turned) s

/-- A follower sends an upstream message on to every link whose neighbour is further from the lead. -/
def forwardTime (m : BrlMsg) (s : State) : State :=
  let d := hopsFrom s s.brl.lead
  ([0, 1, 2, 3] : List Nat).foldl (fun s k =>
    if (s.brLink k).state == 2 && hopsTo d s.cubeId < hopsTo d (farEnd s.cubeId k) then sendTime m k s else s) s

/-- A time message arrives (R493, R494): stamped, answered, and with the exchange before it a delay; from upstream also a
sample, the lead's anchor, and the message's way downstream. -/
def timeReceive (k : Nat) (m : BrlMsg) (s : State) : State :=
  let t2 := s.now
  let prev := (s.brLink k).exch
  let s := (s.setLink k fun l => { l with exch := some (m.t1, t2, t2) }).emit (.brlReply k t2 t2)
  let d : Option Int := prev.map fun e => linkDelay e.1 e.2.1 e.2.2 m.t4
  let s := match d with
    | some x => s.setLink k fun l => { l with dly := (x % 2 ^ 24).toNat }
    | none => s
  if isUpstream k s then
    let s := s.modBrl fun b => { b with lastMsg := s.time.mono, anchor := some (m.anchorN.toNat, m.anchorVt, m.periodNs.toNat) }
    let s := match d with
      | some x => brlSample k m t2 (linkOffset m.t1 t2 x (s.asym k)) s
      | none => s
    forwardTime m s
  else s

/-- BRL_TIME_MESSAGE_RECEIVE (R493). -/
def execBrlTimeMessageReceive (k : Nat) (m : BrlMsg) (s : State) : Res :=
  act (s.alive && k < 4 && (s.brLink k).state == 2 && s.time.counting) (timeReceive k m) s

/-- BRL_REPLY_RECEIVE (R494): stamped as t4 for the next message. -/
def execBrlReplyReceive (k : Nat) (s : State) : Res :=
  act (s.alive && k < 4 && (s.brLink k).state == 2) (fun s => s.setLink k fun l => { l with t4 := s.now }) s

/-! ### Remote windows from outside (R499, R500) -/

/-- DRAM and CSM are what an inbound access reaches (R381). -/
def inboundOk (addr : Nat) : Bool :=
  match target40 addr with
  | .dram _ | .csm _ _ => true
  | _ => false

/-- An access from another device is checked and performed as a local one (R500). -/
def inbound (k addr n : Nat) (data : Option (List Byte)) (s : State) : State :=
  let m : Master := .link k
  if !inboundOk addr then (decodeError data.isSome m addr s).emit (.brlAccessRsp k none)
  else match data with
    | some b =>
      let (ok, s) := write40 m 0 addr b s
      s.emit (.brlAccessRsp k (if ok then some [] else none))
    | none =>
      let (r, s) := read40 m 0 addr n s
      s.emit (.brlAccessRsp k r.all)

/-- REMOTE_WINDOW_ACCESS_IN (R500). -/
def execRemoteWindowAccessIn (k addr n : Nat) (data : Option (List Byte)) (s : State) : Res :=
  act (s.alive && k < 4 && (s.brLink k).state == 2 && addr < 2 ^ 40 && n ≤ 4096 && (match data with | some b => b.length == n | none => true))
    (inbound k addr n data) s

/-! ### What is reported (R503, R504) -/

/-- One device's 32 bytes of CUBE_STATUS. What a present device other than this one last told of itself is open to this
model (log 26). -/
def cubeDevice (d : Nat) (s : State) : List Byte × State :=
  let here := s.brl.present.getLsbD d
  let hops := hopsTo (hopsFrom s s.brl.lead) d
  if !here then (List.replicate 32 0, s)
  else
    let head := leBytes 1 1 ++ leBytes 1 (bit (s.brl.prefs.getLsbD d)) ++ leBytes 1 (if hops == 8 then 0 else hops)
    if d == s.cubeId then
      (head ++ leBytes 1 (qualCode s.quality) ++ leBytes 1 s.time.era ++ leBytes 1 s.stroke.profile ++ leBytes 2 0 ++
        leBytes 4 s.boot.readyMap.toNat ++ leBytes 4 (i32 s.brl.lastOfs).toNat ++ List.replicate 16 0, s)
    else
      let (a, s) := s.draw
      let (b, s) := s.draw
      (head ++ leBytes 1 (a.toNat % 5) ++ leBytes 1 (a.toNat / 256) ++ leBytes 1 (a.toNat / 65536 % 5) ++ leBytes 2 0 ++
        leBytes 4 (b.toNat % 2 ^ 20) ++ leBytes 4 (b.toNat / 2 ^ 32) ++ List.replicate 16 0, s)

def windowBytes (s : State) (w : Nat) : List Byte :=
  match tabFind s.brl.wins w with
  | some r => leBytes 1 r.cube ++ leBytes 3 0 ++ leBytes 4 (r.size / 4096) ++ leBytes 8 r.base
  | none => leBytes 1 0xFF ++ leBytes 15 0

/-- The 576 bytes of CUBE_STATUS (R503). -/
def cubeBytes (s : State) : List Byte × State :=
  let b := s.brl
  let head := leBytes 1 s.cubeId ++ leBytes 1 b.lead ++ leBytes 1 b.present.toNat ++ leBytes 1 b.up ++ leBytes 1 b.hops ++
    leBytes 3 0 ++ leBytes 8 b.leadStroke ++ leBytes 8 b.leadVt.toNat ++ List.replicate 40 0
  let r := (List.range 8).foldl (fun (acc : List Byte × State) d =>
    let (l, s) := cubeDevice d acc.2
    (acc.1 ++ l, s)) (([] : List Byte), s)
  (head ++ r.1 ++ ((List.range 16).map (windowBytes s)).flatten, r.2)

/-- Group 7 (R504). -/
def group7 (s : State) : List W32 :=
  let each := fun (o : Nat) => (List.range 4).map fun k => readBrl (0x40 * k + o) s
  [readBrl 0x100 s] ++ each 0 ++ each 4 ++ each 12 ++ [i32 s.brl.lastOfs, s.brl.samples, s.brl.timeouts] ++
  (List.range 16).map fun w => match tabFind s.brl.wins w with
    | some r => w32 (2 ^ 24 * r.cube + 2 ^ 23 + r.size / 4096)
    | none => 0

/-! ### Cube commands on the lead (R497) -/

/-- Complete a cube command from every device's report. -/
def cubeFinish (c : CubeCmd) (reports : List CubeReport) (s : State) : State :=
  let s := s.modBrl fun b => { b with cmds := b.cmds.erase c }
  let all := (c.own.toList ++ reports)
  let find := fun (d : Nat) => all.find? fun r => r.cubeId == d
  if c.opcode == 0x0001 then
    let bytes := (c.devs.map fun d => match find d with | some r => if r.status == 0 then r.data else [] | none => []).flatten
    let st := match c.own with | some r => r.status.toNat | none => Stat.noObject
    if st == 0 then finishRaw c.qp c.cid 0 (w32 bytes.length) c.vt c.ql (s.emit (.hostWrite c.buf bytes (s.fn (s.fnOf c.qp)).relaxed))
    else finishRaw c.qp c.cid st 0 c.vt c.ql s
  else
    let stat := fun (d : Nat) => match find d with | some r => r.status.toNat | none => Stat.noObject
    let bad := c.devs.filter fun d => stat d != 0
    match bad with
    | [] => finishRaw c.qp c.cid 0 (match c.own with | some r => r.result | none => 0) c.vt c.ql s
    | d :: _ => finishRaw c.qp c.cid (stat d) (w32 (bad.foldl (fun a i => a + 2 ^ i) 0)) c.vt c.ql s

/-- The oldest cube command whose own part is done completes once every other device still present has reported. -/
def cubeComplete (reports : List CubeReport) (s : State) : State :=
  match s.brl.cmds.find? fun c => c.own.isSome with
  | none => s
  | some c =>
    let others := reports.filter fun r => r.cubeId != s.cubeId && c.devs.contains r.cubeId
    if c.devs.all fun d => d == s.cubeId || !s.brl.present.getLsbD d || others.any fun r => r.cubeId == d
    then cubeFinish c others s else s

/-- CUBE_COMMAND_COMPLETE (R497). -/
def execCubeCommandComplete (reports : List CubeReport) (s : State) : Res :=
  act (s.alive && s.ready Rdy.brl) (cubeComplete reports) s

/-! ### A raise from elsewhere in the device (R511) -/

/-- FAULT_RAISE (R508, R511): the FCU takes a raise of an implemented source. -/
def execFaultRaise (id : Nat) (info : W64) (unit : W16) (s : State) : Res :=
  act (s.alive && s.fcu.running && srcImpl id) (raiseFault id info unit) s

/-! ### The delayed warm reset (R122) -/

/-- WARM_RESET_DELAY_EXPIRY: 10 us after the completion was written the warm reset starts. -/
def warmDelayEnd (s : State) : State :=
  match s.boot.warmDelay with
  | some m => askWarm 3 ((s.bringTo (160000 + m)).modBoot fun b => { b with warmDelay := none })
  | none => s
def execWarmResetDelayExpiry (s : State) : Res := act s.alive warmDelayEnd s

end Sys2Proof.Machine
end

