-- ==== Sys2Proof/Machine/Basut.lean ====
section
/-! DEFINITION. The Basut interpreter: the opcode table, the checks of R555, the start of a command, capo acceptance
(R107 to R122, R496, R554, R555). -/
namespace Sys2Proof.Machine

/-! ### Opcodes (R122, R120) -/

/-- A row of the opcode table: marked capo; may a VF issue it; does it run in the safe state (R120); its parameters as
(element size, count) in order; which of them is buf, and which of them names a QP-owned length. -/
structure OpInfo where
  capo   : Bool := false
  vf     : Bool := false
  safeOk : Bool := false
  fields : List (Nat × Nat) := []
  buf    : Option Nat := none
deriving DecidableEq, Repr

/-- A host buffer: u64 buf; u32 len. -/
def bufLen : List (Nat × Nat) := [(8, 1), (4, 1)]

/-- The opcode table of R122 with the lists of R120. -/
def opInfo (op : Nat) : Option OpInfo :=
  match op with
  | 0x0001 => some { vf := true, safeOk := true, fields := bufLen ++ [(4, 1)], buf := some 0 }
  | 0x0002 => some { vf := true, safeOk := true, fields := bufLen, buf := some 0 }
  | 0x0003 => some { vf := true, fields := [(4, 1), (8, 1), (8, 1), (2, 1), (2, 1), (2, 1), (1, 1), (1, 1), (2, 1), (2, 1)] }
  | 0x0004 => some { vf := true, fields := [(4, 1)] }
  | 0x0005 => some { vf := true, fields := [(4, 1), (4, 1), (2, 1), (1, 1), (1, 1), (2, 1), (2, 1)] }
  | 0x0006 => some { vf := true, safeOk := true, fields := [(4, 1), (8, 1)], buf := some 1 }
  | 0x0007 => some { vf := true, safeOk := true, fields := [(4, 1), (2, 1)] }
  | 0x0008 => some { safeOk := true, fields := [(4, 1)] }
  | 0x0100 => some { vf := true, safeOk := true }
  | 0x0101 => some { capo := true, fields := [(1, 8), (1, 1)] }
  | 0x0102 => some { capo := true, fields := [(4, 1), (4, 1), (2, 1)] }
  | 0x0103 => some { capo := true, fields := [(1, 1), (1, 1), (1, 8), (1, 1)] }
  | 0x0104 => some { capo := true, fields := [(8, 1), (4, 1), (1, 1)] }
  | 0x0105 => some { vf := true, fields := bufLen, buf := some 0 }
  | 0x0106 => some { vf := true, safeOk := true, fields := bufLen, buf := some 0 }
  | 0x0200 => some { fields := bufLen ++ [(1, 1)], buf := some 0 }
  | 0x0201 => some { capo := true, fields := [(1, 1)] }
  | 0x0202 => some { capo := true, fields := [(1, 1)] }
  | 0x0203 => some { capo := true, fields := [(4, 1)] }
  | 0x0204 => some { capo := true, fields := [(1, 1), (2, 1)] }
  | 0x0205 => some { vf := true, fields := bufLen, buf := some 0 }
  | 0x0300 => some { vf := true, fields := [(8, 1), (1, 1), (1, 1), (4, 1)] }
  | 0x0301 => some { capo := true, vf := true, fields := [(2, 1), (4, 1), (8, 1), (4, 1)] }
  | 0x0302 => some { capo := true, fields := bufLen, buf := some 0 }
  | 0x0303 => some { fields := [(1, 1), (1, 1)] }
  | 0x0400 => some { capo := true, fields := [(1, 1), (4, 1)] }
  | 0x0401 => some { vf := true, fields := [(8, 1), (8, 1), (1, 1)] }
  | 0x0402 => some { vf := true, safeOk := true, fields := [(8, 1), (8, 1), (4, 1), (4, 1)], buf := some 1 }
  | 0x0403 => some { capo := true, fields := [(1, 1), (1, 1), (1, 1)] }
  | 0x0404 => some { vf := true, safeOk := true, fields := bufLen, buf := some 0 }
  | 0x0405 => some {}
  | 0x0500 => some { capo := true, fields := [(1, 1), (1, 1)] ++ bufLen, buf := some 2 }
  | 0x0501 => some { capo := true, fields := [(1, 1), (1, 1), (8, 1), (8, 1), (4, 1)] }
  | 0x0502 => some { capo := true, fields := [(1, 1), (1, 1), (1, 1), (1, 1)] }
  | 0x0503 => some { capo := true, fields := (1, 1) :: bufLen, buf := some 1 }
  | 0x0504 => some { vf := true, fields := [(1, 1), (1, 1)] ++ bufLen, buf := some 2 }
  | 0x0600 => some { vf := true, fields := [(2, 1), (4, 1), (1, 1)] }
  | 0x0601 => some { vf := true, fields := [(2, 1)] }
  | 0x0602 => some { capo := true, fields := bufLen, buf := some 0 }
  | 0x0603 => some { capo := true, fields := (1, 1) :: bufLen, buf := some 1 }
  | 0x0604 => some { capo := true, fields := [(4, 1), (4, 1), (4, 1)] }
  | 0x0700 => some { fields := [(2, 1), (1, 1)] }
  | 0x0701 => some { fields := [(2, 1)] }
  | 0x0702 => some { safeOk := true }
  | 0x0703 => some { vf := true, safeOk := true, fields := bufLen, buf := some 0 }
  | 0x0704 => some { fields := [(2, 1), (1, 1), (1, 1)] }
  | 0x0800 => some { capo := true, fields := [(2, 1), (4, 1)] }
  | 0x0801 => some { capo := true, fields := [(2, 1)] }
  | 0x0802 => some { vf := true, safeOk := true, fields := bufLen, buf := some 0 }
  | 0x0803 => some { capo := true, fields := [(1, 1), (2, 1)] }
  | 0x0804 => some { capo := true, fields := [(1, 1), (2, 1)] }
  | 0x0805 => some { fields := [(1, 1), (1, 1)] }
  | 0x0806 => some { fields := (1, 1) :: bufLen, buf := some 1 }
  | 0x0900 => some { vf := true, safeOk := true, fields := (1, 32) :: bufLen, buf := some 1 }
  | 0x0901 => some { fields := [(2, 1), (4, 1), (4, 1)] }
  | 0x0902 => some { fields := [(1, 1), (4, 1)] }
  | 0x0A00 => some { vf := true, fields := bufLen, buf := some 0 }
  | 0x0A01 => some { capo := true, fields := [(1, 1)] }
  | 0x0A02 => some { capo := true, fields := [(1, 1), (1, 1), (8, 1), (8, 1)] }
  | _ => none

/-! ### Parameters (R108) -/

/-- Where each field lies: offset and size in bytes, each at the lowest multiple of its element size not below the end of
the one before. -/
def layFields : List (Nat × Nat) → Nat → List (Nat × Nat)
  | [], _ => []
  | (k, n) :: l, at' =>
    let o := (at' + k - 1) / k * k
    (o, k * n) :: layFields l (o + k * n)

/-- Bytes P+o to P+o+n−1 as a number. -/
def prm (sub : Sub) (o n : Nat) : Nat := bitsAt sub.params.toNat (8 * o) (8 * n)

/-- The i-th parameter of an opcode. -/
def arg (op i : Nat) (sub : Sub) : Nat :=
  match opInfo op with
  | none => 0
  | some f => match (layFields f.fields 0)[i]? with
    | some (o, n) => prm sub o n
    | none => 0

/-- A host buffer's address and the length after it. -/
def argBuf (op : Nat) (sub : Sub) : Nat := match opInfo op with | some f => (match f.buf with | some i => arg op i sub | none => 0) | none => 0
def argLen (op : Nat) (sub : Sub) : Nat := match opInfo op with | some f => (match f.buf with | some i => arg op (i + 1) sub | none => 0) | none => 0

/-- Bytes no field covers are 0. -/
def gapsZero (sub : Sub) : List (Nat × Nat) → Nat → Bool
  | [], at' => prm sub at' (48 - at') == 0
  | (o, n) :: l, at' => prm sub at' (o - at') == 0 && gapsZero sub l (o + n)

/-- Submission flags (R107). -/
def atCapo (sub : Sub) : Bool := sub.flags.getLsbD 0
def strictCapo (sub : Sub) : Bool := sub.flags.getLsbD 1
def fenced (sub : Sub) : Bool := sub.flags.getLsbD 2
def onCube (sub : Sub) : Bool := sub.flags.getLsbD 3

/-! ### The checks of R555 -/

/-- The READY_MAP bit of a sensor-port type. -/
def portBit (t : Nat) : Option Nat := match t with | 0 => some Rdy.csi | 1 => some Rdy.eth | 2 => some Rdy.can | 3 => some Rdy.spi | _ => none

/-- The gating bit of an EVT_BIND of a kind and source. -/
def bindBit (kind src : Nat) : Option Nat :=
  match kind with
  | 4 => match src / 4096 with
    | 0 => some Rdy.csi | 1 => some Rdy.csi | 2 => some Rdy.eth | 3 => some Rdy.can | 4 => some Rdy.spi
    | 5 => some Rdy.senTmr | 6 => some Rdy.pps | 7 => some Rdy.trig | _ => none
  | 5 => some Rdy.senTmr
  | 6 => some Rdy.fcu
  | 7 => some Rdy.lgsRead
  | 8 => some Rdy.pcieAdmin
  | _ => none

/-- The gating bit (R554); none where the parameters that choose it name none. -/
def gateOf (op : Nat) (sub : Sub) : Option Nat :=
  match op with
  | 0x0003 | 0x0301 => some Rdy.dram
  | 0x0100 | 0x0106 => some Rdy.vt
  | 0x0101 | 0x0102 | 0x0105 => some Rdy.servo
  | 0x0103 => some Rdy.gptp
  | 0x0104 => some Rdy.pps
  | 0x0501 => some Rdy.trig
  | 0x0500 | 0x0502 | 0x0504 => portBit (arg op 0 sub)
  | 0x0503 => some Rdy.eth
  | 0x0600 => bindBit (arg op 2 sub) (arg op 0 sub)
  | 0x0602 | 0x0603 | 0x0604 => some Rdy.senTmr
  | 0x0200 | 0x0201 | 0x0300 => some Rdy.plan
  | 0x0402 | 0x0404 => some Rdy.lgsRead
  | 0x0400 | 0x0403 | 0x0401 | 0x0405 | 0x0702 => some Rdy.lgsWrite
  | 0x0700 | 0x0701 | 0x0703 | 0x0704 => some Rdy.fcu
  | 0x0802 | 0x0803 | 0x0804 | 0x0805 => some Rdy.health
  | 0x0900 => some Rdy.attest
  | 0x0A00 | 0x0A01 | 0x0A02 => some Rdy.brl
  | _ => some Rdy.pcieAdmin

/-- May the function issue it (R112, R120, R128, R198, R490)? The test commands of R120 run in the Service profile alone;
a follower takes LEAD_SET from the lead alone. -/
def mayIssue (f : OpInfo) (op q : Nat) (sub : Sub) (s : State) : Bool :=
  let v := s.fnOf q
  (v == 0 || (f.vf && (match op with
    | 0x0001 => arg op 2 sub &&& 0xBC == 0
    | 0x0600 => arg op 2 sub != 6 && arg op 2 sub != 8
    | 0x0601 => (match tabFind s.link.binds (arg op 0 sub) with | some b => s.fnOf b.qp == v | none => true)
    | 0x0301 => (let x := tabGet s.ports.streams (arg op 0 sub) {}; x.ring.isNone || x.owner == v)
    | _ => true))) &&
  (!onCube sub || s.isLead) &&
  (match op with
    | 0x0203 => !s.isFollower
    | 0x0A01 => !s.isFollower || q == cubeQp
    | 0x0704 => s.stroke.profile == 4
    | 0x0803 | 0x0804 => s.stroke.profile == 4 || !(arg op 0 sub == 3 || arg op 0 sub == 4)
    | _ => true)

/-- Reserved parameter bits are 0 (R86, R122, R128, R418). -/
def bitsFree (op : Nat) (sub : Sub) : Bool :=
  match op with
  | 0x0001 => arg op 2 sub < 256
  | 0x0003 => arg op 6 sub < 16
  | 0x0005 => arg op 1 sub < 32 && arg op 3 sub < 16
  | 0x0604 => arg op 1 sub < 256 && arg op 2 sub < 65536
  | _ => true

/-- Step 4: the form (R107, R108, R117). -/
def formOk (f : OpInfo) (op : Nat) (sub : Sub) : Bool :=
  sub.flags.toNat < 16 && sub.rsvd == 0 && gapsZero sub (layFields f.fields 0) 0 && argBuf op sub % 64 == 0 &&
  (f.capo || (!atCapo sub && !strictCapo sub)) && bitsFree op sub && (gateOf op sub).isSome

/-- Steps 1 to 6 of R555: the status of the first check that fails, 0 where all pass. -/
def checkCmd (op q : Nat) (sub : Sub) (s : State) : Nat :=
  if sub.tag == 0xFFFF then Stat.invalidField
  else match opInfo op with
    | none => Stat.invalidOpcode
    | some f =>
      if !mayIssue f op q sub s then Stat.accessDenied
      else if !formOk f op sub then Stat.invalidField
      else if s.fcu.safe && !f.safeOk then Stat.safeState
      else if !s.ready ((gateOf op sub).getD Rdy.pcieAdmin) then Stat.notReady
      else 0

/-! ### The start of a command (R114, R121) -/

def setPhase (q cid : Nat) (p : CmdPhase) (s : State) : State :=
  s.setQp q fun c => { c with cmds := c.cmds.map fun m => if m.cid == cid then { m with phase := p } else m }

def isDone (m : Cmd) : Bool := match m.phase with | .done _ => true | _ => false

/-- The oldest command of a QP fetched and not started: no later one starts before it (log 6). -/
def nextCmd (q : Nat) (s : State) : Option Cmd := (s.qp q).cmds.find? fun m => m.phase == .fetched

/-- Every command before this one has completed. -/
def earlierDone (q cid : Nat) (s : State) : Bool := ((s.qp q).cmds.takeWhile fun m => m.cid != cid).all isDone

/-- The objects a command acts on, where a later command of the SQ can act on one before it (R114; log 142): 0 a plan slot, 1 a
QP, 2 a sensor port, 3 the target of an image, 4 a spare unit. -/
def objectsOf (op : Nat) (sub : Sub) : List (Nat × Nat) :=
  match op with
  | 0x0200 => [(0, arg op 2 sub)]
  | 0x0201 => [(0, arg op 0 sub)]
  | 0x0003 | 0x0004 | 0x0005 | 0x0006 => [(1, arg op 0 sub)]
  | 0x0301 | 0x0600 => [(1, arg op 1 sub)]
  | 0x0500 | 0x0502 | 0x0504 => [(2, 256 * arg op 0 sub + arg op 1 sub)]
  | 0x0503 => [(2, 256 + arg op 0 sub)]
  | 0x0806 => [(3, arg op 0 sub)]
  | 0x0303 => [(4, 13 * arg op 0 sub + arg op 1 sub)]
  | 0x0803 | 0x0804 => [(4, 65536 * arg op 0 sub + arg op 1 sub)]
  | _ => []

/-- No earlier command of the SQ still has to act on an object of this one; a capo command acts at the capo it names (R117). -/
def objectsFree (q cid op : Nat) (sub : Sub) (s : State) : Bool :=
  (match opInfo op with | some f => f.capo | none => false) ||
  ((s.qp q).cmds.takeWhile fun m => m.cid != cid).all fun m =>
    isDone m || (objectsOf m.opcode m.sub).all fun o => !(objectsOf op sub).contains o

/-- The command that starts: the oldest one fetched, where it is this one and its turn has come (R114). -/
def claim (q op : Nat) (sub : Sub) (s : State) : Option (Nat × State) :=
  match nextCmd q s with
  | some m =>
    if m.opcode == op && m.sub == sub && (!fenced sub || earlierDone q m.cid s) && objectsFree q m.cid op sub s then
      some (m.cid, setPhase q m.cid .started s)
    else none
  | none => none

/-- Entries the device can answer without a row of their own: a tag of 0xFFFF, an opcode of no row (R109, R113). They are
refused as they are taken in their turn. -/
def refuseUnknown (q : Nat) (s : State) : State :=
  (s.qp q).cmds.foldl (fun s m =>
    if m.phase == .fetched && (m.sub.tag == 0xFFFF || (opInfo m.opcode).isNone) then
      finish q m.cid (if m.sub.tag == 0xFFFF then Stat.invalidField else Stat.invalidOpcode) 0 s
    else s) s

/-! ### Cube commands (R496, R497) -/

/-- What a command does once its checks have passed: its QP, its number, its parameters. -/
abbrev Body := Nat → Nat → Sub → State → State

def ownDone (q cid : Nat) (s : State) : Option CubeCmd :=
  s.brl.cmds.find? fun c => c.qp == q && c.cid == cid && (match c.own with | some r => r.status != 0 | none => false)

def dropCube (q cid : Nat) (s : State) : State :=
  s.modBrl fun b => { b with cmds := b.cmds.filter fun c => !(c.qp == q && c.cid == cid) }

/-- A cube command on the lead: its own part runs; unless that is refused at once, it goes to every other device present. -/
def runCube (q cid op : Nat) (sub : Sub) (body : Body) (s : State) : State :=
  let devs := (List.range 8).filter fun i => s.brl.present.getLsbD i || i == s.cubeId
  let others := devs.filter (· != s.cubeId)
  if others.isEmpty then body q cid sub s
  else
    let c : CubeCmd := { qp := q, cid, opcode := op, buf := w64 (argBuf op sub), devs }
    let s := body q cid sub (s.modBrl fun b => { b with cmds := b.cmds ++ [c] })
    match ownDone q cid s with
    | some c => match c.own with
      | some r => finishRaw q cid r.status.toNat r.result c.vt c.ql (dropCube q cid s)
      | none => s
    | none => others.foldl (fun s d => s.emit (.brlCommand d (w16 op) sub)) s

/-- The submission as it is forwarded: a SNAPSHOT that names no stroke, or one that has begun, names the lead's next stroke to
every device (R128, R496). -/
def cubeSub (op : Nat) (sub : Sub) (s : State) : Sub :=
  if op == 0x0001 && s.stroke.started && sub.stroke.toNat ≤ s.stroke.num then { sub with stroke := w64 (s.stroke.num + 1) } else sub

/-- Check a started command, and do what it does. -/
def perform (q cid op : Nat) (sub : Sub) (body : Body) (s : State) : State :=
  match checkCmd op q sub s with
  | 0 => if onCube sub then runCube q cid op (cubeSub op sub s) body s else body q cid sub s
  | st => finish q cid st 0 s

/-- A Basut command's row: the command starts where it is its turn, and is checked and performed (R114, R555). -/
def basut (op q : Nat) (sub : Sub) (body : Body) (s : State) : State :=
  match claim q op sub s with
  | some (cid, s) => perform q cid op sub body s
  | none => s

/-- May a Basut row occur now: firmware serves the function's queues (R90, R118). -/
def basutUp (q : Nat) (s : State) : Bool := s.adminUp (s.fnOf q) && q < 2 ^ 20

/-- The answer of a row without data from the host. -/
def runBasut (op q : Nat) (sub : Sub) (body : Body) (s : State) : Res := act (basutUp q s) (basut op q sub body) s

/-- The host data of a row that reads a buffer: as many bytes as len, or none for a failed read. -/
def dataFits (op : Nat) (sub : Sub) (data : Option (List Byte)) : Bool :=
  match data with
  | some d => d.length == argLen op sub
  | none => true

/-- The body of a command that reads its buffer; a failed read ends it (R105, R113). -/
def withData (data : Option (List Byte)) (f : List Byte → Body) : Body := fun q cid sub s =>
  match data with
  | some d => f d q cid sub s
  | none => finish q cid Stat.dataXfer 0 s

/-! ### What bodies share -/

/-- Complete with success, or with a status, and a result word. -/
def succeed (q cid res : Nat) (s : State) : State := finish q cid 0 (w32 res) s
def refuse (q cid st : Nat) (s : State) : State := finish q cid st 0 s

/-- Data written into the host's buffer (R115); a follower has no buffer of the lead's host. -/
def writeHost (q buf : Nat) (bytes : List Byte) (s : State) : State :=
  if q == cubeQp then s else s.emit (.hostWrite (w64 buf) bytes (s.fn (s.fnOf q)).relaxed)

/-- A command that writes a fixed record: BUF_SHORT with the length needed where len is less (R113). -/
def answerBytes (op q cid : Nat) (sub : Sub) (bytes : List Byte) (s : State) : State :=
  if argLen op sub < bytes.length then finish q cid Stat.bufShort (w32 bytes.length) s
  else succeed q cid bytes.length (writeHost q (argBuf op sub) bytes s)

/-- Words captured at the last boundary; before the first, zeros (log 1). -/
def fillWords (n : Nat) (l : List W32) : List W32 := l ++ List.replicate (n - l.length) 0

/-- A QP number of the issuing function as a global one (R85). -/
def ownQp (q l : Nat) (s : State) : Option Nat :=
  let v := s.fnOf q
  let g := globalQp v l
  if l < (if v == 0 then 1048576 else 16384) && s.fnOf g == v then some g else none

/-- A QP that exists. -/
def liveQp (q l : Nat) (s : State) : Option Nat :=
  match ownQp q l s with
  | some g => if (s.qp g).state == .free then none else some g
  | none => none

/-! ### Capo acceptance (R117, R496) -/

/-- The fret by which a capo command is accepted. -/
def cutFret (cube : Bool) : Nat := if cube then 56 else 60

/-- The first stroke whose boundary a command accepted now can meet. -/
def firstMeet (cube : Bool) (s : State) : Nat :=
  if !s.stroke.started then 0 else if s.fretNow < cutFret cube then s.stroke.num + 1 else s.stroke.num + 2

/-- Is the stroke named too far ahead? R117 does not say whether a stroke field names a stroke where at_capo is clear: DESIGN
CHOICE, a field more than 2^32 ahead is refused there too (log 150). -/
def tooFar (sub : Sub) (s : State) : Bool := s.stroke.num + 2 ^ 32 < sub.stroke.toNat

/-- A capo command that has passed its checks waits for its boundary. -/
def acceptCapo (cmd : Instr) (q cid : Nat) (sub : Sub) (s : State) : State :=
  let cube := onCube sub
  let target := if atCapo sub then sub.stroke.toNat else 0
  let strict := strictCapo sub && target != 0
  if strict && target < firstMeet cube s then finish q cid Stat.capoMissed 0 s
  else
    let i : CapoItem := { qp := q, cid, cmd, stroke := s.stroke.num, fret := s.fretNow, mono := s.time.mono, target, strict, cube }
    s.modBasut fun b => { b with capo := b.capo ++ [i] }

/-- What a change answers at its capo: a status and a result, or that its completion comes later (R530, R538). -/
inductive CapoAns where
  | done (status result : Nat) | wait
deriving DecidableEq, Repr

/-- A change made at its capo. -/
abbrev Change := Sub → State → CapoAns × State

def applied (s : State) : CapoAns × State := (.done 0 0, s)
def notApplied (st : Nat) (s : State) : CapoAns × State := (.done st 0, s)

/-- A capo command's body: the stroke named, then the command's own checks at acceptance, then the wait. -/
def capoBody (cmd : Instr) (check : Sub → State → Nat) : Body := fun q cid sub s =>
  if tooFar sub s then refuse q cid Stat.invalidField s
  else match check sub s with
    | 0 => acceptCapo cmd q cid sub s
    | st => refuse q cid st s

end Sys2Proof.Machine
end

