-- ==== Sys2Proof/Machine/HostCmds.lean ====
section
/-! DEFINITION. The host, queue, binding and security commands (R85 to R87, R90, R100, R103, R112, R121 to R128, R423, R424,
R479). -/
namespace Sys2Proof.Machine

/-- SQ_READ_COMPLETION (R89, R105, R107): the 64-byte entries asked for, or poisoned data, UR or CA. Those of no row are answered
as they come. -/
def execSqReadCompletion (q : Nat) (d : SqData) (s : State) : Res :=
  let n := (s.qp q).reading
  act (0 < n && (match d with | .bytes l => l.length == 64 * n | _ => true)) (fun s => refuseUnknown q (readDone q d s)) s

/-! ### SNAPSHOT and IDENTIFY (R126, R128) -/

/-- Words of a snapshot group (R127). -/
def groupWords (g : Nat) : Nat := match g with | 0 => 16 | 1 => 48 | 6 => 32 | 7 => 32 | _ => 64

/-- Bytes of one header-and-data block. -/
def snapSize (groups : Nat) : Nat :=
  64 + (List.range 8).foldl (fun (a : Nat) g => if groups.testBit g then a + 4 * groupWords g else a) 0

/-- How many blocks a SNAPSHOT writes (R128). -/
def snapBlocks (sub : Sub) (s : State) : Nat :=
  if onCube sub then max 1 (popCount s.brl.present) else 1

def bodySnapshot : Body := fun q cid sub s =>
  let groups := arg 0x0001 2 sub
  let need := snapSize groups * snapBlocks sub s
  if groups == 0 || tooFar sub s then refuse q cid Stat.invalidField s
  else if q != cubeQp && argLen 0x0001 sub < need then finish q cid Stat.bufShort (w32 need) s
  else
    let w : SnapWait := { qp := q, cid, fn := s.fnOf q, buf := w64 (argBuf 0x0001 sub), groups, target := sub.stroke.toNat, cube := onCube sub || q == cubeQp }
    s.modBasut fun b => { b with snaps := b.snaps ++ [w] }

/-- SNAPSHOT (R128). -/
def execSnapshot (q : Nat) (sub : Sub) (s : State) : Res := runBasut 0x0001 q sub bodySnapshot s

/-- Zero bytes. -/
def zeroBytes (n : Nat) : List Byte := List.replicate n 0

/-- Raw NAND capacity in bytes (R450). -/
def nandCapacity (f : NandFit) : Nat := 8 * f.ces * f.luns * f.blocks * f.pages * 16384

/-- The identity words at BAR0 0x00 to 0x3F of a function. -/
def identWords (v : Nat) (s : State) : List Byte := (List.range 16).flatMap fun i => leBytes 4 (readIdent v (4 * i) s).1.toNat

/-- Width in bytes and value of each field of a record, as bytes in order. -/
def fieldBytes : List (Nat × Nat) → List Byte
  | [] => []
  | (n, x) :: l => leBytes n x ++ fieldBytes l

/-- The NAND fit as IDENTIFY shows it: 0 until READY_MAP.lgs_read. -/
def nandShown (s : State) : Option NandFit := if s.ready Rdy.lgsRead then s.lgs.fit else none
def nandGeom (f : NandFit) : Nat := f.ces + 256 * f.luns + 65536 * f.planes

/-- IDENTIFY's fields from 0x70 up (R126). -/
def identFields (v : Nat) (s : State) : List (Nat × Nat) :=
  let floor := fun i => ((s.fuses.floors.toList[i]?).getD 0).toNat
  [(4, s.boot.fwSvn.toNat), (2, s.boot.patchLevel), (2, 0), (4, floor 1), (4, floor 2), (4, floor 3), (4, floor 4),
    (1, s.fuses.revoked.toNat), (1, s.boot.fwKey), (2, 0), (4, if s.ready Rdy.dram then (dramCfg s).toNat else 0),
    (8, ((nandShown s).map nandCapacity).getD 0), (4, ((nandShown s).map nandGeom).getD 0), (4, v + 65536 * s.link.numVfs),
    (4, (readIdent v 0x108 s).1.toNat), (4, s.boot.straps.toNat), (4, s.boot.readyMap.toNat), (4, s.boot.courseReady.toNat)]

/-- The 4,096 bytes of IDENTIFY (R126). -/
def identifyBytes (v : Nat) (s : State) : List Byte :=
  let name : List Byte := [0x5A, 0x4C, 0x4D, 0x2D, 0x33, 0x31, 0x39, 0x32]
  identWords v s ++ name ++ zeroBytes 8 ++ ((List.range 32).map Config.fwVersion) ++ fieldBytes (identFields v s) ++ zeroBytes 3920

def bodyIdentify : Body := fun q cid sub s => answerBytes 0x0002 q cid sub (identifyBytes (s.fnOf q) s) s

/-- IDENTIFY (R126). -/
def execIdentify (q : Nat) (sub : Sub) (s : State) : Res := runBasut 0x0002 q sub bodyIdentify s

/-! ### Queue pairs (R86, R87, R90, R100, R103) -/

/-- Pins one more context would exceed the limit (R87). -/
def pinsFull (s : State) : Bool := 1024 ≤ s.pinned

/-- A context enters the cache without an access counted. -/
def cacheIn (q : Nat) (s : State) : State :=
  if (s.qp q).pin then s.modLink fun l => { l with cache := (l.cache.filter (· != q)).take (4096 - s.pinned) }
  else s.modLink fun l => { l with cache := (q :: l.cache.filter (· != q)).take (4096 - s.pinned) }

/-- The context QP_CREATE's parameters describe; the phase is the device's own (R86, R95). -/
def ctxOf (sub : Sub) : Qp :=
  let fl := arg 0x0003 6 sub
  { sqBase := w64 (arg 0x0003 1 sub), cqBase := w64 (arg 0x0003 2 sub), sqDepthM1 := arg 0x0003 3 sub, cqDepthM1 := arg 0x0003 4 sub
    vector := arg 0x0003 5 sub, state := .active, pin := fl.testBit 0, intrEn := fl.testBit 1, evtEn := fl.testBit 2
    weight := arg 0x0003 7 sub, modCount := arg 0x0003 8 sub, modTime := arg 0x0003 9 sub }

/-- Fields in range (R86). -/
def ctxOk (c : Qp) : Bool :=
  c.sqBase.toNat % 4096 == 0 && c.cqBase.toNat % 4096 == 0 && 1 ≤ c.sqDepthM1 && 1 ≤ c.cqDepthM1 && (!c.evtEn || 3 ≤ c.cqDepthM1) &&
  c.vector < 2048 && 1 ≤ c.weight

def bodyQpCreate : Body := fun q cid sub s =>
  let l := arg 0x0003 0 sub
  let c := ctxOf sub
  match ownQp q l s with
  | none => refuse q cid Stat.invalidField s
  | some g =>
    if l == 0 || !ctxOk c then refuse q cid Stat.invalidField s
    else if (s.qp g).state != .free then refuse q cid Stat.busy s
    else if c.pin && pinsFull s then refuse q cid Stat.exhausted s
    else succeed q cid 0 (cacheIn g (s.setQp g fun _ => c))

/-- QP_CREATE (R86, R87). -/
def execQpCreate (q : Nat) (sub : Sub) (s : State) : Res := runBasut 0x0003 q sub bodyQpCreate s

def bodyQpDelete : Body := fun q cid sub s =>
  let l := arg 0x0004 0 sub
  if l == 0 || ownQp q l s == some q then refuse q cid Stat.invalidField s
  else match liveQp q l s with
    | none => refuse q cid Stat.noObject s
    | some g =>
      if (s.qp g).state == .deleting then refuse q cid Stat.busy s
      else startDelete (some (q, cid)) g s

/-- QP_DELETE (R103): its completion comes when the deleted QP has none left. -/
def execQpDelete (q : Nat) (sub : Sub) (s : State) : Res := runBasut 0x0004 q sub bodyQpDelete s

/-- Does a binding or a bound stream name this QP (R100)? -/
def boundTo (g : Nat) (s : State) : Bool :=
  s.link.binds.any (fun b => b.2.qp == g) || s.ports.streams.any fun x => match x.2.ring with | some (_, _, q) => q == g | none => false

/-- What QP_MODIFY's mask makes of a context. -/
def modified (sub : Sub) (c : Qp) : Qp :=
  let m := arg 0x0005 1 sub
  let fl := arg 0x0005 3 sub
  { c with
    vector := if m.testBit 0 then arg 0x0005 2 sub else c.vector
    pin := if m.testBit 1 then fl.testBit 0 else c.pin
    intrEn := if m.testBit 1 then fl.testBit 1 else c.intrEn
    evtEn := if m.testBit 1 then fl.testBit 2 else c.evtEn
    weight := if m.testBit 2 then arg 0x0005 4 sub else c.weight
    modCount := if m.testBit 3 then arg 0x0005 5 sub else c.modCount
    modTime := if m.testBit 4 then arg 0x0005 6 sub else c.modTime }

/-- The status of a QP_MODIFY of an ACTIVE QP (R87, R100). -/
def modifyStatus (g : Nat) (c n : Qp) (s : State) : Nat :=
  if !ctxOk n then Stat.invalidField
  else if c.evtEn && !n.evtEn && boundTo g s then Stat.busy
  else if !c.evtEn && n.evtEn && c.free < c.owed + 1 then Stat.busy
  else if !c.pin && n.pin && pinsFull s then Stat.exhausted
  else 0

def bodyQpModify : Body := fun q cid sub s =>
  if arg 0x0005 0 sub == 0 && arg 0x0005 1 sub % 8 != 0 then refuse q cid Stat.invalidField s
  else match liveQp q (arg 0x0005 0 sub) s with
    | none => refuse q cid Stat.noObject s
    | some g =>
      let c := s.qp g
      if c.state != .active then refuse q cid Stat.busy s
      else match modifyStatus g c (modified sub c) s with
        | 0 => succeed q cid 0 ((if s.isAdmin g then fun (s : State) => s else cacheIn g) (s.setQp g (modified sub)))
        | st => refuse q cid st s

/-- QP_MODIFY (R90, R100). -/
def execQpModify (q : Nat) (sub : Sub) (s : State) : Res := runBasut 0x0005 q sub bodyQpModify s

def qpStateCode : QpState → Nat
  | .free => 0 | .active => 1 | .faulted => 2 | .deleting => 3

/-- The 64 bytes of a context (R86). -/
def ctxFields (c : Qp) : List (Nat × Nat) :=
  [(8, c.sqBase.toNat), (8, c.cqBase.toNat), (2, c.sqDepthM1), (2, c.cqDepthM1), (2, c.vector), (1, qpStateCode c.state),
    (1, bit c.pin + 2 * bit c.intrEn + 4 * bit c.evtEn + 8 * bit c.phase), (2, c.sqHead), (2, c.sqTail), (2, c.cqTail), (2, c.cqHead),
    (2, c.modCount), (2, c.modTime), (2, c.owed), (1, c.weight), (1, 0), (4, c.dropCount), (4, c.qfTotal), (8, c.firstDrop.toNat), (8, 0)]
def ctxBytes (c : Qp) : List Byte := fieldBytes (ctxFields c)

def bodyQpQuery : Body := fun q cid sub s =>
  match liveQp q (arg 0x0006 0 sub) s with
  | none => refuse q cid Stat.noObject s
  | some g => succeed q cid 64 (writeHost q (argBuf 0x0006 sub) (ctxBytes (s.qp g)) s)

/-- QP_QUERY (R86, R90). -/
def execQpQuery (q : Nat) (sub : Sub) (s : State) : Res := runBasut 0x0006 q sub bodyQpQuery s

def bodyAbort : Body := fun q cid sub s =>
  match liveQp q (arg 0x0007 0 sub) s with
  | none => refuse q cid Stat.noObject s
  | some g =>
    match (s.qp g).cmds.find? fun m => m.phase == .fetched && m.sub.tag.toNat == arg 0x0007 1 sub with
    | some m => succeed q cid 1 (finish g m.cid Stat.aborted 0 s)
    | none => succeed q cid 0 s

/-- ABORT (R121). -/
def execAbort (q : Nat) (sub : Sub) (s : State) : Res := runBasut 0x0007 q sub bodyAbort s

def bodyWarmReset : Body := fun q cid sub s =>
  if arg 0x0008 0 sub != 0x5A17 then refuse q cid Stat.invalidField s
  else
    let s := if q == cubeQp then s.modBoot fun b => { b with warmDelay := some s.time.mono } else s
    succeed q cid 0 s

/-- WARM_RESET (R122): the reset follows 10 us after the completion is written. -/
def execWarmReset (q : Nat) (sub : Sub) (s : State) : Res := runBasut 0x0008 q sub bodyWarmReset s

/-! ### Bindings (R112, R423, R424, R479) -/

/-- Ports of a type (R424, R434). -/
def portCount (ty : Nat) : Nat := if ty < 2 then 8 else if ty < 4 then 4 else 0

/-- Is the source of a kind-4 binding in R424's table, its type aside? -/
def eventSrcOk (src : Nat) : Bool :=
  let port := bitsAt src 8 4
  match src / 4096 with
  | 0 | 1 => port < 8 && bitsAt src 4 4 == 0
  | 2 => port < 8 && bitsAt src 6 2 == 0
  | 3 => port < 4 && bitsAt src 5 3 == 0
  | 4 => port < 4 && bitsAt src 0 8 == 0
  | 5 => src % 4096 < 48
  | 6 => src % 4096 == 0
  | 7 => src % 4096 < 16
  | _ => false

/-- The source of a kind-5 binding (R423). -/
def timerSrcOk (src : Nat) : Bool :=
  match src / 16384 with
  | 0 => src % 16384 < 64
  | 1 => bitsAt src 10 4 == 0 && bitsAt src 2 8 < 160
  | 2 => bitsAt src 10 4 == 0 && bitsAt src 1 1 == 0 && bitsAt src 2 8 < 160
  | _ => false

def bindSrcOk (kind src : Nat) : Bool :=
  match kind with
  | 4 => eventSrcOk src
  | 5 => timerSrcOk src
  | 6 => src < 4096 || src == 0xFFFF
  | 7 => src ≤ 0x13
  | 8 => src < 16 || src == 0xFFFF
  | _ => false

/-- Is the limit of a kind reached? Kinds 6 and 8 share theirs. -/
def bindsFull (kind : Nat) (s : State) : Bool :=
  let n := (s.link.binds.filter fun b => b.2.kind == kind || (b.2.kind == 6 && kind == 8) || (b.2.kind == 8 && kind == 6)).length
  match kind with
  | 4 => 4096 ≤ n
  | 5 => 1024 ≤ n
  | _ => 256 ≤ n

/-- The first handle from `h` on that no binding holds, within `fuel` tries. -/
def freshHandle (t : Tab Binding) : Nat → Nat → Nat
  | 0, h => h % 65536
  | n + 1, h => if (tabFind t (h % 65536)).isNone then h % 65536 else freshHandle t n (h + 1)

/-- The checks of R112 in their order; the QP where all pass. -/
def bindCheck (q : Nat) (sub : Sub) (s : State) : Except Nat Nat :=
  let src := arg 0x0600 0 sub
  let kind := arg 0x0600 2 sub
  if !bindSrcOk kind src then .error Stat.invalidField
  else if kind == 6 && src != 0xFFFF && !srcImpl src then .error Stat.noObject
  else match liveQp q (arg 0x0600 1 sub) s with
    | none => .error Stat.noObject
    | some g =>
      if (s.qp g).state != .active then .error Stat.busy
      else if !(s.qp g).evtEn then .error Stat.invalidField
      else if bindsFull kind s then .error Stat.exhausted
      else .ok g

def bodyEvtBind : Body := fun q cid sub s =>
  match bindCheck q sub s with
  | .error st => refuse q cid st s
  | .ok g =>
    let h := freshHandle s.link.binds 8192 s.link.nextHandle
    let b : Binding := { source := arg 0x0600 0 sub, kind := arg 0x0600 2 sub, qp := g }
    succeed q cid h (s.modLink fun l => { l with binds := tabSet l.binds h b, nextHandle := (h + 1) % 65536 })

/-- EVT_BIND (R112). -/
def execEvtBind (q : Nat) (sub : Sub) (s : State) : Res := runBasut 0x0600 q sub bodyEvtBind s

def bodyEvtUnbind : Body := fun q cid sub s =>
  let h := arg 0x0601 0 sub
  if (tabFind s.link.binds h).isNone then refuse q cid Stat.noObject s
  else succeed q cid 0 (s.modLink fun l => { l with binds := tabDel l.binds h })

/-- EVT_UNBIND (R112). -/
def execEvtUnbind (q : Nat) (sub : Sub) (s : State) : Res := runBasut 0x0601 q sub bodyEvtUnbind s

/-! ### Images, fuses and attestation (R53, R123 to R125) -/

/-- The type an image must have to go into a target: firmware or a patch into xSPI, recovery firmware into eMRAM (R48, R51). -/
def targetType (target : Nat) (i : List Byte) : Nat := if target == 2 then 4 else if imgType i == 2 then 2 else 1

/-- The write of an image that has verified: it lasts until the command's completion is written (log 134). A forwarded command
reports at once. -/
def storeImage (q cid target : Nat) (i : List Byte) (s : State) : State :=
  let s := (beginWrite q cid (flashKey target (targetType target i)) i s).emit (.flashWrite target (w16 (imgType i)))
  if q == cubeQp then endWrites (fun w _ => w == cubeQp) s else s

def bodyImageUpdate (data : Option (List Byte)) : Body := fun q cid sub s =>
  let t := arg 0x0806 0 sub
  if 2 < t then refuse q cid Stat.invalidField s
  else match data with
    | none => refuse q cid Stat.dataXfer s
    | some i => match verifyImage s (targetType t i) i with
      | 0 => succeed q cid 0 (storeImage q cid t i s)
      | e => finish q cid Stat.verifyFailed (w32 e) s

/-- IMAGE_UPDATE (R123). -/
def execImageUpdate (q : Nat) (sub : Sub) (data : Option (List Byte)) (s : State) : Res :=
  act (basutUp q s && dataFits 0x0806 sub data) (basut 0x0806 q sub (bodyImageUpdate data)) s

/-- Some image in the xSPI devices or eMRAM passes step 4 of R53 at a floor. -/
def imageAtFloor (t floor : Nat) (s : State) : Bool :=
  ((s.em.flash.map (·.2)) ++ s.em.recovery.toList).any fun i => imgType i == t && floor ≤ imgSvn i

/-- The floor of one image type raised. -/
def raiseFloor (t floor : Nat) (f : Fuses) : Fuses := { f with floors := f.floors.setIfInBounds t (w32 floor) }

def bodySvnRaise : Body := fun q cid sub s =>
  let t := arg 0x0901 0 sub
  let floor := arg 0x0901 1 sub
  if !inRange t 1 5 || arg 0x0901 2 sub != 0x5A17 || floor ≤ ((s.fuses.floors.toList[t]?).getD 0).toNat || !imageAtFloor t floor s then
    refuse q cid Stat.invalidField s
  else succeed q cid floor (s.modFuses (raiseFloor t floor))

/-- SVN_RAISE (R124). -/
def execSvnRaise (q : Nat) (sub : Sub) (s : State) : Res := runBasut 0x0901 q sub bodySvnRaise s

def revokeKey (slot : Nat) (f : Fuses) : Fuses := { f with revoked := putBit f.revoked slot true }

def bodyKeyRevoke : Body := fun q cid sub s =>
  let slot := arg 0x0902 0 sub
  if 4 ≤ slot || arg 0x0902 1 sub != 0x5A17 || slot == s.boot.fwKey then refuse q cid Stat.invalidField s
  else succeed q cid 0 (s.modFuses (revokeKey slot))

/-- KEY_REVOKE (R124). -/
def execKeyRevoke (q : Nat) (sub : Sub) (s : State) : Res := runBasut 0x0902 q sub bodyKeyRevoke s

/-- Bytes of an identity object (log 14). -/
def identityBytes (obj n : Nat) : List Byte := (List.range n).map (Config.identity obj)

/-- The size of a part of an ATTEST record that the spec does not give, below 64 KiB (log 14). -/
def attestSize (i : Nat) : Nat := (Config.fused i).toNat % 65536

/-- The record of ATTEST (R125): identity, nonce, groups 0 and 2 of the last boundary, measurements, the ECDSA signature of 96
bytes and the HSS signature, whose contents are open to the model; so are the sizes the spec does not give (log 14). -/
def attestBytes (sub : Sub) (s : State) : List Byte :=
  identityBytes 20 (attestSize 16) ++ leBytes 32 (arg 0x0900 0 sub) ++ wordsBytes (fillWords 16 s.stroke.captured0) ++ wordsBytes (fillWords 64 s.stroke.captured2) ++
  identityBytes 21 (attestSize 17) ++ identityBytes (100 + 2 * s.em.hssLeft) 96 ++
  identityBytes (101 + 2 * s.em.hssLeft) (attestSize 18)

def bodyAttest : Body := fun q cid sub s =>
  let bytes := attestBytes sub s
  if argLen 0x0900 sub < bytes.length then finish q cid Stat.bufShort (w32 bytes.length) s
  else if s.em.hssLeft == 0 then refuse q cid Stat.exhausted s
  else
    let s := s.modEm fun m => { m with hssLeft := m.hssLeft - 1 }
    succeed q cid s.em.hssLeft (writeHost q (argBuf 0x0900 sub) bytes s)

/-- ATTEST (R125). -/
def execAttest (q : Nat) (sub : Sub) (s : State) : Res := runBasut 0x0900 q sub bodyAttest s

end Sys2Proof.Machine
end

