-- ==== Sys2Proof/Machine/TimeHost.lean ====
section
/-! DEFINITION. The time commands (R116, R139, R140, R143, R159, R161, R164, R170). -/
namespace Sys2Proof.Machine

/-- TIME_GET's result: the servo state and source, read together with VT64 (R116, R122). -/
def bodyTimeGet : Body := fun q cid _ s => succeed q cid (qualCode s.time.servo + 16 * s.time.source) s

/-- TIME_GET (R116). -/
def execTimeGet (q : Nat) (sub : Sub) (s : State) : Res := runBasut 0x0100 q sub bodyTimeGet s

/-! ### TIME_SOURCE (R139, R140) -/

/-- prio[0] to prio[7] up to the first 0. -/
def prioList (sub : Sub) : List Nat := ((List.range 8).map fun i => prm sub i 1).takeWhile (· != 0)

def noRepeat : List Nat → Bool
  | [] => true
  | x :: xs => !xs.contains x && noRepeat xs

/-- The list of TIME_SOURCE is lawful. -/
def prioOk (l : List Nat) : Bool := !l.isEmpty && l.all (· < 6) && noRepeat l && !(l.dropLast.contains 5)

def checkTimeSource (sub : Sub) (s : State) : Nat :=
  let ret := arg 0x0101 1 sub
  if !prioOk (prioList sub) || 1 < ret || (ret == 1 && !s.boot.straps.getLsbD 2) then Stat.invalidField else 0

/-- Whether REF10_IN has shown an edge in the last 1 ms is open to the model (log 7). -/
def ref10Seen (s : State) : Bool × State :=
  let r := s.draw
  (r.1.getLsbD 0, r.2)

def setSources (l : List Nat) (s : State) : State := sourcesChanged (s.modEm fun m => { m with prio := l })

def applyTimeSource : Change := fun sub s =>
  if arg 0x0101 1 sub == 1 && !s.time.ref10 then
    let r := ref10Seen s
    if r.1 then applied (setSources (prioList sub) (r.2.modTime fun t => { t with ref10 := true, ref10Lost := false }))
    else notApplied Stat.busy r.2
  else applied (setSources (prioList sub) s)

/-- TIME_SOURCE (R139, R140). -/
def execTimeSource (q : Nat) (sub : Sub) (s : State) : Res :=
  runBasut 0x0101 q sub (capoBody (.timeSource q sub) checkTimeSource) s

/-! ### SERVO_CONFIG (R143) -/

def checkServoConfig (sub : Sub) (_ : State) : Nat :=
  let thr := arg 0x0102 0 sub
  if thr != 0 && !inRange thr 16 1600001 then Stat.invalidField else 0

/-- A new threshold restarts the lock count and every qualification count. -/
def restartCounts (t : TimeEng) : TimeEng :=
  { t with lock := 0, tracks := t.tracks.map fun k => (k.1, { k.2 with count := 0, qualified := false }) }

def setServo (thr lim bw : Nat) (t : TimeEng) : TimeEng :=
  let u := { t with lockThr := thr, holdLimit := lim, bandwidth := bw }
  if thr == t.lockThr then u else restartCounts u

def applyServoConfig : Change := fun sub s =>
  applied (s.modTime (setServo (arg 0x0102 0 sub) (arg 0x0102 1 sub) (arg 0x0102 2 sub)))

/-- SERVO_CONFIG (R143). -/
def execServoConfig (q : Nat) (sub : Sub) (s : State) : Res :=
  runBasut 0x0102 q sub (capoBody (.servoConfig q sub) checkServoConfig) s

/-! ### GPTP_CONFIG (R159) -/

/-- The role of a port: DISABLED outside port_mask. -/
def roleOf (sub : Sub) (p : Nat) : Nat := if (arg 0x0103 0 sub).testBit p then prm sub (2 + p) 1 else 0

def logSyncOf (sub : Sub) : Int := (BitVec.ofNat 8 (arg 0x0103 3 sub)).toInt

def rolesOf (sub : Sub) : List Nat := (List.range 8).map (roleOf sub)

def checkGptpConfig (sub : Sub) (_ : State) : Nat :=
  let r := rolesOf sub
  let li := logSyncOf sub
  let ok := ((List.range 8).all fun p => prm sub (2 + p) 1 < 4) && !(r.contains 1 && (r.contains 2 || r.contains 3)) &&
    (r.filter (· == 3)).length ≤ 1 && decide (-7 ≤ li) && decide (li ≤ 0) && arg 0x0103 1 sub < 128
  if ok then 0 else Stat.invalidField

def setGptp (sub : Sub) (t : TimeEng) : TimeEng :=
  { t with
    gptpMask := w8 (arg 0x0103 0 sub), gptpDomain := arg 0x0103 1 sub, gptpLogSync := logSyncOf sub
    gptpRoles := Vector.ofFn fun p => prm sub (2 + p.val) 1 }

/-- A SLAVE port needs GPTP in the list as the changes before this one leave it. -/
def applyGptpConfig : Change := fun sub s =>
  if (rolesOf sub).contains 3 && !s.sources.contains 1 then notApplied Stat.invalidField s
  else applied (applyRoles (s.modTime (setGptp sub)))

/-- GPTP_CONFIG (R159). -/
def execGptpConfig (q : Nat) (sub : Sub) (s : State) : Res :=
  runBasut 0x0103 q sub (capoBody (.gptpConfig q sub) checkGptpConfig) s

/-! ### PPS_CONFIG (R161) -/

def ppsOffset (sub : Sub) : Int := (w64 (arg 0x0104 0 sub)).toInt

def checkPpsConfig (sub : Sub) (_ : State) : Nat :=
  if (ppsOffset sub).natAbs < 16000000000 && 16 ≤ arg 0x0104 1 sub && arg 0x0104 2 sub < 2 then 0 else Stat.invalidField

/-- No reference edge exists after a PPS_CONFIG capo (R138). -/
def setPps (sub : Sub) (t : TimeEng) : TimeEng :=
  { t with ppsOfs := ppsOffset sub, ppsWidth := arg 0x0104 1 sub, ppsEdge := arg 0x0104 2 sub, ppsRef := none }

def applyPpsConfig : Change := fun sub s => applied (s.modTime (setPps sub))

/-- PPS_CONFIG (R161). -/
def execPpsConfig (q : Nat) (sub : Sub) (s : State) : Res := runBasut 0x0104 q sub (capoBody (.ppsConfig q sub) checkPpsConfig) s

/-! ### PTM_CORRELATE and TIME_STATUS (R164, R170) -/

/-- The records that fit in a length, oldest first. -/
def ptmFit (len : Nat) (s : State) : List Byte := ((s.time.ptmRecs.take (len / 32)).map ptmBytes).flatten

def bodyPtmCorrelate : Body := fun q cid sub s =>
  let len := argLen 0x0105 sub
  if len < 32 then finish q cid Stat.bufShort 32 s
  else
    let b := ptmFit len s
    succeed q cid b.length (if b.isEmpty then s else writeHost q (argBuf 0x0105 sub) b s)

/-- PTM_CORRELATE (R164). -/
def execPtmCorrelate (q : Nat) (sub : Sub) (s : State) : Res := runBasut 0x0105 q sub bodyPtmCorrelate s

def bodyTimeStatus : Body := fun q cid sub s => answerBytes 0x0106 q cid sub (timeStatusBytes s (fillWords 16 s.stroke.captured0)) s

/-- TIME_STATUS (R170). -/
def execTimeStatus (q : Nat) (sub : Sub) (s : State) : Res := runBasut 0x0106 q sub bodyTimeStatus s

end Sys2Proof.Machine
end

