-- ==== Sys2Proof/Machine/StrokeHost.lean ====
section
/-! DEFINITION. The stroke, plan, job, stream and engine commands (R123, R173, R177, R179, R182 to R185, R189, R191, R194, R348,
R426, R554). -/
namespace Sys2Proof.Machine

/-! ### PLAN_LOAD, PLAN_ACTIVATE (R184, R185) -/

def bodyPlanLoad (data : Option (List Byte)) : Body := fun q cid sub s =>
  let slot := arg 0x0200 2 sub
  if 3 < slot then refuse q cid Stat.invalidField s
  else withData data (fun d q cid sub s =>
    match checkPlan d (argLen 0x0200 sub) with
    | .error (st, r) => finish q cid st (w32 r) s
    | .ok p =>
      if s.stroke.active == some slot then refuse q cid Stat.busy s
      else succeed q cid p.crc.toNat (s.modStroke fun t => { t with plans := tabSet t.plans slot p })) q cid sub s

/-- PLAN_LOAD (R184). -/
def execPlanLoad (q : Nat) (sub : Sub) (data : Option (List Byte)) (s : State) : Res :=
  act (basutUp q s && dataFits 0x0200 sub data) (basut 0x0200 q sub (bodyPlanLoad data)) s

def checkPlanActivate (sub : Sub) (_ : State) : Nat := if 3 < arg 0x0201 0 sub then Stat.invalidField else 0

/-- Courses powered under the profile in force and not removed. -/
def State.inForce (s : State) : BitVec 16 := s.stroke.powered &&& s.stroke.inProfile

def applyPlanActivate : Change := fun sub s =>
  let slot := arg 0x0201 0 sub
  match tabFind s.stroke.plans slot with
  | none => notApplied Stat.noObject s
  | some p =>
    if p.profile != s.stroke.profile || p.period != s.stroke.period || p.mask &&& ~~~ s.inForce != 0 then notApplied Stat.accessDenied s
    else applied (s.modStroke fun t => { t with active := some slot })

/-- PLAN_ACTIVATE (R185). -/
def execPlanActivate (q : Nat) (sub : Sub) (s : State) : Res :=
  runBasut 0x0201 q sub (capoBody (.planActivate q sub) checkPlanActivate) s

/-! ### PROFILE_SET (R177, R179) -/

def checkProfileSet (sub : Sub) (_ : State) : Nat := if 4 < arg 0x0202 0 sub then Stat.invalidField else 0

/-- Does a job run on a course? -/
def courseRuns (n : Nat) (s : State) : Bool := (List.range 12).any fun i => (s.gate (gateKey n i)).cur.isSome

/-- A course joins: its engines are initialised with the patch (R55, R179). -/
def powerUp (n : Nat) (s : State) : State :=
  let s := (List.range 13).foldl (fun s p => s.setEngine ⟨n, p⟩ (engineInit s.boot.patch (s.engOut ⟨n, p⟩))) s
  s.modStroke fun t => { t with powered := putBit t.powered n true }

/-- A course leaves the profile: jobs not released are withdrawn, spare sequences on it end, and it powers down once no job
runs (R179, R189, R533). -/
def removeCourse (n : Nat) (s : State) : State :=
  let s := abandonSeqs n (withdrawJobs n false s)
  if courseRuns n s then s else powerDown n (dmaKill n s)

/-- What DIAG firmware selects in Service: ECLK, and the courses of those ready that it powers. The spec leaves both to it
(R177; log 154). -/
def diagChoice (s : State) : State :=
  let r := s.draw
  r.2.modBoot fun b => { b with diagEclk := r.1.toNat % 3, diagMask := r.1.extractLsb' 32 16 }

/-- A profile takes effect: ECLK, courses added, courses removed; chords may resume from the first that is not Service (R69,
R179). -/
def setProfile (p : Nat) (s : State) : State :=
  let s := if p == 4 then diagChoice s else s
  let mask := profileMask s p
  let was := s.stroke.inProfile
  let s := (List.range 16).foldl (fun s n => if mask.getLsbD n && !s.stroke.powered.getLsbD n then powerUp n s else s) s
  let s := s.modStroke fun t => { t with
    profile := p, eclk := profileEclk s p, inProfile := mask, resumes := t.resumes || p != 4 }
  (List.range 16).foldl (fun s n => if was.getLsbD n && !mask.getLsbD n then removeCourse n s else s) s

/-- Every course a profile powers is ready. -/
def profileReady (s : State) (p : Nat) : Bool := profileMask s p &&& ~~~ s.boot.courseReady == 0

def applyProfileSet : Change := fun sub s =>
  let p := arg 0x0202 0 sub
  if !profileReady s p then notApplied Stat.exhausted s
  else if s.stroke.period < profileMin p then notApplied Stat.accessDenied s
  else applied (setProfile p s)

/-- PROFILE_SET (R179). -/
def execProfileSet (q : Nat) (sub : Sub) (s : State) : Res := runBasut 0x0202 q sub (capoBody (.profileSet q sub) checkProfileSet) s

/-- Does a profile power courses that are not powered now? -/
def powersMore (s : State) (p : Nat) : Bool := profileMask s p &&& ~~~ s.stroke.powered != 0

/-! ### STROKE_SET, OVERRUN_POLICY, STROKE_STATS (R173, R182, R191, R194) -/

def checkStrokeSet (sub : Sub) (_ : State) : Nat :=
  let p := arg 0x0203 0 sub
  if inRange p 10000 10000001 && p % 4 == 0 then 0 else Stat.invalidField

def applyStrokeSet : Change := fun sub s =>
  let p := arg 0x0203 0 sub
  if p < profileMin s.stroke.profile then notApplied Stat.accessDenied s
  else if p == s.stroke.period then applied s
  else applied (s.modStroke fun t => { t with period := p, anchorN := t.num, anchorVt := t.vt })

/-- STROKE_SET (R173). -/
def execStrokeSet (q : Nat) (sub : Sub) (s : State) : Res := runBasut 0x0203 q sub (capoBody (.strokeSet q sub) checkStrokeSet) s

def checkOverrunPolicy (sub : Sub) (_ : State) : Nat := if 2 < arg 0x0204 0 sub then Stat.invalidField else 0

/-- OVERLOAD's threshold; 0 selects 10,000 (R196). -/
def overloadAt (s : State) : Nat := if s.stroke.overloadStrokes == 0 then 10000 else s.stroke.overloadStrokes

/-- OVERLOAD's cause stands while the count is at or above the threshold (R196). -/
def overloadCause (s : State) : State := setCause Src.overload (overloadAt s ≤ s.stroke.ovl) 0 s

def applyOverrunPolicy : Change := fun sub s =>
  applied (overloadCause (s.modStroke fun t => { t with policy := arg 0x0204 0 sub, overloadStrokes := arg 0x0204 1 sub }))

/-- OVERRUN_POLICY (R191, R196). -/
def execOverrunPolicy (q : Nat) (sub : Sub) (s : State) : Res :=
  runBasut 0x0204 q sub (capoBody (.overrunPolicy q sub) checkOverrunPolicy) s

def strokeStatsBytes (s : State) : List Byte :=
  wordsBytes (fillWords 48 s.stroke.captured) ++ wordsBytes (fillWords 192 s.stroke.capturedEng)

def bodyStrokeStats : Body := fun q cid sub s => answerBytes 0x0205 q cid sub (strokeStatsBytes s) s

/-- STROKE_STATS (R194). -/
def execStrokeStats (q : Nat) (sub : Sub) (s : State) : Res := runBasut 0x0205 q sub bodyStrokeStats s

/-! ### JOB_SUBMIT (R189) -/

/-- The range checks. -/
def jobRangeOk (sub : Sub) (s : State) : Bool :=
  let d := arg 0x0300 0 sub
  arg 0x0300 1 sub < 16 && arg 0x0300 2 sub < 12 && 1 ≤ arg 0x0300 3 sub && !tooFar sub s && d % 8 == 0 && 0x10000000 ≤ d &&
  d + 8 ≤ s.dramU

/-- Room for the job in its stroke: the planned end and the budget within U, fewer than 8 submitted jobs. -/
def jobRoom (k budget stroke : Nat) (s : State) : Bool :=
  plannedEnd s k + budget ≤ usableCycles s.stroke.profile s.stroke.period &&
  (s.basut.jobs.filter fun r => gateKey r.course r.slot == k && r.stroke == stroke).length < 8

/-- The stroke a job goes to. -/
def jobStroke (sub : Sub) (s : State) : Nat := max sub.stroke.toNat (firstMeet false s)

/-- A job whose descriptor has been read joins those accepted. -/
def addJob (q cid : Nat) (sub : Sub) (desc : List Byte) (s : State) : State :=
  let stroke := jobStroke sub s
  let course := arg 0x0300 1 sub
  let slot := arg 0x0300 2 sub
  if !jobRoom (gateKey course slot) (arg 0x0300 3 sub) stroke s then refuse q cid Stat.exhausted s
  else
    let r : JobRec := { handle := s.basut.nextJob % 2 ^ 32, qp := q, cid, course, slot, budget := arg 0x0300 3 sub, entry := w32 (leNat (desc.take 4)), arg := w32 (leNat (desc.drop 4)), stroke }
    s.modBasut fun b => { b with jobs := b.jobs ++ [r], nextJob := b.nextJob + 1 }

def bodyJobSubmit : Body := fun q cid sub s =>
  if !jobRangeOk sub s then refuse q cid Stat.invalidField s
  else if !s.inForce.getLsbD (arg 0x0300 1 sub) then refuse q cid Stat.accessDenied s
  else
    let r := read40 .pegbox 0 (arg 0x0300 0 sub) 8 s
    match r.1.all with
    | some d => addJob q cid sub d r.2
    | none => refuse q cid Stat.internalErr (raiseFault Src.fwInternal 0 unitNone r.2)

/-- JOB_SUBMIT (R189). -/
def execJobSubmit (q : Nat) (sub : Sub) (s : State) : Res := runBasut 0x0300 q sub bodyJobSubmit s

/-! ### STREAM_BIND (R426, R458) -/

/-- A stream ID of R425. -/
def streamIdOk (id : Nat) : Bool :=
  let port := bitsAt id 8 4
  let sub := id % 256
  match id / 4096 with
  | 0 => port < 8 && sub < 32
  | 1 => port < 8 && sub < 64
  | 2 => port < 4 && sub < 32
  | 3 => port < 4 && sub == 0
  | _ => false

def checkStreamBind (sub : Sub) (s : State) : Nat :=
  let ring := arg 0x0301 2 sub
  let len := arg 0x0301 3 sub
  if streamIdOk (arg 0x0301 0 sub) && ring % 4096 == 0 && len % 4096 == 0 && 0x10000 ≤ len && 0x10000000 ≤ ring && ring + len ≤ s.dramU
  then 0 else Stat.invalidField

/-- The QP a stream's entries go to: none, or one of the issuing function that exists. -/
def streamQp (q l : Nat) (s : State) : Option Nat := if l == 0xFFFFFFFF then some 0xFFFFFFFF else liveQp q l s

def boundStreams (s : State) : Nat := (s.ports.streams.filter fun x => x.2.ring.isSome).length

/-- The checks that depend on the state at the capo: the history ring, the QP, the limit. -/
def streamStatus (q : Nat) (sub : Sub) (s : State) : Except Nat Nat :=
  if s.dramEnd < arg 0x0301 2 sub + arg 0x0301 3 sub then .error Stat.invalidField
  else match streamQp q (arg 0x0301 1 sub) s with
    | none => .error Stat.noObject
    | some g =>
      if g != 0xFFFFFFFF && (s.qp g).state != .active then .error Stat.busy
      else if g != 0xFFFFFFFF && !(s.qp g).evtEn then .error Stat.invalidField
      else if (s.stream (arg 0x0301 0 sub)).ring.isNone && 512 ≤ boundStreams s then .error Stat.exhausted
      else .ok g

/-- Bind a stream to a ring and a QP: a first binding takes a new handle; its sequence and position start over. -/
def bindStream (id : Nat) (ring : Nat × Nat × Nat) (owner : Nat) (s : State) : CapoAns × State :=
  let old := s.stream id
  let fresh := old.ring.isNone
  let h := if fresh then s.ports.nextHandle else old.handle
  let s := s.setStream id fun x => { x with ring := some ring, pos := 0, seq := 0, handle := h, owner, refused := none }
  (.done 0 h, if fresh then s.modPorts fun p => { p with nextHandle := p.nextHandle + 1 } else s)

def applyStreamBind (q : Nat) : Change := fun sub s =>
  match streamStatus q sub s with
  | .error st => notApplied st s
  | .ok g => bindStream (arg 0x0301 0 sub) (arg 0x0301 2 sub, arg 0x0301 3 sub, g) (s.fnOf q) s

/-- STREAM_BIND (R426). -/
def execStreamBind (q : Nat) (sub : Sub) (s : State) : Res := runBasut 0x0301 q sub (capoBody (.streamBind q sub) checkStreamBind) s

/-! ### UCODE_LOAD and ENGINE_RESET (R123, R348, R554) -/

/-- The bank a patch may go into: the other one where no chord holds it, else the current one where none holds that. -/
def freePatchBank (u : StreamUnit) : Option Nat :=
  if !bankHeld u (1 - u.bank) then some (1 - u.bank) else if !bankHeld u u.bank then some u.bank else none

def takePatch (p : Option PatchBody) (g : Engine) : Engine :=
  match freePatchBank g.su with
  | some b => { g with su := { g.su with banks := g.su.banks.setIfInBounds b p, bank := b } }
  | none => g

def allEngines : List Eng := (List.range 208).map fun k => ⟨k / 13, k % 13⟩

def applyUcodeLoad (data : Option (List Byte)) : Change := fun _ s =>
  if allEngines.any fun e => (freePatchBank (s.engine e).su).isNone then notApplied Stat.busy s
  else
    let p := data.map fun i => patchOf (imgPayload i)
    let s := allEngines.foldl (fun s e => s.setEngine e (takePatch p)) s
    let s := s.modBoot fun b => { b with patch := p, patchLevel := patchLevelOf p, patchOk := true, ucImage := data.getD b.ucImage }
    (.done 0 s.boot.patchLevel, setReady Rdy.plan (setReady Rdy.ucode s))

/-- The image is read and verified at acceptance (R123). -/
def bodyUcodeLoad (cmd : Instr) (data : Option (List Byte)) : Body := fun q cid sub s =>
  match data with
  | none => refuse q cid Stat.dataXfer s
  | some i => match verifyImage s 2 i with
    | 0 => capoBody cmd (fun _ _ => 0) q cid sub s
    | e => finish q cid Stat.verifyFailed (w32 e) s

/-- UCODE_LOAD (R123). -/
def execUcodeLoad (q : Nat) (sub : Sub) (data : Option (List Byte)) (s : State) : Res :=
  act (basutUp q s && dataFits 0x0302 sub data) (basut 0x0302 q sub (bodyUcodeLoad (.ucodeLoad q sub data) data)) s

def bodyEngineReset : Body := fun q cid sub s =>
  let e : Eng := ⟨arg 0x0303 0 sub, arg 0x0303 1 sub⟩
  if 16 ≤ e.course || 13 ≤ e.phys then refuse q cid Stat.invalidField s
  else if (s.engine e).st == .off || (s.engine e).st == .bist then refuse q cid Stat.busy s
  else succeed q cid 0 (engineResetAt e s)

/-- ENGINE_RESET (R554). -/
def execEngineReset (q : Nat) (sub : Sub) (s : State) : Res := runBasut 0x0303 q sub bodyEngineReset s

end Sys2Proof.Machine
end

