-- ==== Sys2Proof/Machine/LogHost.lean ====
section
/-! DEFINITION. The log-store and journal commands (R453, R457 to R460, R468, R469, R478, R522). -/
namespace Sys2Proof.Machine

/-! ### LGS_MODE (R457 to R459) -/

def checkLgsMode (sub : Sub) (_ : State) : Nat :=
  let mode := arg 0x0400 0 sub
  if mode == 1 || (mode == 0 && inRange (arg 0x0400 1 sub) 64 20481) then 0 else Stat.invalidField

/-- The ring range would fall below 0x1000_0000 or overlap a bound stream ring (R458). -/
def ringClash (mib : Nat) (s : State) : Bool :=
  s.dramU < 0x10000000 + 0x100000 * mib ||
  s.ports.streams.any fun x => match x.2.ring with
    | some (base, len, _) => s.dramU - 0x100000 * mib < base + len
    | none => false

/-- The ring is emptied; what triggers had still to take from it becomes gaps of cause 2 (R459). -/
def emptyRing (s : State) : State :=
  s.lgs.backfill.foldl (fun s r => addGap 2 r s) (s.modLgs fun l => { l with ring := [], backfill := [] })

/-- The mode and ring size in force; every LGS_MODE capo writes a CONFIG record and seals (R457, R469). -/
def setLgsMode (mode mib : Nat) (sub : Sub) (s : State) : State :=
  let same := s.lgs.mode == mode && s.lgs.ringMib == mib
  let s := if same then s else emptyRing s
  doSeal none (configRecord 0x0400 sub (s.modLgs fun l => { l with mode := mode, ringMib := mib }))

def applyLgsMode : Change := fun sub s =>
  let mode := arg 0x0400 0 sub
  let mib := if mode == 0 then arg 0x0400 1 sub else s.lgs.ringMib
  if mode == 0 && ringClash mib s then notApplied Stat.invalidField s else applied (setLgsMode mode mib sub s)

/-- LGS_MODE (R457). -/
def execLgsMode (q : Nat) (sub : Sub) (s : State) : Res := runBasut 0x0400 q sub (capoBody (.lgsMode q sub) checkLgsMode) s

/-! ### LGS_TRIGGER (R460) -/

def bodyLgsTrigger : Body := fun q cid sub s =>
  let pre := arg 0x0401 0 sub
  let post := arg 0x0401 1 sub
  let cls := arg 0x0401 2 sub
  if !trigRangeOk pre post cls then refuse q cid Stat.invalidField s
  else if 16 ≤ s.lgs.trigs.length then refuse q cid Stat.exhausted s
  else
    let r := openTrigger s.now pre post cls 0 s
    succeed q cid r.1 r.2

/-- LGS_TRIGGER (R460). -/
def execLgsTrigger (q : Nat) (sub : Sub) (s : State) : Res := runBasut 0x0401 q sub bodyLgsTrigger s

/-! ### LGS_READ (R468) -/

/-- What a read comes to: its status, its result, and the bytes written. -/
structure ReadAns where
  status : Nat
  result : Nat
  bytes  : List Byte
  /-- The uncorrectable record met. -/
  lost   : Bool := false
deriving DecidableEq, Repr

/-- Records in order while they fit; `limit` is the count still to write, none for no limit. -/
def readRecs (lost : List Nat) : List LogRec → Nat → Option Nat → ReadAns → ReadAns
  | [], _, _, a => a
  | r :: rs, room, limit, a =>
    if limit == some 0 then a
    else if lost.contains r.seq then { a with status := Stat.mediaErr, result := r.seq % 2 ^ 32, lost := true }
    else if room < recSize r then (if a.result == 0 then { a with status := Stat.bufShort, result := recSize r } else a)
    else readRecs lost rs (room - recSize r) (limit.map (· - 1)) { a with result := a.result + 1, bytes := a.bytes ++ recBytes r }

def readLog (sub : Sub) (s : State) : ReadAns :=
  let count := arg 0x0402 3 sub
  readRecs s.lgs.lostRecs (s.lgs.recs.filter fun r => arg 0x0402 0 sub ≤ r.seq) (argLen 0x0402 sub)
    (if count == 0 then none else some count) { status := 0, result := 0, bytes := [] }

/-- An uncorrectable record raises LGS_UE (R452). -/
def readLost (a : ReadAns) (s : State) : State :=
  if a.lost then raiseFault Src.lgsUe 0 unitNone (s.modLgs fun l => { l with uncorr := l.uncorr + 1 }) else s

def bodyLgsRead : Body := fun q cid sub s =>
  let a := readLog sub s
  let s := if a.bytes.isEmpty then s else writeHost q (argBuf 0x0402 sub) a.bytes s
  finish q cid a.status (w32 a.result) (readLost a s)

/-- LGS_READ (R468). -/
def execLgsRead (q : Nat) (sub : Sub) (s : State) : Res := runBasut 0x0402 q sub bodyLgsRead s

/-! ### LGS_CLASS, LGS_LIFE, LGS_SEAL (R453, R469, R478) -/

def checkLgsClass (sub : Sub) (_ : State) : Nat :=
  if arg 0x0403 0 sub < 16 && arg 0x0403 1 sub < 3 then 0 else Stat.invalidField

def applyLgsClass : Change := fun sub s =>
  let s := s.modLgs fun l => { l with classes := tabSet l.classes (arg 0x0403 0 sub) (arg 0x0403 1 sub, arg 0x0403 2 sub) }
  applied (configRecord 0x0403 sub s)

/-- LGS_CLASS (R453). -/
def execLgsClass (q : Nat) (sub : Sub) (s : State) : Res := runBasut 0x0403 q sub (capoBody (.lgsClass q sub) checkLgsClass) s

/-- The 64 bytes of LGS_LIFE; the result is the days left (R478). -/
def bodyLgsLife : Body := fun q cid sub s =>
  if argLen 0x0404 sub < 64 then finish q cid Stat.bufShort 64 s
  else succeed q cid (lifeNow s) (writeHost q (argBuf 0x0404 sub) (lifeBytes s) s)

/-- LGS_LIFE (R478). -/
def execLgsLife (q : Nat) (sub : Sub) (s : State) : Res := runBasut 0x0404 q sub bodyLgsLife s

/-- The seal's own record completes the command (R469). -/
def bodyLgsSeal : Body := fun q cid _ s => doSeal (some (q, cid)) s

/-- LGS_SEAL (R469). -/
def execLgsSeal (q : Nat) (sub : Sub) (s : State) : Res := runBasut 0x0405 q sub bodyLgsSeal s

/-! ### FJ_EXPORT and FJ_READ (R522) -/

def bodyFjExport : Body := fun q cid _ s => fjExport q cid s

/-- FJ_EXPORT (R522). -/
def execFjExport (q : Nat) (sub : Sub) (s : State) : Res := runBasut 0x0702 q sub bodyFjExport s

def bodyFjRead : Body := fun q cid sub s =>
  let len := argLen 0x0703 sub
  if len < 32 then finish q cid Stat.bufShort 32 s
  else
    let es := (journalHeld s.fcu).take (len / 32)
    succeed q cid es.length (if es.isEmpty then s else writeHost q (argBuf 0x0703 sub) (es.map journalBytes).flatten s)

/-- FJ_READ (R522). -/
def execFjRead (q : Nat) (sub : Sub) (s : State) : Res := runBasut 0x0703 q sub bodyFjRead s

end Sys2Proof.Machine
end

