-- ==== Sys2Proof/Machine/PortHost.lean ====
section
/-! DEFINITION. The sensor-port, event-network and timer commands (R408, R418, R429, R433, R435, R438, R440, R441, R443, R445,
R447). -/
namespace Sys2Proof.Machine

/-! ### PORT_CONFIG (R433, R435, R440, R443, R445) -/

/-- Bytes `o` to `o + n − 1` of a layout are 0. -/
def zeroAt (d : List Byte) (o n : Nat) : Bool := ((d.drop o).take n).all (· == 0)

/-- A VC entry: reserved bits 0; its ranges where it is enabled. -/
def vcOk (e : List Byte) : Bool :=
  entryByte e 1 < 4 && zeroAt e 2 2 &&
  (entryByte e 1 % 2 == 0 || ((entryByte e 0 < 16 || entryByte e 0 == 0xFF) && 1 ≤ entryWord e 8 4))

def csiCfgOk (d : List Byte) : Bool :=
  d.length == 272 && entryByte d 0 < 2 && ([1, 2, 4] : List Nat).contains (entryByte d 1) && entryByte d 2 < 2 && zeroAt d 3 1 &&
  inRange (entryWord d 4 4) 80 4501 && zeroAt d 8 8 && (List.range 16).all fun v => vcOk ((d.drop (16 + 16 * v)).take 16)

def ethCfgOk (d : List Byte) : Bool :=
  d.length == 8 && entryByte d 0 < 2 && entryByte d 1 < 2 && entryByte d 2 < 32 && zeroAt d 3 1 && inRange (entryWord d 4 2) 64 9217 &&
  zeroAt d 6 2

/-- 80,000,000 ÷ rate is an integer from 8 to 640. -/
def canRateOk (r : Nat) : Bool := r != 0 && 80000000 % r == 0 && inRange (80000000 / r) 8 641

def canFilterOk (f : List Byte) : Bool := entryByte f 8 < 3 && entryByte f 9 < 8 && zeroAt f 10 6

def canCfgOk (d : List Byte) : Bool :=
  let n := entryByte d 11
  d.length == 12 + 16 * n && n ≤ 32 && canRateOk (entryWord d 0 4) && inRange (entryWord d 0 4) 125000 1000001 &&
  canRateOk (entryWord d 4 4) && entryWord d 4 4 ≤ 8000000 && inRange (entryByte d 8) 50 91 && inRange (entryByte d 9) 50 91 &&
  entryByte d 10 < 2 && (List.range n).all fun f => canFilterOk ((d.drop (12 + 16 * f)).take 16)

def spiCfgOk (d : List Byte) : Bool :=
  d.length == 24 && inRange (entryWord d 0 4) 1000000 50000001 && entryByte d 4 < 4 && entryByte d 5 < 2 && entryByte d 6 < 2 &&
  entryByte d 7 < 9 && inRange (entryByte d 0x10) 1 65 && entryByte d 0x11 < 2 && entryByte d 0x12 < 64 && entryByte d 0x13 < 2 &&
  zeroAt d 0x14 4

def portCfgOk (ty : Nat) (d : List Byte) : Bool :=
  match ty with | 0 => csiCfgOk d | 1 => ethCfgOk d | 2 => canCfgOk d | _ => spiCfgOk d

/-- The layout's size, where it does not depend on the bytes. -/
def portLenOk (ty len : Nat) : Bool :=
  match ty with | 0 => len == 272 | 1 => len == 8 | 2 => len % 16 == 12 && inRange len 12 525 | _ => len == 24

def bodyPortConfig (cmd : Instr) (data : Option (List Byte)) : Body := fun q cid sub s =>
  let ty := arg 0x0500 0 sub
  if portCount ty ≤ arg 0x0500 1 sub || !portLenOk ty (argLen 0x0500 sub) then refuse q cid Stat.invalidField s
  else withData data (fun d => capoBody cmd fun _ _ => if portCfgOk ty d then 0 else Stat.invalidField) q cid sub s

/-- The configuration is in force from the capo; a frame in progress keeps its own entry (R433). -/
def applyPortConfig (data : Option (List Byte)) : Change := fun sub s =>
  applied (s.setSport (arg 0x0500 0 sub) (arg 0x0500 1 sub) fun x => { x with cfg := data.getD [] })

/-- PORT_CONFIG (R433). -/
def execPortConfig (q : Nat) (sub : Sub) (data : Option (List Byte)) (s : State) : Res :=
  act (basutUp q s && dataFits 0x0500 sub data) (basut 0x0500 q sub (bodyPortConfig (.portConfig q sub data) data)) s

/-! ### TRIG_SCHEDULE (R438) -/

def checkTrigSchedule (sub : Sub) (_ : State) : Nat :=
  let phase := arg 0x0501 2 sub
  let period := arg 0x0501 3 sub
  let width := arg 0x0501 4 sub
  if 16 ≤ arg 0x0501 0 sub || 1 < arg 0x0501 1 sub then Stat.invalidField
  else if period == 0 then 0
  else if inRange period 16000 16000000001 && 16 ≤ width && width + 16 ≤ period && phase < period then 0
  else Stat.invalidField

/-- func 2 and the safe level; the schedule; a pin with no pulse in progress is low. -/
def setSchedule (t safe phase period width : Nat) (s : State) : State :=
  let w := (s.sen.tioCfg t).toNat
  let s := writeTioCfg t (w32 (w - w % 4 + 2 - 32 * bitsAt w 5 1 + 32 * safe)) s
  let s := s.setTrig t fun x => { x with phase := phase, period := period, width := width }
  if (s.trig t).high then s else driveBall t false s

def applyTrigSchedule : Change := fun sub s =>
  let period := arg 0x0501 3 sub
  applied (setSchedule (arg 0x0501 0 sub) (arg 0x0501 1 sub) (arg 0x0501 2 sub) period (arg 0x0501 4 sub) s)

/-- TRIG_SCHEDULE (R438). -/
def execTrigSchedule (q : Nat) (sub : Sub) (s : State) : Res :=
  runBasut 0x0501 q sub (capoBody (.trigSchedule q sub) checkTrigSchedule) s

/-! ### INGRESS_CLASS and LIDAR_RULES (R429, R441) -/

/-- The stream ID named by port type, port and stream number. -/
def classStream (sub : Sub) : Nat := streamId (arg 0x0502 0 sub) (arg 0x0502 1 sub) (arg 0x0502 2 sub)

def checkIngressClass (sub : Sub) (_ : State) : Nat :=
  if arg 0x0502 1 sub < portCount (arg 0x0502 0 sub) && streamIdOk (classStream sub) && arg 0x0502 3 sub < 8 then 0
  else Stat.invalidField

def applyIngressClass : Change := fun sub s =>
  applied (s.setStream (classStream sub) fun x => { x with cls := some (arg 0x0502 3 sub) })

/-- INGRESS_CLASS (R429). -/
def execIngressClass (q : Nat) (sub : Sub) (s : State) : Res :=
  runBasut 0x0502 q sub (capoBody (.ingressClass q sub) checkIngressClass) s

def ruleOk (r : List Byte) : Bool :=
  entryByte r 0x14 < 64 && entryByte r 0x15 < 8 && entryByte r 0x16 < 2 && entryByte r 0x17 < 4 && zeroAt r 0x1C 4

/-- Cut a list into rules of 32 bytes. -/
def rulesOf (d : List Byte) : List (List Byte) := (List.range (d.length / 32)).map fun i => (d.drop (32 * i)).take 32

def bodyLidarRules (cmd : Instr) (data : Option (List Byte)) : Body := fun q cid sub s =>
  let len := argLen 0x0503 sub
  if 8 ≤ arg 0x0503 0 sub || len % 32 != 0 || 2048 < len then refuse q cid Stat.invalidField s
  else withData data (fun d => capoBody cmd fun _ _ => if (rulesOf d).all ruleOk then 0 else Stat.invalidField) q cid sub s

def applyLidarRules (data : Option (List Byte)) : Change := fun sub s =>
  let rs := rulesOf (data.getD [])
  (.done 0 rs.length, s.setSport 1 (arg 0x0503 0 sub) fun x => { x with rules := rs })

/-- LIDAR_RULES (R441). -/
def execLidarRules (q : Nat) (sub : Sub) (data : Option (List Byte)) (s : State) : Res :=
  act (basutUp q s && dataFits 0x0503 sub data) (basut 0x0503 q sub (bodyLidarRules (.lidarRules q sub data) data)) s

/-! ### PORT_STATUS (R447) -/

def bodyPortStatus : Body := fun q cid sub s =>
  let ty := arg 0x0504 0 sub
  let p := arg 0x0504 1 sub
  if portCount ty ≤ p then refuse q cid Stat.invalidField s else answerBytes 0x0504 q cid sub (portStatusBytes ty p s) s

/-- PORT_STATUS (R447). -/
def execPortStatus (q : Nat) (sub : Sub) (s : State) : Res := runBasut 0x0504 q sub bodyPortStatus s

/-! ### SEN_CONFIG (R408) -/

/-- The entries of a list: BAR0 offset and value. -/
def senEntries (d : List Byte) : List (Nat × W32) :=
  (List.range (d.length / 8)).map fun i => (entryWord d (8 * i) 4, w32 (entryWord d (8 * i + 4) 4))

/-- TMR_EVCTL and TMR_CAPSEL of a timer at an offset from the timers' start. -/
def senTimerOff (o n : Nat) : Bool := o < 0x80 * n && (o % 0x80 == 0x04 || o % 0x80 == 0x0C)

/-- The offsets SEN_CONFIG takes: SEN_PMASK, TIO_CFG, TMR_EVCTL and TMR_CAPSEL, VE_SENSEL. -/
def senOffOk (o : Nat) : Bool :=
  o % 4 == 0 &&
  (inRange o 0x200000 0x201000 || inRange o 0x301100 0x3011C0 || (0x300000 ≤ o && senTimerOff (o - 0x300000) 32) ||
   (inRange o 0x1000000 0x2000000 &&
     (let x := o % 0x100000
      (0x3000 ≤ x && senTimerOff (x - 0x3000) 8) || inRange x 0x3800 0x39A0)))

def bodySenConfig (cmd : Instr) (data : Option (List Byte)) : Body := fun q cid sub s =>
  let len := argLen 0x0602 sub
  if !(inRange len 8 4097 && len % 8 == 0) then refuse q cid Stat.invalidField s
  else withData data (fun d => capoBody cmd fun _ _ => if (senEntries d).all fun e => senOffOk e.1 then 0 else Stat.invalidField)
    q cid sub s

def applySenConfig (data : Option (List Byte)) : Change := fun _ s =>
  applied ((senEntries (data.getD [])).foldl (fun s e => (writeReg .pegbox e.1 e.2 none s).2) s)

/-- SEN_CONFIG (R408). -/
def execSenConfig (q : Nat) (sub : Sub) (data : Option (List Byte)) (s : State) : Res :=
  act (basutUp q s && dataFits 0x0602 sub data) (basut 0x0602 q sub (bodySenConfig (.senConfig q sub data) data)) s

/-! ### TMR_CONFIG and TMR_START (R418) -/

def bodyTmrConfig (cmd : Instr) (data : Option (List Byte)) : Body := fun q cid sub s =>
  if 160 ≤ arg 0x0603 0 sub || argLen 0x0603 sub != 80 then refuse q cid Stat.invalidField s
  else withData data (fun _ => capoBody cmd fun _ _ => 0) q cid sub s

/-- The five writes of R418, in their order, of an image `d`. -/
def loadTimer (t : Nat) (d : List Byte) (s : State) : State :=
  let w := fun o => w32 (entryWord d o 4)
  let ctl := w 0
  let s := writeTimer t 0x00 (ctl &&& 0xFFFFFFFE) s
  let s := writeCount t (w64 (entryWord d 0x18 8)) s
  let s := writeTimer t 0x0C (w 0x0C) (writeTimer t 0x08 (w 0x08) (writeTimer t 0x04 (w 0x04) s))
  let s := (List.range 4).foldl (fun s c => armCompare t c (w64 (entryWord d (0x20 + 8 * c) 8)) s) s
  writeTimer t 0x00 ctl s

def applyTmrConfig (data : Option (List Byte)) : Change := fun sub s => applied (loadTimer (arg 0x0603 0 sub) (data.getD []) s)

/-- TMR_CONFIG (R418). -/
def execTmrConfig (q : Nat) (sub : Sub) (data : Option (List Byte)) (s : State) : Res :=
  act (basutUp q s && dataFits 0x0603 sub data) (basut 0x0603 q sub (bodyTmrConfig (.tmrConfig q sub data) data)) s

def checkTmrStart (sub : Sub) (_ : State) : Nat :=
  if arg 0x0604 1 sub < 256 && arg 0x0604 2 sub < 65536 then 0 else Stat.invalidField

/-- Is timer `t` named by TMR_START's masks? -/
def startsTimer (sub : Sub) (t : Nat) : Bool :=
  if t < 32 then (arg 0x0604 0 sub).testBit t
  else (arg 0x0604 1 sub).testBit ((t - 32) % 8) && (arg 0x0604 2 sub).testBit ((t - 32) / 8)

def applyTmrStart : Change := fun sub s =>
  applied ((List.range 160).foldl (fun s t => if startsTimer sub t then setRun t true s else s) s)

/-- TMR_START (R418). -/
def execTmrStart (q : Nat) (sub : Sub) (s : State) : Res := runBasut 0x0604 q sub (capoBody (.tmrStart q sub) checkTmrStart) s

end Sys2Proof.Machine
end

