-- ==== Sys2Proof/Machine/HealthHost.lean ====
section
/-! DEFINITION. The fault, tuning, health and cube commands (R373, R490, R499, R503, R509, R512, R523, R529, R530, R538, R540,
R543). -/
namespace Sys2Proof.Machine

/-! ### FCU_SEVERITY and FCU_CLEAR (R509, R512) -/

def bodyFcuSeverity : Body := fun q cid sub s =>
  let id := arg 0x0700 0 sub
  let sev := arg 0x0700 1 sub
  if !srcImpl id then refuse q cid Stat.noObject s
  else if 3 < sev then refuse q cid Stat.invalidField s
  else if srcFixed id then refuse q cid Stat.accessDenied s
  else succeed q cid (s.sevOf id) (s.modEm fun m => { m with sev := tabSet m.sev id sev })

/-- FCU_SEVERITY (R509). -/
def execFcuSeverity (q : Nat) (sub : Sub) (s : State) : Res := runBasut 0x0700 q sub bodyFcuSeverity s

def bodyFcuClear : Body := fun q cid sub s =>
  let id := arg 0x0701 0 sub
  if !srcImpl id then refuse q cid Stat.noObject s
  else
    let r := closeFault id s
    succeed q cid (bit r.1) r.2

/-- FCU_CLEAR (R512). -/
def execFcuClear (q : Nat) (sub : Sub) (s : State) : Res := runBasut 0x0701 q sub bodyFcuClear s

/-! ### FCU_INJECT (R373, R523) -/

/-- The memory instance whose CE source this is (R373). -/
def instOfCe (id : Nat) : Option Nat :=
  if inRange id 0x400 0x404 then some (instDram (id - 0x400))
  else if id == Src.emrCe then some instEmram
  else if inRange id 0x440 0x448 then some (instSram (id - 0x440))
  else if inRange id 0x800 0xC00 then
    let n := (id - 0x800) / 0x40
    let o := (id - 0x800) % 0x40
    if o < 13 then some (instLsp n o) else if o == 0x20 then some (instCsm n) else none
  else none

/-- A mask of one or two check bytes. -/
def maskOk (m : Nat) : Bool := ([1, 2, 3, 4, 5, 6] : List Nat).contains m

def injectMemory (checker id mask q cid : Nat) (s : State) : State :=
  match instOfCe id with
  | none => refuse q cid Stat.invalidField s
  | some k =>
    if !maskOk mask then refuse q cid Stat.invalidField s
    else if (s.ecc k).armed.isSome then refuse q cid Stat.busy s
    else succeed q cid 0 (s.setEcc k fun r => { r with armed := some (checker, mask) })

def bodyFcuInject : Body := fun q cid sub s =>
  let id := arg 0x0704 0 sub
  let sym := arg 0x0704 2 sub
  if !srcImpl id then refuse q cid Stat.noObject s
  else match arg 0x0704 1 sub with
    | 0 => injectMemory 0 id sym q cid s
    | 1 => injectMemory 1 id sym q cid s
    | 2 =>
      if sym != 0 then refuse q cid Stat.invalidField s
      else succeed q cid 0 (asInjected true (raiseFault id 0 unitNone) s)
    | 3 =>
      if id != Src.pbxLockstep || 32 ≤ sym then refuse q cid Stat.invalidField s
      else succeed q cid 0 (asInjected true pbxMismatch s)
    | _ => refuse q cid Stat.invalidField s

/-- FCU_INJECT (R523). -/
def execFcuInject (q : Nat) (sub : Sub) (s : State) : Res := runBasut 0x0704 q sub bodyFcuInject s

/-! ### TUNE_SET and TUNE_CLEAR (R540) -/

def checkTuneSet (sub : Sub) (_ : State) : Nat :=
  let i := arg 0x0800 0 sub
  if tuneImpl i && tuneInRange i (tuneEffOf i (w32 (arg 0x0800 1 sub))) then 0 else Stat.invalidField

/-- A new VT_EPOCH takes the servo back to acquisition (R132). -/
def tuned (i : Nat) (s : State) : State := if i == 1 then reacquire s else s

def applyTuneSet : Change := fun sub s =>
  let i := arg 0x0800 0 sub
  if (tabFind s.em.tune i).isNone && 256 ≤ s.em.tune.length then notApplied Stat.exhausted s
  else applied (tuned i (s.modEm fun m => { m with tune := tabSet m.tune i (w32 (arg 0x0800 1 sub)) }))

/-- TUNE_SET (R540). -/
def execTuneSet (q : Nat) (sub : Sub) (s : State) : Res := runBasut 0x0800 q sub (capoBody (.tuneSet q sub) checkTuneSet) s

def checkTuneClear (sub : Sub) (_ : State) : Nat := if tuneImpl (arg 0x0801 0 sub) then 0 else Stat.invalidField

def applyTuneClear : Change := fun sub s =>
  let i := arg 0x0801 0 sub
  match tabFind s.em.tune i with
  | none => notApplied Stat.noObject s
  | some _ => applied (tuned i (s.modEm fun m => { m with tune := tabDel m.tune i }))

/-- TUNE_CLEAR (R540). -/
def execTuneClear (q : Nat) (sub : Sub) (s : State) : Res := runBasut 0x0801 q sub (capoBody (.tuneClear q sub) checkTuneClear) s

/-! ### HEALTH_READ, RETIRE, REINSTATE, SPARE_POLICY (R529, R530, R538, R543) -/

def bodyHealthRead : Body := fun q cid sub s => answerBytes 0x0802 q cid sub (healthBytes s) s

/-- HEALTH_READ (R543). -/
def execHealthRead (q : Nat) (sub : Sub) (s : State) : Res := runBasut 0x0802 q sub bodyHealthRead s

def capoOf (r : SpareAns × State) : CapoAns × State :=
  match r.1 with
  | .done st => (.done st 0, r.2)
  | .wait => (.wait, r.2)

def checkRetire (sub : Sub) (_ : State) : Nat :=
  if arg 0x0803 1 sub < classSize (arg 0x0803 0 sub) then 0 else Stat.invalidField

def applyRetire (q cid : Nat) : Change := fun sub s =>
  capoOf (retireUnit (arg 0x0803 0 sub) (arg 0x0803 1 sub) none (some (q, cid)) s)

/-- RETIRE (R530). -/
def execRetire (q : Nat) (sub : Sub) (s : State) : Res := runBasut 0x0803 q sub (capoBody (.retire q sub) checkRetire) s

def checkReinstate (sub : Sub) (_ : State) : Nat :=
  if arg 0x0804 0 sub < 5 && arg 0x0804 1 sub < classSize (arg 0x0804 0 sub) then 0 else Stat.invalidField

def applyReinstate (q cid : Nat) : Change := fun sub s =>
  capoOf (reinstateUnit (arg 0x0804 0 sub) (arg 0x0804 1 sub) (some (q, cid)) s)

/-- REINSTATE (R538). -/
def execReinstate (q : Nat) (sub : Sub) (s : State) : Res :=
  runBasut 0x0804 q sub (capoBody (.reinstate q sub) checkReinstate) s

/-- A class's policy; DISMISS removes its pending proposals and keeps the policy. -/
def setPolicy (cls pol : Nat) (s : State) : State :=
  if pol == 2 then s.modHealth fun h => { h with props := h.props.filter fun p => !(p.2.cls == cls && p.2.state == 1) }
  else s.modEm fun m => { m with policy := tabSet m.policy cls pol }

def bodySparePolicy : Body := fun q cid sub s =>
  let cls := arg 0x0805 0 sub
  let pol := arg 0x0805 1 sub
  if 8 < cls || 2 < pol then refuse q cid Stat.invalidField s else succeed q cid 0 (setPolicy cls pol s)

/-- SPARE_POLICY (R529). -/
def execSparePolicy (q : Nat) (sub : Sub) (s : State) : Res := runBasut 0x0805 q sub bodySparePolicy s

/-! ### CUBE_STATUS, LEAD_SET, REMOTE_WINDOW (R490, R499, R503) -/

def bodyCubeStatus : Body := fun q cid sub s =>
  if argLen 0x0A00 sub < 576 then finish q cid Stat.bufShort 576 s
  else
    let r := cubeBytes s
    succeed q cid (popCount s.brl.present) (writeHost q (argBuf 0x0A00 sub) r.1 r.2)

/-- CUBE_STATUS (R503). -/
def execCubeStatus (q : Nat) (sub : Sub) (s : State) : Res := runBasut 0x0A00 q sub bodyCubeStatus s

def checkLeadSet (sub : Sub) (_ : State) : Nat := if arg 0x0A01 0 sub < 8 then 0 else Stat.invalidField

def applyLeadSet : Change := fun sub s =>
  let d := arg 0x0A01 0 sub
  if s.brl.present.getLsbD d then applied (setLead d s) else notApplied Stat.noObject s

/-- LEAD_SET (R490). -/
def execLeadSet (q : Nat) (sub : Sub) (s : State) : Res := runBasut 0x0A01 q sub (capoBody (.leadSet q sub) checkLeadSet) s

def checkRemoteWindow (sub : Sub) (s : State) : Nat :=
  let cube := arg 0x0A02 0 sub
  let base := arg 0x0A02 2 sub
  let size := arg 0x0A02 3 sub
  let baseOk := match target40 base with | .dram _ | .csm _ _ => base % 4096 == 0 | _ => false
  if cube < 8 && cube != s.cubeId && arg 0x0A02 1 sub < 16 && baseOk && size % 4096 == 0 && size ≤ 0x400000000 then 0
  else Stat.invalidField

/-- A window set, or removed where size is 0. -/
def setWindow (cube w base size : Nat) (b : Brl) : Brl :=
  { b with wins := if size == 0 then tabDel b.wins w else tabSet b.wins w { cube, base, size } }

def applyRemoteWindow : Change := fun sub s =>
  applied (s.modBrl (setWindow (arg 0x0A02 0 sub) (arg 0x0A02 1 sub) (arg 0x0A02 2 sub) (arg 0x0A02 3 sub)))

/-- REMOTE_WINDOW (R499). -/
def execRemoteWindow (q : Nat) (sub : Sub) (s : State) : Res :=
  runBasut 0x0A02 q sub (capoBody (.remoteWindow q sub) checkRemoteWindow) s

end Sys2Proof.Machine
end

