-- ==== Sys2Proof/Machine/Capo.lean ====
section
/-! DEFINITION. The stroke boundary and the capo (R65, R117, R118, R128, R129, R174 to R182, R195, R196, R198, R496, R515). -/
namespace Sys2Proof.Machine

/-! ### Capo changes (R117, R118, R182) -/

/-- The change a waiting command makes at its capo. -/
def applyItem (i : CapoItem) : State → CapoAns × State :=
  match i.cmd with
  | .timeSource _ sub => applyTimeSource sub
  | .servoConfig _ sub => applyServoConfig sub
  | .gptpConfig _ sub => applyGptpConfig sub
  | .ppsConfig _ sub => applyPpsConfig sub
  | .planActivate _ sub => applyPlanActivate sub
  | .profileSet _ sub => applyProfileSet sub
  | .strokeSet _ sub => applyStrokeSet sub
  | .overrunPolicy _ sub => applyOverrunPolicy sub
  | .streamBind q sub => applyStreamBind q sub
  | .ucodeLoad _ sub data => applyUcodeLoad data sub
  | .lgsMode _ sub => applyLgsMode sub
  | .lgsClass _ sub => applyLgsClass sub
  | .portConfig _ sub data => applyPortConfig data sub
  | .trigSchedule _ sub => applyTrigSchedule sub
  | .ingressClass _ sub => applyIngressClass sub
  | .lidarRules _ sub data => applyLidarRules data sub
  | .senConfig _ sub data => applySenConfig data sub
  | .tmrConfig _ sub data => applyTmrConfig data sub
  | .tmrStart _ sub => applyTmrStart sub
  | .tuneSet _ sub => applyTuneSet sub
  | .tuneClear _ sub => applyTuneClear sub
  | .retire _ sub => applyRetire i.qp i.cid sub
  | .reinstate _ sub => applyReinstate i.qp i.cid sub
  | .leadSet _ sub => applyLeadSet sub
  | .remoteWindow _ sub => applyRemoteWindow sub
  | _ => applied

/-- The item a command sets, where two of them at one capo set the same one (R118): opcode and object. A list of register
writes, a start of timers and the steps of a spare sequence set no one item. -/
def capoKey (c : Instr) : Option (Nat × Nat) :=
  match c with
  | .timeSource _ _ => some (0x0101, 0)
  | .servoConfig _ _ => some (0x0102, 0)
  | .gptpConfig _ _ => some (0x0103, 0)
  | .ppsConfig _ _ => some (0x0104, 0)
  | .planActivate _ _ => some (0x0201, 0)
  | .profileSet _ _ => some (0x0202, 0)
  | .strokeSet _ _ => some (0x0203, 0)
  | .overrunPolicy _ _ => some (0x0204, 0)
  | .streamBind _ sub => some (0x0301, arg 0x0301 0 sub)
  | .ucodeLoad _ _ _ => some (0x0302, 0)
  | .lgsMode _ _ => some (0x0400, 0)
  | .lgsClass _ sub => some (0x0403, arg 0x0403 0 sub)
  | .portConfig _ sub _ => some (0x0500, 8 * arg 0x0500 0 sub + arg 0x0500 1 sub)
  | .trigSchedule _ sub => some (0x0501, arg 0x0501 0 sub)
  | .ingressClass _ sub => some (0x0502, classStream sub)
  | .lidarRules _ sub _ => some (0x0503, arg 0x0503 0 sub)
  | .tmrConfig _ sub _ => some (0x0603, arg 0x0603 0 sub)
  | .tuneSet _ sub => some (0x0800, arg 0x0800 0 sub)
  | .tuneClear _ sub => some (0x0800, arg 0x0801 0 sub)
  | .leadSet _ _ => some (0x0A01, 0)
  | .remoteWindow _ sub => some (0x0A02, arg 0x0A02 1 sub)
  | _ => none

/-- A change that has been made or refused, its completion still to be recorded. -/
structure CapoDone where
  item   : CapoItem
  status : Nat
  result : Nat
deriving DecidableEq, Repr

/-- An earlier success that set the same item is superseded. -/
def supersede (k : Option (Nat × Nat)) (l : List CapoDone) : List CapoDone :=
  if k.isNone then l
  else l.map fun d => if capoKey d.item.cmd == k && d.status == Stat.success then { d with status := Stat.superseded, result := 0 } else d

/-- Does a boundary come in time for an item: accepted before fret 60 (fret 56 for a cube command) of the stroke that ends, and
not held for a later stroke? Every item accepted before stroke 0 meets its boundary. -/
def CapoItem.due (i : CapoItem) (n : Nat) (first : Bool) : Bool := (first || i.fret < cutFret i.cube) && i.target ≤ n

/-- Is a PROFILE_SET that powers courses less than 2 ms old (R179)? -/
def tooEarly (i : CapoItem) (s : State) : Bool :=
  match i.cmd with
  | .profileSet _ sub => powersMore s (arg 0x0202 0 sub) && s.time.mono < 32000000 + i.mono
  | _ => false

/-- One item that is due: nothing where it is to wait on. -/
def capoOne (n : Nat) (i : CapoItem) (s : State) : Option CapoAns × State :=
  if s.fcu.safe then (some (.done Stat.safeState 0), s)
  else if i.strict && i.target < n then (some (.done Stat.capoMissed 0), s)
  else if tooEarly i s then (if i.strict then some (.done Stat.capoMissed 0) else none, s)
  else
    let r := applyItem i s
    (some r.1, r.2)

/-- The changes in acceptance order: what is done, and what waits on, in that order too. -/
def capoRun (n : Nat) (first : Bool) : List CapoItem → List CapoDone → List CapoItem → State → List CapoDone × List CapoItem × State
  | [], done, keep, s => (done, keep, s)
  | i :: rest, done, keep, s =>
    let r := if i.due n first then capoOne n i s else (none, s)
    match r.1 with
    | none => capoRun n first rest done (keep ++ [i]) r.2
    | some .wait => capoRun n first rest done keep r.2
    | some (.done st res) =>
      capoRun n first rest ((if st == Stat.success then supersede (capoKey i.cmd) done else done) ++ [{ item := i, status := st, result := res }]) keep r.2

/-- What waits on counts as accepted at this boundary: it can meet the next one. -/
def rebase (n : Nat) (i : CapoItem) : CapoItem := { i with stroke := n, fret := 0 }

/-- The capo of the boundary that begins stroke `n`; each completion carries the VT64 of the capo (R116, R117). -/
def capo (n : Nat) (first : Bool) (s : State) : State :=
  let r := capoRun n first s.basut.capo [] [] (s.modBasut fun b => { b with capo := [] })
  let s := r.2.2.modBasut fun b => { b with capo := r.2.1.map (rebase n) }
  r.1.foldl (fun s d => finishAt d.item.qp d.item.cid d.status (w32 d.result) s.stroke.vt s.quality s) s

/-- The boot profile that qualifies (R65). -/
def bootChoice (s : State) : Option Nat :=
  let want := (s.tune 2).toNat
  if profileReady s want then some want
  else ([2, 1, 0, 3] : List Nat).find? fun p => profileReady s p && profilePower p ≤ profilePower want

/-- The firmware's own change at its capo: the boot profile, unless the safe state or a power-fail has come before; phase RUN
in every case (R65, R180, R515). -/
def bootProfile (service : Bool) (s : State) : State :=
  if !s.boot.bootProfilePending then s
  else
    let s := s.modBoot fun b => { b with bootProfilePending := false, phase := .run }
    if s.fcu.safe || !service then s
    else match bootChoice s with
      | some p => setProfile p s
      | none => s

/-- The active plan against the profile and period in force (R182). -/
def planCheck (s : State) : State :=
  match s.stroke.active.bind fun i => tabFind s.stroke.plans i with
  | none => s
  | some p =>
    if p.profile == s.stroke.profile && p.period == s.stroke.period then s
    else raiseFault Src.planOff 0 unitNone (s.modStroke fun t => { t with active := none })

/-! ### The capture (R127 to R129, R194) -/

/-- The words of a group, for function `v` in group 6. -/
def groupOf (v g : Nat) (s : State) : List W32 :=
  match g with
  | 0 => group0 s
  | 1 => group1 s
  | 2 => group2 s
  | 3 => group3 s
  | 4 => group4 s
  | 5 => group5 s
  | 6 => group6 v s
  | _ => group7 s

/-- SNAP_DATA index of a group's first word. -/
def groupBase (g : Nat) : Nat := (List.range g).foldl (fun a i => a + groupWords i) 0

/-- The selected groups as SNAP_DATA holds them. -/
def bankData (sel : BitVec 8) (s : State) : Tab W32 :=
  (List.range 8).flatMap fun g =>
    if sel.getLsbD g then ((groupOf 0 g s).zipIdx.map fun p => (groupBase g + p.2, p.1)) else []

/-- The header-and-data block of a SNAPSHOT (R128). -/
def snapBlock (w : SnapWait) (n : Nat) (vt : W64) (s : State) : List Byte :=
  let gs := (List.range 8).filter fun g => w.groups.testBit g
  leBytes 8 n ++ leBytes 8 vt.toNat ++ leBytes 4 w.groups ++ leBytes 4 (snapSize w.groups) ++ leBytes 1 (qualCode s.quality) ++
  leBytes 1 s.cubeId ++ zeroBytes 38 ++ gs.flatMap fun g => wordsBytes (groupOf w.fn g s)

/-- The lead's own block of a cube SNAPSHOT, kept until every device has reported (R497). -/
def ownBlock (w : SnapWait) (data : List Byte) (vt : W64) (s : State) : State :=
  s.modBrl fun b => { b with cmds := b.cmds.map fun c =>
    if c.qp == w.qp && c.cid == w.cid then
      { c with own := some { cubeId := s.cubeId, status := 0, result := w32 data.length, data }, vt := vt, ql := s.quality }
    else c }

/-- A SNAPSHOT is served with the boundary's VT64 (R116, R128). -/
def serveSnap (w : SnapWait) (n : Nat) (vt : W64) (s : State) : State :=
  let data := snapBlock w n vt s
  if w.qp == cubeQp then s.emit (.brlReport 0 (w32 data.length) data)
  else if s.brl.cmds.any fun c => c.qp == w.qp && c.cid == w.cid then ownBlock w data vt s
  else finishAt w.qp w.cid 0 (w32 data.length) vt s.quality (s.emit (.hostWrite w.buf data (s.fn (s.fnOf w.qp)).relaxed))

/-- The counts that run over a stroke begin again (R106, R193, R448, R481, R524). -/
def strokeCounts (s : State) : State :=
  let s := s.modStroke fun t => { t with hitNow := false, stats := { t.stats with ovrNow := 0, skipNow := 0 } }
  let s := s.modFcu fun u => { u with opened := Vector.replicate 4 0, merged := 0 }
  let s := s.modLink fun l => { l with counts := [], hits := 0, misses := 0, maxDelay := 0 }
  let s := s.modLgs fun l => { l with strokeBytes := 0, strokeRecs := 0, strokePeak := l.fill }
  s.modPorts fun p => { p with strokePeak := p.fill / 1024 }

/-- Step 1 of R181 at the boundary that begins stroke `n`, before any step: the hidden bank, the words STROKE_STATS,
TIME_STATUS and ATTEST give, the SNAPSHOTs that wait for it; then the counts begin again. -/
def strokeCapture (n : Nat) (vt : W64) (s : State) : State :=
  let data := bankData s.snap.sel s
  let due := s.basut.snaps.filter fun w => w.target ≤ n
  let s0 := s
  let s := due.foldl (fun s w => serveSnap w n vt s) (s.modBasut fun b => { b with snaps := b.snaps.filter fun w => n < w.target })
  let s := s.modSnap fun p => { p with hidden := some (w64 n, vt, data) }
  let s := s.modStroke fun t => { t with
    captured := group1 s0, capturedEng := groupEng s0, captured0 := group0 s0, captured2 := group2 s0 }
  strokeCounts s

/-! ### The boundary (R174, R175, R181, R195, R196, R198) -/

/-- A QUEUE_FULL overflow is open. -/
def anyOverflow (s : State) : Bool := s.link.qps.any fun p => p.2.overflow

/-- The end of the running stroke: jobs still running are overruns, the counts of rated strokes and of overload go on, and the
power is compared with the envelope (R178, R190, R193, R196). -/
def endStroke (powerMw : Nat) (s : State) : State :=
  let s := boundaryOverruns s
  let busy := s.stroke.loaded || anyOverflow s || s.link.counts.any fun c => c.2.opened != 0
  let s := s.modStroke fun t => { t with
    ovl := if busy then satAdd 16 t.ovl 1 else 0
    stats := { t.stats with strokes := t.stats.strokes + 1, ratedHit := satAdd 32 t.stats.ratedHit (bit (t.rated && t.hitNow)) } }
  let s := overloadCause s
  setCause Src.powerEnvelope (profilePower s.stroke.profile < powerMw) 0 s

/-- What the next stroke takes: its number, the VT64 of its boundary, and where it follows the lead also the lead's anchor
and period. -/
structure NextStroke where
  num    : Nat
  vt     : W64
  grid   : Option (Nat × W64 × Nat) := none
deriving DecidableEq, Repr

/-- Which stroke of the lead's grid comes next: the one after the running stroke where that is on the grid, else the first that
has still to come (R198). -/
def gridStep (n0 : Nat) (v0 : W64) (p : Nat) (s : State) : Int :=
  let len : Int := 16 * p
  let d := (s.stroke.vt.toNat : Int) - v0.toNat
  if d % len == 0 && (n0 : Int) + d / len == s.stroke.num then d / len + 1
  else ((s.now.toNat : Int) - v0.toNat) / len + 1

def nextStroke (s : State) : NextStroke :=
  let own : NextStroke := { num := s.stroke.num + 1, vt := s.nextBoundary }
  match s.brl.anchor with
  | some (n0, v0, p) =>
    if s.isFollower && s.time.source == 4 && s.time.pending.isNone && p != 0 then
      let k := gridStep n0 v0 p s
      { num := ((n0 : Int) + k).toNat, vt := i64 ((v0.toNat : Int) + k * (16 * p)), grid := some (n0, v0, p) }
    else own
  | none => own

/-- The stroke begins: its number, its VT64, the anchor and period it takes from the lead. -/
def beginAt (x : NextStroke) (t : Stroke) : Stroke :=
  let t := { t with num := x.num, vt := x.vt }
  match x.grid with
  | some (n0, v0, p) => { t with anchorN := n0, anchorVt := v0, period := p }
  | none => t

/-- A step moves the stroke's start, and the anchor is set to it (R174, R175). -/
def stepStroke (s : State) : State :=
  let r := applyStep s
  let d := r.time.vt64 - s.time.vt64
  if d == 0 then r
  else r.modStroke fun t => { t with vt := t.vt + d, anchorN := t.num, anchorVt := t.vt + d }

/-- Steps 2 to 5 of R181, with what else acts at a boundary: AUTO and the spare sequences (R529, R533), TE_PTM_OFS (R165),
shedding (R470), the producers of R400. -/
def openStroke (first : Bool) (s : State) : State :=
  let service := s.stroke.profile == 4
  let n := s.stroke.num
  let s := s.modStroke fun t => { t with loaded := anyOverflow s }
  let s := applyPtmOfs (stepStroke s)
  let s := bootProfile service (capo n first s)
  let s := planCheck (stepSeqs (autoPolicy s))
  let s := shedBoundary s
  let s := s.modBrl fun b => { b with leadStroke := n, leadVt := s.stroke.vt }
  let s := assertProducer 507 (assertProducer 506 s)
  releaseAll (fillGates s)

/-- A stroke boundary (R181). -/
def strokeBoundary (powerMw : Nat) (s : State) : State :=
  let x := nextStroke s
  let s := endStroke powerMw (s.bringVt x.vt)
  let s := strokeCapture x.num x.vt s
  openStroke false (s.modStroke (beginAt x))

/-- STROKE_BOUNDARY (R181). -/
def execStrokeBoundary (powerMw : Nat) (s : State) : Res :=
  act (s.alive && s.stroke.started && s.time.counting) (strokeBoundary powerMw) s

/-- The start of stroke 0 is a boundary like any other, its per-stroke counts at 0 (R128, R176). -/
def strokeZero (s : State) : State := openStroke true (strokeCapture 0 s.stroke.vt (strokeCounts s))

/-- ENGINE_INIT_COMPLETE (R63, R176). -/
def execEngineInitComplete (fail : List Eng) (s : State) : Res :=
  act (s.alive && s.boot.phase == .bringup && !s.boot.engineInitDone && s.boot.fw != .recovery)
    (fun s => strokeZero (engineInitDone fail s)) s

/-! ### Frets, budgets, courses (R174, R179, R186, R190) -/

/-- The next fret begins: what has become due is released. -/
def fretBoundary (s : State) : State :=
  let f := s.fretNow
  let s := if f < 63 then s.bringVt (s.stroke.vt + w64 ((f + 1) * s.fretVt)) else s
  if f < 63 then releaseAll (assertProducer 507 s) else s

/-- FRET_BOUNDARY (R186): frets 1 to 63; fret 0 begins with its stroke. -/
def execFretBoundary (s : State) : Res := act (s.alive && s.stroke.started && s.time.counting) fretBoundary s

/-- BUDGET_EXPIRY (R190). -/
def execBudgetExpiry (course slot : Nat) (s : State) : Res :=
  act (s.alive && course < 16 && slot < 12 && (s.gate (gateKey course slot)).cur.isSome) (budgetExpire (gateKey course slot)) s

/-- COURSE_POWER_DOWN (R179): a course out of the profile, once no job runs on it. -/
def execCoursePowerDown (n : Nat) (s : State) : Res :=
  act (s.alive && n < 16 && s.stroke.powered.getLsbD n && !s.stroke.inProfile.getLsbD n && !courseRuns n s)
    (fun s => powerDown n (dmaKill n s)) s

end Sys2Proof.Machine
end

