-- ==== Sys2Proof/Machine/Cube.lean ====
section
/-! DEFINITION. A cube command on a follower (R496, R497). -/
namespace Sys2Proof.Machine

/-- The body of an opcode's command, with the host data or image that the lead sent on. -/
def bodyOf (op q : Nat) (sub : Sub) (data : Option (List Byte)) : Body :=
  if op == 0x0001 then bodySnapshot
  else if op == 0x0002 then bodyIdentify
  else if op == 0x0003 then bodyQpCreate
  else if op == 0x0004 then bodyQpDelete
  else if op == 0x0005 then bodyQpModify
  else if op == 0x0006 then bodyQpQuery
  else if op == 0x0007 then bodyAbort
  else if op == 0x0008 then bodyWarmReset
  else if op == 0x0100 then bodyTimeGet
  else if op == 0x0101 then capoBody (.timeSource q sub) checkTimeSource
  else if op == 0x0102 then capoBody (.servoConfig q sub) checkServoConfig
  else if op == 0x0103 then capoBody (.gptpConfig q sub) checkGptpConfig
  else if op == 0x0104 then capoBody (.ppsConfig q sub) checkPpsConfig
  else if op == 0x0105 then bodyPtmCorrelate
  else if op == 0x0106 then bodyTimeStatus
  else if op == 0x0200 then bodyPlanLoad data
  else if op == 0x0201 then capoBody (.planActivate q sub) checkPlanActivate
  else if op == 0x0202 then capoBody (.profileSet q sub) checkProfileSet
  else if op == 0x0203 then capoBody (.strokeSet q sub) checkStrokeSet
  else if op == 0x0204 then capoBody (.overrunPolicy q sub) checkOverrunPolicy
  else if op == 0x0205 then bodyStrokeStats
  else if op == 0x0300 then bodyJobSubmit
  else if op == 0x0301 then capoBody (.streamBind q sub) checkStreamBind
  else if op == 0x0302 then bodyUcodeLoad (.ucodeLoad q sub data) data
  else if op == 0x0303 then bodyEngineReset
  else if op == 0x0400 then capoBody (.lgsMode q sub) checkLgsMode
  else if op == 0x0401 then bodyLgsTrigger
  else if op == 0x0402 then bodyLgsRead
  else if op == 0x0403 then capoBody (.lgsClass q sub) checkLgsClass
  else if op == 0x0404 then bodyLgsLife
  else if op == 0x0405 then bodyLgsSeal
  else if op == 0x0500 then bodyPortConfig (.portConfig q sub data) data
  else if op == 0x0501 then capoBody (.trigSchedule q sub) checkTrigSchedule
  else if op == 0x0502 then capoBody (.ingressClass q sub) checkIngressClass
  else if op == 0x0503 then bodyLidarRules (.lidarRules q sub data) data
  else if op == 0x0504 then bodyPortStatus
  else if op == 0x0600 then bodyEvtBind
  else if op == 0x0601 then bodyEvtUnbind
  else if op == 0x0602 then bodySenConfig (.senConfig q sub data) data
  else if op == 0x0603 then bodyTmrConfig (.tmrConfig q sub data) data
  else if op == 0x0604 then capoBody (.tmrStart q sub) checkTmrStart
  else if op == 0x0700 then bodyFcuSeverity
  else if op == 0x0701 then bodyFcuClear
  else if op == 0x0702 then bodyFjExport
  else if op == 0x0703 then bodyFjRead
  else if op == 0x0704 then bodyFcuInject
  else if op == 0x0800 then capoBody (.tuneSet q sub) checkTuneSet
  else if op == 0x0801 then capoBody (.tuneClear q sub) checkTuneClear
  else if op == 0x0802 then bodyHealthRead
  else if op == 0x0803 then capoBody (.retire q sub) checkRetire
  else if op == 0x0804 then capoBody (.reinstate q sub) checkReinstate
  else if op == 0x0805 then bodySparePolicy
  else if op == 0x0806 then bodyImageUpdate data
  else if op == 0x0900 then bodyAttest
  else if op == 0x0901 then bodySvnRaise
  else if op == 0x0902 then bodyKeyRevoke
  else if op == 0x0A00 then bodyCubeStatus
  else if op == 0x0A01 then capoBody (.leadSet q sub) checkLeadSet
  else if op == 0x0A02 then capoBody (.remoteWindow q sub) checkRemoteWindow
  else fun q cid _ s => refuse q cid Stat.invalidOpcode s

/-- Does an opcode's body read a buffer of bytes? -/
def takesData (op : Nat) : Bool := ([0x0200, 0x0302, 0x0500, 0x0503, 0x0602, 0x0603, 0x0806] : List Nat).contains op

/-- A command of the lead's: it runs here as the PF's, with its report in place of a completion. -/
def cubeReceive (op : Nat) (sub : Sub) (data : Option (List Byte)) (s : State) : State :=
  let cid := s.basut.nextCid
  let sub := { sub with flags := putBit sub.flags 3 false }
  perform cubeQp cid op sub (bodyOf op cubeQp sub data) (s.modBasut fun b => { b with nextCid := b.nextCid + 1 })

/-- CUBE_COMMAND_RECEIVE (R496). -/
def execCubeCommandReceive (opcode : W16) (sub : Sub) (data : Option (List Byte)) (s : State) : Res :=
  act (s.alive && s.ready Rdy.brl && s.isFollower && (!takesData opcode.toNat || dataFits opcode.toNat sub data))
    (cubeReceive opcode.toNat sub data) s

end Sys2Proof.Machine
end

