-- ==== Sys2Proof/Machine/Dispatch.lean ====
section
/-! DEFINITION. One arm per command: each is one direct call of its meaning. -/
namespace Sys2Proof.Machine

def exec (i : Instr) (s : State) : Host.Outcome State Fault Refusal :=
  match i with
  | .porstNLow => Sys2Proof.Machine.execPorstNLow s
  | .porstNRise straps rails => Sys2Proof.Machine.execPorstNRise straps rails s
  | .supplyMonitorTrip rail => Sys2Proof.Machine.execSupplyMonitorTrip rail s
  | .wrstNAssert => Sys2Proof.Machine.execWrstNAssert s
  | .warmResetPerform => Sys2Proof.Machine.execWarmResetPerform s
  | .pegboxWatchdog => Sys2Proof.Machine.execPegboxWatchdog s
  | .perstNAssert width speed => Sys2Proof.Machine.execPerstNAssert width speed s
  | .rstoutNRise width speed => Sys2Proof.Machine.execRstoutNRise width speed s
  | .pfailNRecognised => Sys2Proof.Machine.execPfailNRecognised s
  | .powerFailFlushComplete => Sys2Proof.Machine.execPowerFailFlushComplete s
  | .pfailNHighExpiry => Sys2Proof.Machine.execPfailNHighExpiry s
  | .inflightProgramsEnd => Sys2Proof.Machine.execInflightProgramsEnd s
  | .tjWarnCrossing => Sys2Proof.Machine.execTjWarnCrossing s
  | .tjCritCrossing => Sys2Proof.Machine.execTjCritCrossing s
  | .thermtripNAssert => Sys2Proof.Machine.execThermtripNAssert s
  | .selftestComplete => Sys2Proof.Machine.execSelftestComplete s
  | .xspiReadComplete => Sys2Proof.Machine.execXspiReadComplete s
  | .xspiReadTimeout => Sys2Proof.Machine.execXspiReadTimeout s
  | .patchDeliveryTimeout => Sys2Proof.Machine.execPatchDeliveryTimeout s
  | .imageVerifyDone => Sys2Proof.Machine.execImageVerifyDone s
  | .bootCtlGo val => Sys2Proof.Machine.execBootCtlGo val s
  | .bootCtlWarm val => Sys2Proof.Machine.execBootCtlWarm val s
  | .bootCtlRecovery val => Sys2Proof.Machine.execBootCtlRecovery val s
  | .brlImageDelivery peer imageType data => Sys2Proof.Machine.execBrlImageDelivery peer imageType data s
  | .engineInitComplete bistFail => Sys2Proof.Machine.execEngineInitComplete bistFail s
  | .dramTrainingComplete fit => Sys2Proof.Machine.execDramTrainingComplete fit s
  | .logStoreReady fit => Sys2Proof.Machine.execLogStoreReady fit s
  | .brlReadyCheck => Sys2Proof.Machine.execBrlReadyCheck s
  | .pcieMemRead fn bar off bytes => Sys2Proof.Machine.execPcieMemRead fn bar off bytes s
  | .pcieMemWrite fn bar off data => Sys2Proof.Machine.execPcieMemWrite fn bar off data s
  | .pcieTlpError err header => Sys2Proof.Machine.execPcieTlpError err header s
  | .functionLevelReset fn => Sys2Proof.Machine.execFunctionLevelReset fn s
  | .vfEnableClear => Sys2Proof.Machine.execVfEnableClear s
  | .d3hotTransition fn => Sys2Proof.Machine.execD3hotTransition fn s
  | .msixTableWrite fn vector word val => Sys2Proof.Machine.execMsixTableWrite fn vector word val s
  | .ptmRequestIssue responds => Sys2Proof.Machine.execPtmRequestIssue responds s
  | .ptmDialogComplete t2 propNs => Sys2Proof.Machine.execPtmDialogComplete t2 propNs s
  | .doeDiscovery index dwords => Sys2Proof.Machine.execDoeDiscovery index dwords s
  | .spdmGetVersion dwords => Sys2Proof.Machine.execSpdmGetVersion dwords s
  | .spdmGetCapabilities dwords => Sys2Proof.Machine.execSpdmGetCapabilities dwords s
  | .spdmNegotiateAlgorithms dwords asym hash => Sys2Proof.Machine.execSpdmNegotiateAlgorithms dwords asym hash s
  | .spdmGetDigests dwords => Sys2Proof.Machine.execSpdmGetDigests dwords s
  | .spdmGetCertificate dwords slot offset length => Sys2Proof.Machine.execSpdmGetCertificate dwords slot offset length s
  | .spdmChallenge dwords slot nonce => Sys2Proof.Machine.execSpdmChallenge dwords slot nonce s
  | .spdmGetMeasurements dwords index nonce => Sys2Proof.Machine.execSpdmGetMeasurements dwords index nonce s
  | .spdmOtherRequest dwords code => Sys2Proof.Machine.execSpdmOtherRequest dwords code s
  | .aqCtlEnable fn => Sys2Proof.Machine.execAqCtlEnable fn s
  | .aqCtlDisable fn => Sys2Proof.Machine.execAqCtlDisable fn s
  | .sqTailDoorbell fn q bytes val => Sys2Proof.Machine.execSqTailDoorbell fn q bytes val s
  | .cqHeadDoorbell fn q bytes val => Sys2Proof.Machine.execCqHeadDoorbell fn q bytes val s
  | .doorbellPairWrite fn q tail head => Sys2Proof.Machine.execDoorbellPairWrite fn q tail head s
  | .qcapDbdropRead fn => Sys2Proof.Machine.execQcapDbdropRead fn s
  | .sqEntryFetch => Sys2Proof.Machine.execSqEntryFetch s
  | .sqReadCompletion qp data => Sys2Proof.Machine.execSqReadCompletion qp data s
  | .sqReadTimeout qp => Sys2Proof.Machine.execSqReadTimeout qp s
  | .completionPost qp => Sys2Proof.Machine.execCompletionPost qp s
  | .moderationTimerExpiry qp => Sys2Proof.Machine.execModerationTimerExpiry qp s
  | .queueFullClose qp => Sys2Proof.Machine.execQueueFullClose qp s
  | .qpDeleteComplete qp => Sys2Proof.Machine.execQpDeleteComplete qp s
  | .snapshot qp sub => Sys2Proof.Machine.execSnapshot qp sub s
  | .identify qp sub => Sys2Proof.Machine.execIdentify qp sub s
  | .qpCreate qp sub => Sys2Proof.Machine.execQpCreate qp sub s
  | .qpDelete qp sub => Sys2Proof.Machine.execQpDelete qp sub s
  | .qpModify qp sub => Sys2Proof.Machine.execQpModify qp sub s
  | .qpQuery qp sub => Sys2Proof.Machine.execQpQuery qp sub s
  | .abort qp sub => Sys2Proof.Machine.execAbort qp sub s
  | .warmReset qp sub => Sys2Proof.Machine.execWarmReset qp sub s
  | .warmResetDelayExpiry => Sys2Proof.Machine.execWarmResetDelayExpiry s
  | .timeGet qp sub => Sys2Proof.Machine.execTimeGet qp sub s
  | .timeSource qp sub => Sys2Proof.Machine.execTimeSource qp sub s
  | .servoConfig qp sub => Sys2Proof.Machine.execServoConfig qp sub s
  | .gptpConfig qp sub => Sys2Proof.Machine.execGptpConfig qp sub s
  | .ppsConfig qp sub => Sys2Proof.Machine.execPpsConfig qp sub s
  | .ptmCorrelate qp sub => Sys2Proof.Machine.execPtmCorrelate qp sub s
  | .timeStatus qp sub => Sys2Proof.Machine.execTimeStatus qp sub s
  | .planLoad qp sub data => Sys2Proof.Machine.execPlanLoad qp sub data s
  | .planActivate qp sub => Sys2Proof.Machine.execPlanActivate qp sub s
  | .profileSet qp sub => Sys2Proof.Machine.execProfileSet qp sub s
  | .strokeSet qp sub => Sys2Proof.Machine.execStrokeSet qp sub s
  | .overrunPolicy qp sub => Sys2Proof.Machine.execOverrunPolicy qp sub s
  | .strokeStats qp sub => Sys2Proof.Machine.execStrokeStats qp sub s
  | .jobSubmit qp sub => Sys2Proof.Machine.execJobSubmit qp sub s
  | .streamBind qp sub => Sys2Proof.Machine.execStreamBind qp sub s
  | .ucodeLoad qp sub data => Sys2Proof.Machine.execUcodeLoad qp sub data s
  | .engineReset qp sub => Sys2Proof.Machine.execEngineReset qp sub s
  | .lgsMode qp sub => Sys2Proof.Machine.execLgsMode qp sub s
  | .lgsTrigger qp sub => Sys2Proof.Machine.execLgsTrigger qp sub s
  | .lgsRead qp sub => Sys2Proof.Machine.execLgsRead qp sub s
  | .lgsClass qp sub => Sys2Proof.Machine.execLgsClass qp sub s
  | .lgsLife qp sub => Sys2Proof.Machine.execLgsLife qp sub s
  | .lgsSeal qp sub => Sys2Proof.Machine.execLgsSeal qp sub s
  | .portConfig qp sub data => Sys2Proof.Machine.execPortConfig qp sub data s
  | .trigSchedule qp sub => Sys2Proof.Machine.execTrigSchedule qp sub s
  | .ingressClass qp sub => Sys2Proof.Machine.execIngressClass qp sub s
  | .lidarRules qp sub data => Sys2Proof.Machine.execLidarRules qp sub data s
  | .portStatus qp sub => Sys2Proof.Machine.execPortStatus qp sub s
  | .evtBind qp sub => Sys2Proof.Machine.execEvtBind qp sub s
  | .evtUnbind qp sub => Sys2Proof.Machine.execEvtUnbind qp sub s
  | .senConfig qp sub data => Sys2Proof.Machine.execSenConfig qp sub data s
  | .tmrConfig qp sub data => Sys2Proof.Machine.execTmrConfig qp sub data s
  | .tmrStart qp sub => Sys2Proof.Machine.execTmrStart qp sub s
  | .fcuSeverity qp sub => Sys2Proof.Machine.execFcuSeverity qp sub s
  | .fcuClear qp sub => Sys2Proof.Machine.execFcuClear qp sub s
  | .fjExport qp sub => Sys2Proof.Machine.execFjExport qp sub s
  | .fjRead qp sub => Sys2Proof.Machine.execFjRead qp sub s
  | .fcuInject qp sub => Sys2Proof.Machine.execFcuInject qp sub s
  | .tuneSet qp sub => Sys2Proof.Machine.execTuneSet qp sub s
  | .tuneClear qp sub => Sys2Proof.Machine.execTuneClear qp sub s
  | .healthRead qp sub => Sys2Proof.Machine.execHealthRead qp sub s
  | .retire qp sub => Sys2Proof.Machine.execRetire qp sub s
  | .reinstate qp sub => Sys2Proof.Machine.execReinstate qp sub s
  | .sparePolicy qp sub => Sys2Proof.Machine.execSparePolicy qp sub s
  | .imageUpdate qp sub data => Sys2Proof.Machine.execImageUpdate qp sub data s
  | .attest qp sub => Sys2Proof.Machine.execAttest qp sub s
  | .svnRaise qp sub => Sys2Proof.Machine.execSvnRaise qp sub s
  | .keyRevoke qp sub => Sys2Proof.Machine.execKeyRevoke qp sub s
  | .cubeStatus qp sub => Sys2Proof.Machine.execCubeStatus qp sub s
  | .leadSet qp sub => Sys2Proof.Machine.execLeadSet qp sub s
  | .remoteWindow qp sub => Sys2Proof.Machine.execRemoteWindow qp sub s
  | .strokeBoundary powerMw => Sys2Proof.Machine.execStrokeBoundary powerMw s
  | .snapBankSwitch => Sys2Proof.Machine.execSnapBankSwitch s
  | .snapCtlHold val => Sys2Proof.Machine.execSnapCtlHold val s
  | .fretBoundary => Sys2Proof.Machine.execFretBoundary s
  | .budgetExpiry course slot => Sys2Proof.Machine.execBudgetExpiry course slot s
  | .fgNextRead e => Sys2Proof.Machine.execFgNextRead e s
  | .fgDoneWrite m course slot val => Sys2Proof.Machine.execFgDoneWrite m course slot val s
  | .coursePowerDown course => Sys2Proof.Machine.execCoursePowerDown course s
  | .gptpSyncReceive port msg => Sys2Proof.Machine.execGptpSyncReceive port msg s
  | .gptpFollowUpReceive port seq time => Sys2Proof.Machine.execGptpFollowUpReceive port seq time s
  | .gptpAnnounceReceive port msg => Sys2Proof.Machine.execGptpAnnounceReceive port msg s
  | .gptpPdelayReceive port msg => Sys2Proof.Machine.execGptpPdelayReceive port msg s
  | .gptpSyncTransmit port => Sys2Proof.Machine.execGptpSyncTransmit port s
  | .gptpPdelayReqTransmit port => Sys2Proof.Machine.execGptpPdelayReqTransmit port s
  | .gptpAnnounceTransmit port => Sys2Proof.Machine.execGptpAnnounceTransmit port s
  | .gptpReceiptTimeout port isSync => Sys2Proof.Machine.execGptpReceiptTimeout port isSync s
  | .ppsInEdge rising => Sys2Proof.Machine.execPpsInEdge rising s
  | .sourceTimeout code => Sys2Proof.Machine.execSourceTimeout code s
  | .holdoverLimitExpiry => Sys2Proof.Machine.execHoldoverLimitExpiry s
  | .ref10InLoss => Sys2Proof.Machine.execRef10InLoss s
  | .crystalPathFailure path => Sys2Proof.Machine.execCrystalPathFailure path s
  | .tdcRecalibration pin residualVt code => Sys2Proof.Machine.execTdcRecalibration pin residualVt code s
  | .vt64Save => Sys2Proof.Machine.execVt64Save s
  | .ppsOutRise => Sys2Proof.Machine.execPpsOutRise s
  | .ppsOutFall => Sys2Proof.Machine.execPpsOutFall s
  | .tePtmOfsWrite val => Sys2Proof.Machine.execTePtmOfsWrite val s
  | .tioEdge pin rising => Sys2Proof.Machine.execTioEdge pin rising s
  | .veCtlRun e val => Sys2Proof.Machine.execVeCtlRun e val s
  | .veCtlRst e val => Sys2Proof.Machine.execVeCtlRst e val s
  | .veCtlRemap e val => Sys2Proof.Machine.execVeCtlRemap e val s
  | .integerOp e => Sys2Proof.Machine.execIntegerOp e s
  | .carryBorrowOp e => Sys2Proof.Machine.execCarryBorrowOp e s
  | .bitOp e => Sys2Proof.Machine.execBitOp e s
  | .multiplyOp e => Sys2Proof.Machine.execMultiplyOp e s
  | .divideOp e => Sys2Proof.Machine.execDivideOp e s
  | .divideComplete e => Sys2Proof.Machine.execDivideComplete e s
  | .pairedWord e => Sys2Proof.Machine.execPairedWord e s
  | .load e => Sys2Proof.Machine.execLoad e s
  | .loadReturn e => Sys2Proof.Machine.execLoadReturn e s
  | .lwx e => Sys2Proof.Machine.execLwx e s
  | .store e => Sys2Proof.Machine.execStore e s
  | .storeAck e index => Sys2Proof.Machine.execStoreAck e index s
  | .atomic e => Sys2Proof.Machine.execAtomic e s
  | .branch e => Sys2Proof.Machine.execBranch e s
  | .jump e => Sys2Proof.Machine.execJump e s
  | .jalr e => Sys2Proof.Machine.execJalr e s
  | .loop e => Sys2Proof.Machine.execLoop e s
  | .mfc e => Sys2Proof.Machine.execMfc e s
  | .mtc e => Sys2Proof.Machine.execMtc e s
  | .syscall e => Sys2Proof.Machine.execSyscall e s
  | .brk e => Sys2Proof.Machine.execBrk e s
  | .rfe e => Sys2Proof.Machine.execRfe e s
  | .sync e => Sys2Proof.Machine.execSync e s
  | .iflush e => Sys2Proof.Machine.execIflush e s
  | .wait e => Sys2Proof.Machine.execWait e s
  | .fpArith e => Sys2Proof.Machine.execFpArith e s
  | .fpMinMaxCompare e => Sys2Proof.Machine.execFpMinMaxCompare e s
  | .fpConvert e => Sys2Proof.Machine.execFpConvert e s
  | .interruptEntry e => Sys2Proof.Machine.execInterruptEntry e s
  | .asyncErrorEntry e => Sys2Proof.Machine.execAsyncErrorEntry e s
  | .interruptTakeover e => Sys2Proof.Machine.execInterruptTakeover e s
  | .handlerWindowExpiry e => Sys2Proof.Machine.execHandlerWindowExpiry e s
  | .irqSourceEdge e n => Sys2Proof.Machine.execIrqSourceEdge e n s
  | .irqSetWrite e val => Sys2Proof.Machine.execIrqSetWrite e val s
  | .irqPendWrite e val edges => Sys2Proof.Machine.execIrqPendWrite e val edges s
  | .pegboxMailbox e => Sys2Proof.Machine.execPegboxMailbox e s
  | .startCheckComplete e => Sys2Proof.Machine.execStartCheckComplete e s
  | .setvl e => Sys2Proof.Machine.execSetvl e s
  | .shape e => Sys2Proof.Machine.execShape e s
  | .shaper e => Sys2Proof.Machine.execShaper e s
  | .vrds e => Sys2Proof.Machine.execVrds e s
  | .vwrs e => Sys2Proof.Machine.execVwrs e s
  | .vectorArith e => Sys2Proof.Machine.execVectorArith e s
  | .vectorCompare e => Sys2Proof.Machine.execVectorCompare e s
  | .vectorReduction e => Sys2Proof.Machine.execVectorReduction e s
  | .vectorPermute e => Sys2Proof.Machine.execVectorPermute e s
  | .vgetVput e => Sys2Proof.Machine.execVgetVput e s
  | .vectorLoad e => Sys2Proof.Machine.execVectorLoad e s
  | .vectorStore e => Sys2Proof.Machine.execVectorStore e s
  | .vectorComplete e => Sys2Proof.Machine.execVectorComplete e s
  | .sstart e => Sys2Proof.Machine.execSstart e s
  | .sstarta e => Sys2Proof.Machine.execSstarta e s
  | .swait e => Sys2Proof.Machine.execSwait e s
  | .sstat e => Sys2Proof.Machine.execSstat e s
  | .scancel e => Sys2Proof.Machine.execScancel e s
  | .chordStart e => Sys2Proof.Machine.execChordStart e s
  | .chordComplete e => Sys2Proof.Machine.execChordComplete e s
  | .chordStop e => Sys2Proof.Machine.execChordStop e s
  | .chordResume e => Sys2Proof.Machine.execChordResume e s
  | .chordRestart e => Sys2Proof.Machine.execChordRestart e s
  | .mwNop e thread word => Sys2Proof.Machine.execMwNop e thread word s
  | .mwUalu e thread word => Sys2Proof.Machine.execMwUalu e thread word s
  | .mwLdc e thread word => Sys2Proof.Machine.execMwLdc e thread word s
  | .mwLane e thread word => Sys2Proof.Machine.execMwLane e thread word s
  | .mwExec e thread word => Sys2Proof.Machine.execMwExec e thread word s
  | .mwBr e thread word => Sys2Proof.Machine.execMwBr e thread word s
  | .mwCall e thread word => Sys2Proof.Machine.execMwCall e thread word s
  | .mwLoop e thread word => Sys2Proof.Machine.execMwLoop e thread word s
  | .mwEnd e thread word => Sys2Proof.Machine.execMwEnd e thread word s
  | .mwStage e thread word => Sys2Proof.Machine.execMwStage e thread word s
  | .mwCwait e thread word => Sys2Proof.Machine.execMwCwait e thread word s
  | .eccWriteBack inst codeword => Sys2Proof.Machine.execEccWriteBack inst codeword s
  | .patrolScrubRead inst codeword => Sys2Proof.Machine.execPatrolScrubRead inst codeword s
  | .lspStarveLimit e => Sys2Proof.Machine.execLspStarveLimit e s
  | .spareRowCopy row => Sys2Proof.Machine.execSpareRowCopy row s
  | .dramRefresh channel => Sys2Proof.Machine.execDramRefresh channel s
  | .fabricTimeout m addr write => Sys2Proof.Machine.execFabricTimeout m addr write s
  | .remoteAccessTimeout m addr write => Sys2Proof.Machine.execRemoteAccessTimeout m addr write s
  | .fabErrValidWrite val => Sys2Proof.Machine.execFabErrValidWrite val s
  | .dmaCmdGo m course ch => Sys2Proof.Machine.execDmaCmdGo m course ch s
  | .dmaCmdStop m course ch => Sys2Proof.Machine.execDmaCmdStop m course ch s
  | .dmaDescriptorCheck course ch => Sys2Proof.Machine.execDmaDescriptorCheck course ch s
  | .dmaStopTaken course ch => Sys2Proof.Machine.execDmaStopTaken course ch s
  | .dmaDescriptorComplete course ch => Sys2Proof.Machine.execDmaDescriptorComplete course ch s
  | .dmaErrorResponse course ch isWrite => Sys2Proof.Machine.execDmaErrorResponse course ch isWrite s
  | .senSwpulseWrite val => Sys2Proof.Machine.execSenSwpulseWrite val s
  | .senEventDelivery => Sys2Proof.Machine.execSenEventDelivery s
  | .veSenselRead e j => Sys2Proof.Machine.execVeSenselRead e j s
  | .timerTick t => Sys2Proof.Machine.execTimerTick t s
  | .linkedCarryArrive t => Sys2Proof.Machine.execLinkedCarryArrive t s
  | .timerCompareMatch t c => Sys2Proof.Machine.execTimerCompareMatch t c s
  | .tmrCmpWrite t c high val => Sys2Proof.Machine.execTmrCmpWrite t c high val s
  | .tmrCntWrite t high val => Sys2Proof.Machine.execTmrCntWrite t high val s
  | .tmrEvctlRead t => Sys2Proof.Machine.execTmrEvctlRead t s
  | .tmrCapselRead t => Sys2Proof.Machine.execTmrCapselRead t s
  | .captureLand t k => Sys2Proof.Machine.execCaptureLand t k s
  | .tmrCapLoRead t k => Sys2Proof.Machine.execTmrCapLoRead t k s
  | .tmrGstartGo => Sys2Proof.Machine.execTmrGstartGo s
  | .tmrGstartStop => Sys2Proof.Machine.execTmrGstartStop s
  | .tioBallDrive pin => Sys2Proof.Machine.execTioBallDrive pin s
  | .tioCfgRead pin => Sys2Proof.Machine.execTioCfgRead pin s
  | .stormWindowEnd => Sys2Proof.Machine.execStormWindowEnd s
  | .csi2FrameStart port vc frame => Sys2Proof.Machine.execCsi2FrameStart port vc frame s
  | .csi2LineStart port vc => Sys2Proof.Machine.execCsi2LineStart port vc s
  | .csi2LongPacket port vc dataType ecc crcOk data => Sys2Proof.Machine.execCsi2LongPacket port vc dataType ecc crcOk data s
  | .csi2FrameEnd port vc => Sys2Proof.Machine.execCsi2FrameEnd port vc s
  | .ethernetFrameReceive port fcsOk data => Sys2Proof.Machine.execEthernetFrameReceive port fcsOk data s
  | .ethBlockLockLoss port => Sys2Proof.Machine.execEthBlockLockLoss port s
  | .canFrameReceive port frame => Sys2Proof.Machine.execCanFrameReceive port frame s
  | .canBusOff port => Sys2Proof.Machine.execCanBusOff port s
  | .canBusOffRecovery port => Sys2Proof.Machine.execCanBusOffRecovery port s
  | .spiDrdyEvent port => Sys2Proof.Machine.execSpiDrdyEvent port s
  | .spiTransactionComplete port data => Sys2Proof.Machine.execSpiTransactionComplete port data s
  | .triggerRise t => Sys2Proof.Machine.execTriggerRise t s
  | .triggerFall t => Sys2Proof.Machine.execTriggerFall t s
  | .ingressRecordWrite => Sys2Proof.Machine.execIngressRecordWrite s
  | .eventEntryPost => Sys2Proof.Machine.execEventEntryPost s
  | .ingFillRead => Sys2Proof.Machine.execIngFillRead s
  | .lgsAppendWrite course val => Sys2Proof.Machine.execLgsAppendWrite course val s
  | .appendProcess course => Sys2Proof.Machine.execAppendProcess course s
  | .lgsQfillRead => Sys2Proof.Machine.execLgsQfillRead s
  | .pageProgramComplete pass => Sys2Proof.Machine.execPageProgramComplete pass s
  | .commitPoint => Sys2Proof.Machine.execCommitPoint s
  | .triggerClose id => Sys2Proof.Machine.execTriggerClose id s
  | .periodicSeal => Sys2Proof.Machine.execPeriodicSeal s
  | .blockRelocation segment => Sys2Proof.Machine.execBlockRelocation segment s
  | .retentionScrub block softDecoded retried weak uncorrectable => Sys2Proof.Machine.execRetentionScrub block softDecoded retried weak uncorrectable s
  | .segmentReclaim slc => Sys2Proof.Machine.execSegmentReclaim slc s
  | .capsuleCommit => Sys2Proof.Machine.execCapsuleCommit s
  | .brlTrainingComplete link nbr goodLanes peer => Sys2Proof.Machine.execBrlTrainingComplete link nbr goodLanes peer s
  | .brlLaneFailure link lane => Sys2Proof.Machine.execBrlLaneFailure link lane s
  | .brlRetrainComplete link replays => Sys2Proof.Machine.execBrlRetrainComplete link replays s
  | .brlLinkDown link present => Sys2Proof.Machine.execBrlLinkDown link present s
  | .brlTimeMessageSend => Sys2Proof.Machine.execBrlTimeMessageSend s
  | .brlTimeMessageReceive link msg => Sys2Proof.Machine.execBrlTimeMessageReceive link msg s
  | .brlReplyReceive link => Sys2Proof.Machine.execBrlReplyReceive link s
  | .leadLoss => Sys2Proof.Machine.execLeadLoss s
  | .remoteWindowAccessIn link addr bytes data => Sys2Proof.Machine.execRemoteWindowAccessIn link addr bytes data s
  | .cubeCommandReceive opcode sub data => Sys2Proof.Machine.execCubeCommandReceive opcode sub data s
  | .cubeCommandComplete reports => Sys2Proof.Machine.execCubeCommandComplete reports s
  | .faultRaise id info unit => Sys2Proof.Machine.execFaultRaise id info unit s
  | .fcuSrcOpenWrite m id val => Sys2Proof.Machine.execFcuSrcOpenWrite m id val s
  | .healthMonitorSample deltas => Sys2Proof.Machine.execHealthMonitorSample deltas s
  | .ceRateCheck => Sys2Proof.Machine.execCeRateCheck s
  | .eyeMarginCheck link lane margin => Sys2Proof.Machine.execEyeMarginCheck link lane margin s
  | .unitSelfTestComplete cls index pass => Sys2Proof.Machine.execUnitSelfTestComplete cls index pass s
  | .pbxLockstepMismatch => Sys2Proof.Machine.execPbxLockstepMismatch s
  | .oscCompareEnd agree => Sys2Proof.Machine.execOscCompareEnd agree s
  | .registerWrite space off val => Sys2Proof.Machine.execRegisterWrite space off val s
  | .functionBecomesUsable bit => Sys2Proof.Machine.execFunctionBecomesUsable bit s
  | .junctionTemperatureFall below => Sys2Proof.Machine.execJunctionTemperatureFall below s
  | .ethBlockLockGain port => Sys2Proof.Machine.execEthBlockLockGain port s
  | .csi2UlpsExit port => Sys2Proof.Machine.execCsi2UlpsExit port s
  | .csi2UlpsEntry port => Sys2Proof.Machine.execCsi2UlpsEntry port s
  | .debugHalt core => Sys2Proof.Machine.execDebugHalt core s
  | .debugHaltRelease core => Sys2Proof.Machine.execDebugHaltRelease core s
  | .nandBlockEraseComplete block pass => Sys2Proof.Machine.execNandBlockEraseComplete block pass s

end Sys2Proof.Machine
end

