-- ==== Sys2Proof/Machine/Step.lean ====
section
/-! DEFINITION. One step: the command at the front of the queue, or, on an empty queue, a tick. -/
namespace Sys2Proof.Machine

/-- With no command waiting, one vt passes for a device that is powered and out of power-on reset (log 4). -/
def idle (s : State) : State := if s.alive then s.advance 1 else s

/-- The front command acts on the state without it; the rest of the queue waits on. -/
def step (s : State) : Host.Outcome State Fault Refusal :=
  match s.pending with
  | [] => .next (idle s)
  | c :: rest => exec c { s with pending := rest }

/-- The state with the command a word spells in front of its queue. -/
def State.withFetchWord (s : State) (nbits w : Nat) : State :=
  match decodeTableWord nbits w with
  | some c => { s with pending := c :: s.pending }
  | none => s

end Sys2Proof.Machine
end

