-- ==== Sys2Proof/Safety.lean ====
section
/-! DEFINITION. What the claims speak of: a command that runs, a step that does not stop, fuses that move one way. -/
namespace Sys2Proof.Machine

/-- The command answers a next state, and `P` holds of it. -/
def Runs (c : Instr) (s : State) (P : State → Prop) : Prop := ∃ t, exec c s = .next t ∧ P t

/-- A step from here answers a next state: nothing faults and nothing is refused. -/
def Safe (s : State) : Prop := ∃ t, step s = .next t

/-- `g` is `f` with fuses blown and none mended: no floor is lower and every revoked slot stays revoked (R53, R124). -/
def Fuses.le (f g : Fuses) : Prop :=
  (∀ i : Fin 5, f.floors[i].toNat ≤ g.floors[i].toNat) ∧ ∀ k : Nat, f.revoked.getLsbD k = true → g.revoked.getLsbD k = true

/-- The blocks that posting an entry and raising a fault leave alone: two states with one `deep` differ in pins, eMRAM, the
host link, the command interpreter, time, strokes, fault collection, health, the bridge links and output alone. -/
def State.deep (s : State) := (s.boot, s.fuses, s.snap, s.sen, s.ports, s.eng, s.fab, s.dma, s.lgs, s.pending)

/-- The blocks that posting an entry leaves alone: all but the host link, strokes, the bridge links and output. -/
def State.wide (s : State) :=
  (s.pins, s.boot, s.fuses, s.em, s.basut, s.time, s.snap, s.fcu, s.health, s.sen, s.ports, s.eng, s.fab, s.dma, s.lgs, s.free, s.pending)

/-- A host command taken in its turn that has passed the common checks (R114, R555): it is command `cid` of QP `q`, and `u` is
the state in which it has started. It is no cube command. -/
structure Taken (op q : Nat) (sub : Sub) (s : State) (cid : Nat) (u : State) : Prop where
  up : basutUp q s = true
  claimed : claim q op sub s = some (cid, u)
  passed : checkCmd op q sub u = 0
  alone : onCube sub = false

/-- The core of `e` may issue, the word at its pc decodes to `op`, its place is legal and no register it reads is owed a result
(R212, R222, R238); `u` is the state in which it has been fetched, an entry under way being over (R274). -/
structure Issues (e : Eng) (op : EOp) (s u : State) : Prop where
  live : s.coreIssues e = true
  fetched : ∃ w, fetchCurrent e (s.setEngine e Engine.endEntry) = (some w, u) ∧ decodeWord w = some op
  place : illegalPlace (s.engine e) op = false
  ready : ((op.reads (shapeOf (s.engine e).vshape).sew).any fun r => (s.engine e).owed.contains r) = false

/-- `t` is `u` with the instruction at `e`'s pc complete: the registers written, results still owed to them dropped, its flags
set (R238). -/
def Completes (e : Eng) (ws : List (Nat × W32)) (flags : Nat) (u t : State) : Prop :=
  t = u.setEngine e fun x => (x.results ws).retire flags none

/-- `t` is `u` with the instruction at `e`'s pc complete as `f` says. -/
def Leaves (e : Eng) (u : State) (f : Engine → Engine) (t : State) : Prop := t = u.setEngine e f

/-- The base register updated as the addressing form says, if it does (R226 to R229). -/
def Engine.withBase (x : Engine) (base : Nat) (upd : Option W32) : Engine :=
  match upd with
  | some w => x.results [(base, w)]
  | none => x

/-- `t` is `u` with the instruction at `e`'s pc complete and its branch taken or not at the end of the delay slot (R217). -/
def Branches (e : Eng) (ws : List (Nat × W32)) (target : W32) (taken : Bool) (u t : State) : Prop :=
  t = u.setEngine e fun x =>
    { ((x.results ws).retire 0 none) with delay := some (if taken then target else x.pc + 8), taken := taken }

/-- `t` is `u` with a vector instruction issued: VPOS 0 and `f`'s changes, the instruction complete, `run` queued behind the
stores before it, and counted among them where it stores (R241, R305, R307). -/
def Queues (e : Eng) (run : VecRun) (u : State) (f : Engine → Engine) (t : State) : Prop :=
  t = u.setEngine e fun y =>
    let x : Engine := (f { y.supersede (run.writes.map (·.1)) with vpos := 0 }).retire 0 none
    { x with vq := x.vq ++ [{ run with seq := x.storeSeq }], storeSeq := x.storeSeq + bit run.store }

/-- Thread `th` of `e` runs chord `c`, whose operation has descriptor `bs`; its turn has come, no stop is to be taken first, and
it may issue `word`, of class `cls` (R341 to R346, R353). -/
structure MwReady (e : Eng) (th : Nat) (word : W64) (cls : Nat) (s : State) (c : Chord) (bs : List Byte) : Prop where
  chord : activeChord e th s = some (c, bs)
  live : s.suLive e = true
  turn : nextThread (s.engine e).su = some th
  going : c.trap ≠ some true
  mapped : wordMapped (bankOf (s.engine e).su c.bank) (threadOf (s.engine e).su th).upc = true
  stands : wordStands (bankOf (s.engine e).su c.bank) (threadOf (s.engine e).su th).upc word = true
  ofClass : (parseMw word).cls = cls

/-- The condition of a microword holds (R345). -/
def MwHolds (e : Eng) (th : Nat) (word : W64) (s : State) (c : Chord) (bs : List Byte) : Prop :=
  condHolds (s.engine e).su c (parseDesc bs) th (threadOf (s.engine e).su th) (parseMw word).cond = true

/-- The thread after a word, the value the word computes in its uidx where it has cm (R343). -/
def mwIndexed (v : Option Nat) (y : UThread) : UThread :=
  match v with
  | some v => { y with uidx := w32 v }
  | none => y

/-- The thread at its next word, a CWAIT behind it. -/
def mwNext (x : UThread) : UThread := { x with upc := x.upc + 1, cwait := false }

/-- `t` is `s` with `word` issued by thread `th` of `e`: the thread is `f` of itself at its next word, its cycles pass, `g` is
what the word moves, a value with cm goes to uidx and, in the last operation, to the chord's index, and a trap point is met
where a stop is pending (R342 to R344, R353). -/
def MwTo (e : Eng) (th : Nat) (word : W64) (c : Chord) (bs : List Byte) (f : UThread → UThread) (g : State → State) (s t : State) : Prop :=
  ∃ (m : MWord) (x : UThread) (v : Option Nat) (u : State),
    m = parseMw word ∧ x = threadOf (s.engine e).su th ∧ v = (if m.cm then mwValue m bs x else none) ∧
    u = (s.modSu e fun su =>
      let su := passCycles th m.cyc (putThread th (mwIndexed v (f (mwNext x))) su)
      if usesUacc m then { su with uaccBy := th } else su) ∧
    t = ((if th + 1 = c.descs.length then v.elim (g u) (fun v => mwCommit e th v (g u)) else g u).modChord e c.ticket fun c =>
      c.meetWord (m.tp && th + 1 == c.descs.length))

/-- `t` is `u` with the capo command `c` waiting for its boundary (R117). -/
def Waits (c : Instr) (q cid : Nat) (sub : Sub) (u t : State) : Prop :=
  t = { u with basut := { u.basut with capo := u.basut.capo ++ [{ qp := q, cid := cid, cmd := c, stroke := u.stroke.num, fret := u.fretNow, mono := u.time.mono, target := if atCapo sub then sub.stroke.toNat else 0, strict := strictCapo sub && (if atCapo sub then sub.stroke.toNat else 0) != 0, cube := onCube sub }] } }

/-- A capo command may wait: the stroke it names is not too far ahead, and where it is strict its boundary can be met. -/
def MayWait (sub : Sub) (u : State) : Prop :=
  tooFar sub u = false ∧
  (strictCapo sub = true → atCapo sub = true → sub.stroke.toNat = 0 ∨ firstMeet (onCube sub) u ≤ sub.stroke.toNat)

/-- Every memory of the device is in canonical form. -/
def State.memsWf (s : State) : Prop := ∀ m : MemRef, memWf (s.memOf m) = true

end Sys2Proof.Machine
end

