-- ==== Sys2Proof/Certificates/Slice0/Obligations.lean ====
section
/-! DEFINITION. The statements for the provers. The rows' statements conclude that each command answers a next state, and what it
is; the rest say what holds of every step, of shared operations, and of single rules. -/
open Sys2Proof Sys2Proof.Machine

/-- PORST_N low, PORST_N rising, a supply monitor trip and a warm reset each answer a next state. It names what is cleared
(link, engines, strokes, memories), what stays (fuses, eMRAM, straps; over a warm reset also VT64, the servo, DRAM and the
fault journal) and the reset cause. The condition of each is on the pins and the pending warm reset alone. It rests on the
model's choices of logs 2, 23. (R14, R43, R44, R45) -/
def Obligations.ResetRows : Prop :=
  (∀ s : State, s.pins.porstN = true → Runs .porstNLow s fun t =>
    t.pins.porstN = false ∧ t.pins.faultN = false ∧ t.pins.rstoutN = false ∧ t.boot.held = true ∧ t.boot.cause = 0 ∧
    t.link = {} ∧ t.basut = {} ∧ t.time = {} ∧ t.stroke = {} ∧ t.eng = {} ∧ t.dma = {} ∧ t.fab.dram = [] ∧ t.fab.csm = [] ∧
    t.fuses = s.fuses ∧ t.em = { s.em with writing := [] } ∧ t.boot.straps = s.boot.straps) ∧
  (∀ (s : State) (straps : BitVec 7) (rails : BitVec 3), s.pins.porstN = false → Runs (.porstNRise straps rails) s fun t =>
    t = { s with
      pins := { s.pins with porstN := true, rails := rails }
      boot := { s.boot with straps := straps, held := decide (straps.toNat % 4 = 3 ∨ rails ≠ 7), firstBoot := !s.em.marker, phase := .selftest } } ∧
    (t.alive = true ↔ (straps.getLsbD 0 = false ∨ straps.getLsbD 1 = false) ∧ rails = 7)) ∧
  (∀ (s : State) (rail : Rail), s.pins.porstN = true → Runs (.supplyMonitorTrip rail) s fun t =>
    t.pins.faultN = false ∧ t.pins.rstoutN = false ∧ t.boot.held = true ∧ t.boot.cause = 1 ∧ t.alive = false ∧
    t.pins.rails = putBit s.pins.rails (railBit rail) false ∧
    t.eng = {} ∧ t.fab.dram = [] ∧ t.fuses = s.fuses ∧ t.em = { s.em with writing := [] }) ∧
  (∀ (s : State) (k : Nat), s.alive = true → s.boot.warmReq = some k → s.lgs.flushing = false →
    Runs .warmResetPerform s fun t =>
      t.boot.cause = k ∧ t.boot.phase = .selftest ∧ t.boot.warmReq = none ∧ t.boot.straps = s.boot.straps ∧
      t.boot.recoverNow = s.boot.recoveryBit ∧ t.boot.recoveryBit = s.boot.recoveryBit ∧
      t.time.vt64 = s.time.vt64 ∧ t.time.servo = s.time.servo ∧ t.fab.dram = s.fab.dram ∧ t.fcu.ring = s.fcu.ring ∧
      t.em = { s.em with writing := [] } ∧ t.fuses = s.fuses ∧ t.link = {} ∧ t.eng = {} ∧ t.stroke = {} ∧ t.fab.csm = [] ∧ t.pins.rstoutN = false)

/-- WRST_N and the pegbox watchdog record a warm-reset cause unless one is recorded, RSTOUT_N rising starts the link,
PERST_N clears the PF, an xSPI read that ends begins a verification, and each timeout records its error and takes the next
source or goes on. The statement gives the next state of each. It rests on the model's choices of logs 11, 136. (R17, R28,
R43, R46, R49) -/
def Obligations.BootSourceRows : Prop :=
  (∀ s : State, s.alive = true → Runs .wrstNAssert s fun t =>
    t = { s with pins := { s.pins with wrstN := false }, boot := { s.boot with warmReq := some (s.boot.warmReq.getD 2) } }) ∧
  (∀ s : State, s.alive = true → Runs .pegboxWatchdog s fun t =>
    t = { s with boot := { s.boot with warmReq := some (s.boot.warmReq.getD 4) } }) ∧
  (∀ (s : State) (width speed : Nat), s.alive = true → s.pins.rstoutN = false → Runs (.rstoutNRise width speed) s fun t =>
    (width ∈ ([1, 2, 4, 8] : List Nat) → 1 ≤ speed → speed ≤ 5 →
      t = { s with pins := { s.pins with rstoutN := true }, link := { s.link with up := true, width := width, speed := speed } }) ∧
    (width ∉ ([1, 2, 4, 8] : List Nat) ∨ speed = 0 ∨ 5 < speed →
      t = { s with pins := { s.pins with rstoutN := true }, link := { s.link with up := false, width := 0, speed := 0 } })) ∧
  (∀ (s : State) (width speed : Nat), s.alive = true → Runs (.perstNAssert width speed) s fun t =>
    t.link.aer = [] ∧ t.link.numVfs = 0 ∧ t.link.ptmEn = false ∧ t.link.bars = [] ∧ (∀ p ∈ t.link.fns, p.1 ≠ 0) ∧ (∀ k ∈ t.link.pba, k / 2048 ≠ 0) ∧
    (s.delivering = false → t = { s with link := t.link }) ∧
    (s.delivering = true → tabFind t.fab.csm 0 = none ∧ tabFind t.fab.csm 1 = none ∧
      t = { s with
        link := t.link, fab := { s.fab with csm := t.fab.csm }
        boot := { s.boot with phase := if s.boot.phase = .bootFail then .bootFail else .waitHost } })) ∧
  (∀ s : State, s.alive = true → s.boot.straps.toNat % 4 = 0 → s.boot.verifying = .idle → s.boot.phase = .loadFw →
    Runs .xspiReadComplete s fun t => t = { s with
      pins := { s.pins with xspiCs0N := true, xspiCs1N := true }
      boot := { s.boot with phase := .verifyFw, verifying := .bootFw, image := flashImage s.boot.attempt 1 s } }) ∧
  (∀ s : State, s.alive = true → s.boot.straps.toNat % 4 = 0 → s.boot.verifying = .idle → s.boot.phase = .loadUcode →
    Runs .xspiReadComplete s fun t => t = { s with
      pins := { s.pins with xspiCs0N := true, xspiCs1N := true }
      boot := { s.boot with verifying := .bootUcode, image := flashImage s.boot.attempt 2 s } }) ∧
  (∀ s : State, s.alive = true → s.boot.straps.toNat % 4 = 0 → s.boot.verifying = .idle → s.boot.phase = .loadFw →
    s.boot.attempt = 0 → Runs .xspiReadTimeout s fun t =>
      t = { s with
        pins := { s.pins with xspiCs0N := true, xspiCs1N := false }
        boot := { s.boot with error := 8, attempt := 1, source := 1, phase := .loadFw, verifying := .idle } }) ∧
  (∀ s : State, s.alive = true → s.boot.straps.toNat % 4 ≠ 0 → s.boot.verifying = .idle → s.boot.phase = .loadUcode →
    Runs .patchDeliveryTimeout s fun t => t = { s with boot := { s.boot with error := 8, phase := .bringup } }) ∧
  (∀ (s : State) (peer : Nat) (data : List Byte), s.alive = true → s.boot.straps.toNat % 4 = 2 → s.boot.verifying = .idle → s.boot.phase = .waitHost →
    Runs (.brlImageDelivery peer 1 data) s fun t =>
      t = { s with boot := { s.boot with phase := .verifyFw, verifying := .bootFw, image := data } }) ∧
  (∀ (s : State) (peer : Nat) (data : List Byte), s.alive = true → s.boot.straps.toNat % 4 ≠ 2 → s.isLead = true → s.ready Rdy.brl = true →
    Runs (.brlImageDelivery peer 1 data) s fun t => t = s.emit (.brlImage peer 1 s.boot.fwImage))

/-- The self-test starts the FCU and the first source, and a temperature that trips stands as its fault; the end of a
verification takes an accepted image, and reports a refused one with the error of its first failing check and leaves the
running images alone; a BOOT_CTL write acts only with its key 0x5A17, and its go takes the bytes the host has delivered. The
statement gives the next state of each. It rests on the model's choices of logs 60, 61, 133, 135, 137, 138, 139. (R29, R45,
R53, R58) -/
def Obligations.BootSequenceRows : Prop :=
  (∀ s : State, s.alive = true → s.boot.phase = .selftest → s.boot.selfTestDone = false → s.boot.recoverNow = false →
    s.boot.verifying = .idle → s.pins.tjBand = 0 → s.pins.thermtripN = true → (∀ r ∈ s.fcu.recs, r.2.cause = false) →
    Runs .selftestComplete s fun t =>
      t.boot.selfTestDone = true ∧ t.boot.attempt = 0 ∧ t.fcu.running = true ∧ t.ready Rdy.fcu = true ∧
      t.boot.phase = (if s.boot.straps.toNat % 4 = 0 then .loadFw else .waitHost) ∧
      t.pins = { s.pins with
        faultN := !s.fcu.safe, xspiCs0N := decide (s.boot.straps.toNat % 4 ≠ 0), xspiCs1N := true
        brlTxUp := s.pins.brlTxUp || decide (s.boot.straps.toNat % 4 = 2) } ∧
      t.eng = s.eng ∧ t.fab = s.fab ∧ t.dma = s.dma ∧ t.lgs = s.lgs ∧ t.time = s.time ∧ t.em = s.em ∧ t.fuses = s.fuses) ∧
  (∀ s : State, s.alive = true → s.boot.phase = .selftest → s.boot.selfTestDone = false → s.boot.recoverNow = false →
    s.pins.tjBand = 0 → s.pins.thermtripN = false → s.fcu.recs = [] →
    Runs .selftestComplete s fun t => (t.frec Src.thermtrip).isOpen = true ∧ t.fcu.safe = true ∧ t.pins.thermtripN = false) ∧
  (∀ s : State, s.alive = true → s.boot.verifying = .bootFw → Runs .imageVerifyDone s fun t =>
    (verifyImage s 1 s.boot.image = 0 → t = { s with
      brl := t.brl
      pins := { s.pins with xspiCs0N := decide (s.boot.straps.toNat % 4 ≠ 0), xspiCs1N := true, brlTxUp := true }
      boot := { s.boot with
        fw := .fw, fwSvn := w32 (imgSvn s.boot.image), fwKey := imgKeySlot s.boot.image, fwImage := s.boot.image, phase := .loadUcode, verifying := .idle
        attempt := 0, consecFails := 0 } }) ∧
    (verifyImage s 1 s.boot.image ≠ 0 → t.boot.error = verifyImage s 1 s.boot.image ∧ t.boot.fails = min 15 (s.boot.fails + 1) ∧
      t.boot.fw = s.boot.fw ∧ t.boot.patch = s.boot.patch ∧ t.boot.patchOk = s.boot.patchOk ∧ t.eng = s.eng ∧ t.fab = s.fab ∧ t.fuses = s.fuses)) ∧
  (∀ s : State, s.alive = true → s.boot.verifying = .bootUcode → Runs .imageVerifyDone s fun t =>
    (verifyImage s 2 s.boot.image = 0 → t = { s with boot := { s.boot with
      patch := some (patchOf (imgPayload s.boot.image)), patchOk := true, patchLevel := (patchOf (imgPayload s.boot.image)).level.toNat, phase := .bringup
      verifying := .idle, ucImage := s.boot.image } }) ∧
    (verifyImage s 2 s.boot.image ≠ 0 → t.boot.error = verifyImage s 2 s.boot.image ∧ t.boot.fails = min 15 (s.boot.fails + 1) ∧
      t.boot.fw = s.boot.fw ∧ t.boot.patch = s.boot.patch ∧ t.boot.patchOk = s.boot.patchOk ∧ t.eng = s.eng ∧ t.fab = s.fab ∧ t.fuses = s.fuses)) ∧
  (∀ s : State, s.alive = true → s.boot.verifying = .emramRecovery ∨ s.boot.verifying = .bootRecovery → Runs .imageVerifyDone s fun t =>
    (verifyImage s 4 s.boot.image = 0 → s.fcu.safe = false → t = { s with boot := { s.boot with
      phase := .recovery, verifying := .idle, fw := .recovery, fwSvn := w32 (imgSvn s.boot.image), fwKey := imgKeySlot s.boot.image
      source := if s.boot.verifying = .emramRecovery then 2 else 0 } }) ∧
    (verifyImage s 4 s.boot.image ≠ 0 → s.boot.verifying = .bootRecovery → t = { s with boot := { s.boot with
      error := verifyImage s 4 s.boot.image, fails := min 15 (s.boot.fails + 1), verifying := .idle } })) ∧
  (∀ (s u : State) (val : W32), s.alive = true → s.link.up = true → bitsAt val.toNat 16 16 = 0x5A17 → val.getLsbD 0 = true →
    val.getLsbD 2 = false → s.boot.verifying = .idle → s.boot.phase = .waitHost → s.boot.bootLen.toNat ≤ 0x401800 →
    u = { s with boot := { s.boot with recoveryBit := val.getLsbD 1, phase := .verifyFw } } →
    Runs (.bootCtlGo val) s fun t =>
      t = { (csmImage u).2 with boot := { (csmImage u).2.boot with verifying := .bootFw, image := (csmImage u).1 } } ∧
      t.boot = { u.boot with verifying := .bootFw, image := (csmImage u).1 }) ∧
  (∀ (s : State) (val : W32), s.alive = true → s.link.up = true → bitsAt val.toNat 16 16 = 0x5A17 → val.getLsbD 0 = false →
    val.getLsbD 2 = true → Runs (.bootCtlWarm val) s fun t =>
      t = { s with boot := { s.boot with recoveryBit := val.getLsbD 1, warmReq := some (s.boot.warmReq.getD 3) } }) ∧
  (∀ (s : State) (val : W32), s.alive = true → s.link.up = true → bitsAt val.toNat 16 16 = 0x5A17 → val.getLsbD 0 = false →
    val.getLsbD 2 = false → Runs (.bootCtlRecovery val) s fun t => t = { s with boot := { s.boot with recoveryBit := val.getLsbD 1 } }) ∧
  (∀ (s : State) (val : W32), bitsAt val.toNat 16 16 ≠ 0x5A17 →
    exec (.bootCtlGo val) s = .next s ∧ exec (.bootCtlWarm val) s = .next s ∧ exec (.bootCtlRecovery val) s = .next s)

/-- A function whose conditions hold becomes ready and its readiness bit alone changes the boot state. DRAM training and the
log store come up with an accepted fitting, and with a refused one raise their fault source and leave the readiness map
alone. Engine initialisation starts stroke 0. It rests on the model's choices of logs 10, 19, 164. (R62, R63, R64, R176,
R374, R451, R468, R483) -/
def Obligations.BringUpRows : Prop :=
  (∀ (s : State) (b : Nat), usableNow b s = true → b ≠ 0 ∨ s.time.counting = true → Runs (.functionBecomesUsable b) s fun t =>
    t.ready b = true ∧ t.boot = { s.boot with readyMap := putBit s.boot.readyMap b true } ∧
    t.pins = { s.pins with ethTxUp := b == 9 || s.pins.ethTxUp } ∧
    t.time = s.time ∧ t.eng = s.eng ∧ t.fab = s.fab ∧ t.dma = s.dma ∧ t.lgs = s.lgs ∧ t.fcu = s.fcu ∧ t.em = s.em) ∧
  (∀ s : State, s.alive = true → s.time.counting = false → Runs (.functionBecomesUsable 0) s fun t =>
    t.ready 0 = true ∧ (s.sources.contains 5 = false → t.time = { s.time with
      counting := true, vt64 := if s.em.marker then s.em.savedVt + 0x400000000 else 0,
      ref10 := s.boot.straps.getLsbD 2, path := s.em.oscB })) ∧
  (∀ (s : State) (f : DramFit) (r : Nat), s.fwUp = true → s.boot.dramTrained = false → dramFitOk f = true → dramRateOf f = some r →
    Runs (.dramTrainingComplete f) s fun t =>
      t.ready Rdy.dram = true ∧ t.boot.dramTrained = true ∧ t.boot.dramRate = r ∧ t.boot.dramRanks = f.ranks.headD 0 ∧
      t.boot.dramGib = 4 * f.capGib.headD 0 ∧ t.eng = s.eng ∧ t.fab = s.fab ∧ t.time = s.time ∧ t.fcu = s.fcu) ∧
  (∀ (s : State) (f : DramFit), s.fwUp = true → s.boot.dramTrained = false → dramFitOk f = false ∨ dramRateOf f = none →
    s.fcu.running = true → (s.frec Src.dramTrain).isOpen = false → Runs (.dramTrainingComplete f) s fun t =>
      t.boot = s.boot ∧ (t.frec Src.dramTrain).isOpen = true) ∧
  (∀ (s : State) (f : NandFit), s.fwUp = true → s.ready Rdy.lgsRead = false → nandOk f = true →
    newestHead s.lgs.heads ≠ none ∨ s.em.marker = false → Runs (.logStoreReady f) s fun t =>
      t.ready Rdy.lgsRead = true ∧ t.ready Rdy.lgsWrite = true ∧ t.pins = { s.pins with wpN := !s.fcu.safe } ∧ t.lgs.fit = some f ∧
      (∀ h, newestHead s.lgs.heads = some h → t.lgs.nextSeq = headSeqOf h ∧ t.lgs.headGen = headGenOf h ∧ t.lgs.recs = s.lgs.recs) ∧
      (newestHead s.lgs.heads = none → t.lgs.nextSeq = 0 ∧ t.lgs.headGen = 0 ∧ t.lgs.recs = []) ∧
      t.em = { s.em with marker := true } ∧ t.eng = s.eng ∧ t.fab = s.fab ∧ t.time = s.time ∧ t.fcu = s.fcu) ∧
  (∀ (s : State) (f : NandFit), s.fwUp = true → s.ready Rdy.lgsRead = false → nandOk f = false →
    s.fcu.running = true → (s.frec Src.lgsGeom).isOpen = false → Runs (.logStoreReady f) s fun t =>
      t.boot = s.boot ∧ t.lgs = s.lgs ∧ (t.frec Src.lgsGeom).isOpen = true) ∧
  (∀ (s : State) (f : NandFit), s.fwUp = true → s.ready Rdy.lgsRead = false → nandOk f = true → s.em.marker = true →
    newestHead s.lgs.heads = none → s.fcu.running = true → (s.frec Src.lgsIndex).isOpen = false → Runs (.logStoreReady f) s fun t =>
      t.boot = s.boot ∧ t.lgs = s.lgs ∧ (t.frec Src.lgsIndex).isOpen = true) ∧
  (∀ s : State, s.fwUp = true → s.ready Rdy.brl = false → (∀ k < 4, (s.brLink k).state ≠ 3) → Runs .brlReadyCheck s fun t => t.ready Rdy.brl = true) ∧
  (∀ (s : State) (fail : List Eng), s.alive = true → s.boot.phase = .bringup → s.boot.engineInitDone = false → s.boot.fw ≠ .recovery →
    Runs (.engineInitComplete fail) s fun t => ∃ u : State,
      u.stroke.started = true ∧ u.stroke.num = 0 ∧ u.stroke.anchorN = 0 ∧ u.stroke.anchorVt = u.stroke.vt ∧ u = engineInitDone fail s ∧
      t = openStroke true (strokeCapture 0 u.stroke.vt (strokeCounts u)))

/-- PFAIL_N starts the flush and the low-power profile, the end of the flush raises PFAIL_DONE, and the temperature
crossings open their fault sources, the critical ones entering the safe state. The statement gives what each changes and
that nothing else moves. It rests on the model's choices of logs 140, 141. (R22, R41, R516) -/
def Obligations.PowerAndTemperatureRows : Prop :=
  (∀ s : State, s.alive = true → s.pins.pfailDone = false → s.fcu.safe = false → Runs .pfailNRecognised s fun t =>
    t.pins = { s.pins with pfailN := false } ∧ t.lgs.flushing = true ∧ t.stroke.profile = 3 ∧ t.stroke.eclk = 0 ∧
    t.stroke.active = none ∧ t.boot = s.boot ∧ t.em = s.em ∧ t.time = s.time ∧ t.fcu = s.fcu) ∧
  (∀ s : State, s.alive = true → s.pins.pfailDone = true → Runs .pfailNRecognised s fun t =>
    t = { s with pins := { s.pins with pfailN := false } }) ∧
  (∀ s : State, s.alive = true → s.pins.pfailDone = false → s.fcu.safe = true → Runs .pfailNRecognised s fun t =>
    t.pins = { s.pins with pfailN := false, pfailDone := !s.pins.wpN } ∧ t.lgs = s.lgs ∧ t.stroke.profile = 3 ∧
    t.boot = s.boot ∧ t.em = s.em ∧ t.time = s.time ∧ t.fcu = s.fcu) ∧
  (∀ s : State, s.alive = true → s.lgs.flushing = true → s.fcu.safe = false → Runs .powerFailFlushComplete s fun t =>
    t.pins = { t.pins with pfailDone := true } ∧ t.lgs.flushing = false ∧ (s.ready Rdy.lgsWrite = true → t.lgs.pf = true) ∧
    (s.ready Rdy.lgsWrite = false → t = { s with pins := { s.pins with pfailDone := true }, lgs := { s.lgs with flushing := false } })) ∧
  (∀ s : State, s.alive = true → s.pins.pfailDone = true → s.lgs.flushing = false → Runs .pfailNHighExpiry s fun t =>
    t = { s with pins := { s.pins with pfailDone := false, pfailN := true } }) ∧
  (∀ s : State, s.alive = true → s.fcu.safe = true → Runs .inflightProgramsEnd s fun t =>
    t = { s with
      lgs := { s.lgs with placed := [], flushing := false }
      pins := { s.pins with wpN := false, pfailDone := s.pins.pfailDone || s.lgs.flushing || !s.pins.pfailN } }) ∧
  (∀ s : State, s.alive = true → s.fcu.running = true → (s.frec Src.tjWarn).cause = false → (s.frec Src.tjWarn).isOpen = false →
    Runs .tjWarnCrossing s fun t => (t.frec Src.tjWarn).isOpen = true ∧ (t.frec Src.tjWarn).cause = true ∧
      (t.frec Src.tjWarn).sev = s.sevOf Src.tjWarn ∧ t.deep = s.deep) ∧
  (∀ s : State, s.alive = true → s.fcu.running = true → (s.frec Src.tjCrit).cause = false → (s.frec Src.tjCrit).isOpen = false →
    Runs .tjCritCrossing s fun t => (t.frec Src.tjCrit).isOpen = true ∧ (t.frec Src.tjCrit).cause = true ∧
      (t.frec Src.tjCrit).sev = 3 ∧ t.fcu.safe = true ∧ t.deep = s.deep) ∧
  (∀ s : State, s.alive = true → s.fcu.running = true → (s.frec Src.thermtrip).isOpen = false →
    Runs .thermtripNAssert s fun t => (t.frec Src.thermtrip).isOpen = true ∧ t.pins.thermtripN = false ∧ t.pins.tjBand = 3 ∧
      t.fcu.safe = true ∧ t.deep = s.deep) ∧
  (∀ (s : State) (below : Nat), s.alive = true → below ≤ 115 → Runs (.junctionTemperatureFall below) s fun t =>
    (t.frec Src.tjCrit).cause = false ∧ (t.frec Src.tjWarn).cause = false ∧ t.pins = { s.pins with tjBand := 0 } ∧
    t = { s with pins := t.pins, fcu := t.fcu } ∧ t.fcu.safe = s.fcu.safe)

/-- A BAR0 read answers the register, a read of the configuration space or of DRAM its bytes, a read that no BAR takes is an
unsupported request, a write sets the register, stores its bytes or rings its doorbell, a link error is logged in AER and
opens its source, an FLR and a VF clear act on their functions alone, and a PTM dialog records and samples. The statement
gives each next state. It rests on the model's choices of logs 8, 62, 63, 144. (R4, R72, R77, R78, R79, R92, R93, R101,
R104, R105, R163, R370) -/
def Obligations.PcieRows : Prop :=
  (∀ (s : State) (off n : Nat), s.alive = true → s.link.up = true → s.barHit 0 0 off n = true → off = 0x44 → n = 4 →
    Runs (.pcieMemRead 0 0 off n) s fun t =>
      t = s.emit (.readCompletion (some (leBytes 4 s.boot.readyMap.toNat)) false)) ∧
  (∀ (s u : State) (fn off : Nat) (v : W32), s.alive = true → s.link.up = true → s.barHit fn 0 off 4 = true → off % 4 = 0 →
    bar0Rd fn off s = (.ok v, u) → Runs (.pcieMemRead fn 0 off 4) s fun t =>
      t = u.emit (.readCompletion (some (leBytes 4 v.toNat)) false)) ∧
  (∀ (s : State) (off n : Nat) (l : List (Option Byte)) (u : State), s.alive = true → s.link.up = true → s.barHit 0 4 off n = true → s.ready Rdy.dram = true →
    off + n ≤ 0x800000000 → s.dramOk off n = true → memLoad .dram off n s = (l, u) →
    Runs (.pcieMemRead 0 4 off n) s fun t =>
      t = u.emit (.readCompletion (some (l.map (·.getD 0))) (allBytes l).isNone)) ∧
  (∀ (s : State) (fn off n : Nat), s.alive = true → s.link.up = true → s.fnExists fn = true →
    Runs (.pcieMemRead fn 6 off n) s fun t => t = s.emit (.readCompletion (some (cfgBytes fn off n s)) false)) ∧
  (∀ (s : State) (fn bar off n : Nat), s.alive = true → s.link.up = true → bar ≠ 6 → s.barHit fn bar off n = false →
    Runs (.pcieMemRead fn bar off n) s fun t => t.out.head? = some (.readCompletion none false) ∧ t.link.aer.contains .unsupportedRequest = true ∧
      t.deep = s.deep) ∧
  (∀ (s : State) (data : List Byte), s.alive = true → s.link.up = true → (s.fn 0).d3hot = false → data.length = 4 →
    Runs (.pcieMemWrite 0 0 0x54 data) s fun t => t = { s with boot := { s.boot with bootLen := w32 (leNat data) } }) ∧
  (∀ (s u : State) (fn off : Nat) (v x : W32), s.alive = true → s.link.up = true → s.barHit fn 0 off 4 = true → off % 4 = 0 →
    bar0Wr fn off v s = (.ok x, u) → Runs (.pcieMemWrite fn 0 off (leBytes 4 v.toNat)) s fun t => t = u) ∧
  (∀ (s : State) (off : Nat) (data : List Byte), s.alive = true → s.link.up = true → s.barHit 0 4 off data.length = true → s.ready Rdy.dram = true →
    off + data.length ≤ 0x800000000 → s.dramOk off data.length = true →
    Runs (.pcieMemWrite 0 4 off data) s fun t => t = (memStore .dram off data s).2) ∧
  (∀ (s : State) (fn q : Nat) (v : W32), s.alive = true → s.link.up = true → s.barHit fn 2 (16 * q) 4 = true →
    Runs (.pcieMemWrite fn 2 (16 * q) (leBytes 4 v.toNat)) s fun t => exec (.sqTailDoorbell fn q 4 v) s = .next t) ∧
  (∀ (s u : State) (e : TlpError) (h : BitVec 128), s.alive = true → s.link.up = true → e ≠ .ecrc ∨ s.link.ecrcChk = true →
    u = sendMsix 0 0 (({ s with link := { s.link with
      aer := if s.link.aer.contains e then s.link.aer else s.link.aer ++ [e]
      hdrLog := if s.link.hdrLog.isNone && (aerBit e).1 then some (e, h.extractLsb' 0 64, h.extractLsb' 64 64) else s.link.hdrLog } } : State).emit
        (.aer e (aerSeverity e))) →
    Runs (.pcieTlpError e h) s fun t =>
      t = (if e = .correctedInternal then raiseFault Src.pcieCie 0 unitNone u
        else if e = .uncorrectableInternal then raiseFault Src.pcieUie 0 unitNone u else u) ∧
      t.deep = s.deep ∧
      (s.fcu.running = true → (s.frec Src.pcieCie).isOpen = false → e = .correctedInternal → (t.frec Src.pcieCie).isOpen = true) ∧
      (s.fcu.running = true → (s.frec Src.pcieUie).isOpen = false → e = .uncorrectableInternal → (t.frec Src.pcieUie).isOpen = true)) ∧
  (∀ (s : State) (h : BitVec 128), s.alive = true → s.link.up = true → s.link.ecrcChk = false →
    Runs (.pcieTlpError .ecrc h) s fun t => t = s) ∧
  (∀ (s : State) (fn : Nat), s.bar2Up fn = true → Runs (.functionLevelReset fn) s fun t =>
    t = { s with link := t.link } ∧ t.fn fn = {} ∧ (∀ p ∈ t.link.fns, p.1 ≠ fn) ∧ (∀ k ∈ t.link.pba, k / 2048 ≠ fn) ∧
    (∀ p ∈ t.link.msix, p.1 / 2048 ≠ fn) ∧
    (∀ q ∈ s.qpsOf fn, (t.qp q).state = .deleting ∧ (t.qp q).reading = 0) ∧
    (fn = 0 → t.link.numVfs = 0 ∧ t.link.ptmEn = false ∧ t.link.ptmSent = none) ∧
    (fn ≠ 0 → (∀ v, v ≠ fn → t.fn v = s.fn v) ∧ ∀ q, s.fnOf q ≠ fn → t.qp q = s.qp q)) ∧
  (∀ s : State, s.bar2Up 0 = true → Runs .vfEnableClear s fun t =>
    t = { s with link := t.link } ∧ t.link.numVfs = 0 ∧
    (∀ v, 1 ≤ v → v ≤ s.link.numVfs → t.fn v = {}) ∧ t.fn 0 = s.fn 0 ∧
    (∀ v, 1 ≤ v → v ≤ s.link.numVfs → ∀ q ∈ s.qpsOf v, (t.qp q).state = .deleting ∧ (t.qp q).reading = 0)) ∧
  (∀ (s : State) (fn : Nat), s.bar2Up fn = true → Runs (.d3hotTransition fn) s fun t =>
    (t.fn fn).d3hot = true ∧ (∀ v, v ≠ fn → t.fn v = s.fn v) ∧ t = { s with link := { s.link with fns := t.link.fns } }) ∧
  (∀ (s : State) (fn vec word : Nat) (val : W32), s.bar2Up fn = true → vec < 2048 → word = 3 → val.getLsbD 0 = true →
    (∀ k ∈ s.link.pba, k / 2048 ≠ fn) → Runs (.msixTableWrite fn vec word val) s fun t =>
      tabGet t.link.msix (2048 * fn + vec) {} = { (tabGet s.link.msix (2048 * fn + vec) ({} : MsixEntry)) with ctrl := 1 } ∧
      t = { s with link := { s.link with msix := t.link.msix } }) ∧
  (∀ s : State, s.alive = true → s.link.up = true → s.link.ptmEn = true → Runs (.ptmRequestIssue true) s fun t =>
    t = { s with link := { s.link with ptmSent := some (s.time.vt64, s.quality, s.time.era) }, out := .ptmRequest s.time.vt64 :: s.out }) ∧
  (∀ s : State, Runs (.ptmRequestIssue false) s fun t => t = s) ∧
  (∀ (s : State) (t2 : W64) (prop : W32) (vt : W64) (ql : Quality) (era : Nat), s.alive = true → s.link.up = true → s.link.ptmSent = some (vt, ql, era) →
    vtRangeOk (16 * (t2.toNat - prop.toNat : Nat) + s.time.ptmOfs.toInt) = true → Runs (.ptmDialogComplete t2 prop) s fun t =>
      ∃ u : State, u.link.ptmSent = none ∧
        u.time.ptmRecs = (s.time.ptmRecs ++ [({ vt, hostNs := w64 (t2.toNat - prop.toNat), propNs := prop, quality := ql, era := era } : PtmRec)]).drop (s.time.ptmRecs.length - 63) ∧
        u = { s with link := { s.link with ptmSent := none }, time := { s.time with ptmRecs := u.time.ptmRecs } } ∧
        t = sample 3 vt ((vt.toNat : Int) - (16 * (t2.toNat - prop.toNat : Nat) + s.time.ptmOfs.toInt)) true u)

/-- A DOE discovery answers the protocol of its index or aborts, each SPDM request of a ready attestation service is
answered with its own response, and every one of them is answered Busy before the service is ready. Nothing but the output
changes. It rests on the model's choices of logs 8, 64. (R74, R125) -/
def Obligations.AttestationMailboxRows : Prop :=
  (∀ (s : State) (index dwords : Nat), s.alive = true → s.link.up = true →
    (65536 < dwords → Runs (.doeDiscovery index dwords) s fun t => t = s.emit .doeAbort) ∧
    (dwords ≤ 65536 → index = 0 → Runs (.doeDiscovery index dwords) s fun t => t = s.emit (.doe 1 0 1)) ∧
    (dwords ≤ 65536 → index = 1 → Runs (.doeDiscovery index dwords) s fun t => t = s.emit (.doe 1 1 0))) ∧
  (∀ (s : State) (n : Nat), s.alive = true → s.link.up = true → n ≤ 65536 → s.ready Rdy.attest = true →
    Runs (.spdmGetVersion n) s (· = s.emit (.spdm (.version 0x1200))) ∧ Runs (.spdmGetCapabilities n) s (· = s.emit (.spdm .capabilities)) ∧
    (∀ asym hash : W32, Runs (.spdmNegotiateAlgorithms n asym hash) s (· = s.emit (.spdm (.algorithms (asym &&& 0x80) (hash &&& 0x02) 0x04)))) ∧
    Runs (.spdmGetDigests n) s (· = s.emit (.spdm .digests)) ∧
    (∀ offset length, Runs (.spdmGetCertificate n 0 offset length) s (· = s.emit (.spdm (.certificate 0 offset length)))) ∧
    (∀ slot offset length, slot ≠ 0 → Runs (.spdmGetCertificate n slot offset length) s (· = s.emit (.spdm .errorInvalid))) ∧
    (∀ nonce, Runs (.spdmChallenge n 0 nonce) s (· = s.emit (.spdm (.challengeAuth 0 nonce)))) ∧
    (∀ slot nonce, slot ≠ 0 → Runs (.spdmChallenge n slot nonce) s (· = s.emit (.spdm .errorInvalid))) ∧
    (∀ index nonce, Runs (.spdmGetMeasurements n index nonce) s (· = s.emit (.spdm (.measurements index nonce)))) ∧
    (∀ code : Byte, code ∉ ([0x84, 0xE1, 0xE3, 0x81, 0x82, 0x83, 0xE0] : List Byte) →
      Runs (.spdmOtherRequest n code) s (· = s.emit (.spdm .errorUnsupported)))) ∧
  (∀ (s : State) (n : Nat), s.alive = true → s.link.up = true → s.ready Rdy.attest = false ∨ 65536 < n → ∀ c : Instr,
    c = .spdmGetVersion n ∨ c = .spdmGetCapabilities n ∨ (∃ a h, c = .spdmNegotiateAlgorithms n a h) ∨ c = .spdmGetDigests n ∨
    (∃ a o l, c = .spdmGetCertificate n a o l) ∨ (∃ a d, c = .spdmChallenge n a d) ∨ (∃ i d, c = .spdmGetMeasurements n i d) ∨
    (∃ k : Byte, k ∉ ([0x84, 0xE1, 0xE3, 0x81, 0x82, 0x83, 0xE0] : List Byte) ∧ c = .spdmOtherRequest n k) →
    Runs c s (· = s.emit (if 65536 < n then .doeAbort else .spdm .errorBusy)))

/-- AQ_CTL enables an admin queue whose registers are legal and faults it otherwise, a disable deletes the function's QPs, a
doorbell within the depth moves the tail or the head and one beyond it faults the QP, and a doorbell that names no live QP
or has a wrong width is dropped and counted. It rests on the model's choices of logs 18, 148, 149. (R84, R91, R93, R94) -/
def Obligations.DoorbellRows : Prop :=
  (∀ (s : State) (fn : Nat), aqCanEnable fn s = true →
    (s.fn fn).sqb.toNat % 4096 = 0 → (s.fn fn).cqb.toNat % 4096 = 0 → 1 ≤ bitsAt (s.fn fn).size.toNat 0 16 → 3 ≤ bitsAt (s.fn fn).size.toNat 16 16 →
    Runs (.aqCtlEnable fn) s fun t =>
      (t.fn fn).rdy = true ∧ (t.fn fn).fault = false ∧ (t.qp (globalQp fn 0)).state = .active ∧
      (t.qp (globalQp fn 0)).sqBase = (s.fn fn).sqb ∧ (t.qp (globalQp fn 0)).cqBase = (s.fn fn).cqb ∧
      (t.qp (globalQp fn 0)).sqHead = 0 ∧ (t.qp (globalQp fn 0)).sqTail = 0 ∧ (t.qp (globalQp fn 0)).cqHead = 0 ∧
      (t.qp (globalQp fn 0)).cqTail = 0 ∧ (t.qp (globalQp fn 0)).phase = true ∧ t = { s with link := t.link }) ∧
  (∀ (s : State) (fn : Nat), aqCanEnable fn s = true →
    ¬ ((s.fn fn).sqb.toNat % 4096 = 0 ∧ (s.fn fn).cqb.toNat % 4096 = 0 ∧ 1 ≤ bitsAt (s.fn fn).size.toNat 0 16 ∧ 3 ≤ bitsAt (s.fn fn).size.toNat 16 16) →
    Runs (.aqCtlEnable fn) s fun t =>
      t = s.setFn fn fun a => { a with en := true, rdy := false, fault := true, cause := 1 }) ∧
  (∀ (s : State) (fn : Nat), s.adminUp fn = true → (s.fn fn).en = true → Runs (.aqCtlDisable fn) s fun t =>
    (t.fn fn).en = false ∧ (∀ q ∈ s.qpsOf fn, (t.qp q).state = .deleting) ∧ t = { s with link := t.link }) ∧
  (∀ (s : State) (fn q : Nat) (val : W32) (g : Nat), s.bar2Up fn = true → doorQp fn q s = some g → (s.qp g).state = .active →
    bitsAt val.toNat 0 16 ≤ (s.qp g).sqDepthM1 → Runs (.sqTailDoorbell fn q 4 val) s fun t =>
      (t.qp g).sqTail = bitsAt val.toNat 0 16 ∧ t = s.setQp g fun c => { c with sqTail := bitsAt val.toNat 0 16, rungAt := (t.qp g).rungAt }) ∧
  (∀ (s : State) (fn q : Nat) (val : W32) (g : Nat), s.bar2Up fn = true → doorQp fn q s = some g → (s.qp g).state = .active →
    (s.qp g).sqDepthM1 < bitsAt val.toNat 0 16 → s.isAdmin g = true → Runs (.sqTailDoorbell fn q 4 val) s fun t =>
      (t.qp g).state = .faulted ∧ (t.qp g).cause = 2 ∧ (t.qp g).sqTail = (s.qp g).sqTail ∧ (t.fn (s.fnOf g)).fault = true ∧ (t.fn (s.fnOf g)).cause = 2 ∧ t.wide = s.wide) ∧
  (∀ (s : State) (fn q : Nat) (val : W32) (g : Nat), s.bar2Up fn = true → doorQp fn q s = some g → (s.qp g).state = .active →
    bitsAt val.toNat 0 16 ≤ (s.qp g).cqDepthM1 →
    (bitsAt val.toNat 0 16 + ((s.qp g).cqDepthM1 + 1) - (s.qp g).cqHead) % ((s.qp g).cqDepthM1 + 1) ≤
      ((s.qp g).cqTail + ((s.qp g).cqDepthM1 + 1) - (s.qp g).cqHead) % ((s.qp g).cqDepthM1 + 1) →
    Runs (.cqHeadDoorbell fn q 4 val) s fun t => t = s.setQp g fun c => { c with cqHead := bitsAt val.toNat 0 16 }) ∧
  (∀ (s : State) (fn q : Nat) (tail head : W32) (g : Nat), s.bar2Up fn = true → doorQp fn q s = some g → (s.qp g).state = .active →
    Runs (.doorbellPairWrite fn q tail head) s fun t =>
      ∃ u, exec (.sqTailDoorbell fn q 4 tail) s = .next u ∧ ((u.qp g).state = .active → exec (.cqHeadDoorbell fn q 4 head) u = .next t) ∧
        ((u.qp g).state ≠ .active → t = u)) ∧
  (∀ (s : State) (fn q : Nat) (tail head : W32), s.bar2Up fn = true →
    (doorQp fn q s = none ∨ ∃ g, doorQp fn q s = some g ∧ (s.qp g).state ≠ .active) → Runs (.doorbellPairWrite fn q tail head) s fun t =>
      t.link.qps = s.link.qps ∧ (t.fn fn).dbDrop = satAdd 32 (s.fn fn).dbDrop 1 ∧ t = { s with link := t.link }) ∧
  (∀ (s : State) (fn q bytes : Nat) (val : W32), s.bar2Up fn = true →
    (bytes ≠ 4 ∨ doorQp fn q s = none ∨ ∃ g, doorQp fn q s = some g ∧ (s.qp g).state ≠ .active) →
    Runs (.sqTailDoorbell fn q bytes val) s (fun t => t.link.qps = s.link.qps ∧ (t.fn fn).dbDrop = satAdd 32 (s.fn fn).dbDrop 1 ∧ t = { s with link := t.link }) ∧
    Runs (.cqHeadDoorbell fn q bytes val) s (fun t => t.link.qps = s.link.qps ∧ (t.fn fn).dbDrop = satAdd 32 (s.fn fn).dbDrop 1 ∧ t = { s with link := t.link })) ∧
  (∀ (s : State) (fn : Nat), s.bar2Up fn = true → Runs (.qcapDbdropRead fn) s fun t =>
    (t.fn fn).dbDrop = 0 ∧ t = (s.setFn fn fun a => { a with dbDrop := 0 }).emit (.regValue (w32 (s.fn fn).dbDrop)))

/-- The fetch takes entries of the arbitrated SQ and moves its head, a read timeout faults the QP, a completed command at
the head of its SQ is posted with the phase and moves the CQ tail, a closed overflow posts one QUEUE_FULL entry, and a
drained deleting QP goes away. It rests on the model's choices of logs 6, 15, 134, 145, 146, 147, 165. (R72, R89, R98, R101,
R103, R105, R115) -/
def Obligations.FetchAndPostRows : Prop :=
  (∀ (s : State) (q n : Nat), s.alive = true → s.link.up = true → nextSq s = some q →
    n = min (min (s.qp q).waiting (s.qp q).admits) (if s.isAdmin q then 1 else (s.qp q).weight) →
    Runs .sqEntryFetch s fun t =>
      t.qp q = { s.qp q with sqHead := ((s.qp q).sqHead + n) % ((s.qp q).sqDepthM1 + 1), reading := n, owed := (s.qp q).owed + n, rungAt := none } ∧
      (∀ p, p ≠ q → t.qp p = s.qp p) ∧ t.out = .sqRead q (s.qp q).sqHead n :: s.out ∧ t.wide = s.wide) ∧
  (∀ (s : State) (q : Nat), 0 < (s.qp q).reading → (s.qp q).state = .active → s.isAdmin q = true → (s.fn (s.fnOf q)).ctoOff = false →
    Runs (.sqReadTimeout q) s (fun t => (t.qp q).state = .faulted ∧ (t.qp q).cause = 5 ∧ (t.qp q).reading = 0 ∧
      (t.qp q).owed = (s.qp q).owed - (s.qp q).reading ∧ (t.fn (s.fnOf q)).fault = true ∧ (t.fn (s.fnOf q)).cause = 5 ∧
      t.link.aer.contains .completionTimeout = true ∧ t = { s with link := t.link, out := t.out, free := t.free })) ∧
  (∀ (s : State) (q : Nat) (data : List Byte), 0 < (s.qp q).reading → data.length = 64 * (s.qp q).reading →
    Runs (.sqReadCompletion q (.bytes data)) s fun t => (t.qp q).reading = 0 ∧ (t.qp q).state = (s.qp q).state ∧
      (t.qp q).cmds.map (·.opcode) = (s.qp q).cmds.map (·.opcode) ++ (entriesOf data).map (·.opcode.toNat) ∧
      (t.qp q).cmds.map (·.sub) = (s.qp q).cmds.map (·.sub) ++ (entriesOf data).map (·.sub) ∧
      t = { s with link := t.link, brl := t.brl, out := t.out, basut := { s.basut with nextCid := s.basut.nextCid + (s.qp q).reading } }) ∧
  (∀ (s : State) (q : Nat), 0 < (s.qp q).reading → (s.qp q).state = .active → s.isAdmin q = true → Runs (.sqReadCompletion q .failed) s fun t =>
      (t.qp q).state = .faulted ∧ (t.qp q).cause = 4 ∧ (t.qp q).reading = 0 ∧ t = { s with link := t.link, brl := t.brl, out := t.out }) ∧
  (∀ (s : State) (q : Nat) (m : Cmd) (rest : List Cmd) (e : Cqe), (s.qp q).state = .active → s.mute (s.fnOf q) = false →
    (s.qp q).cmds = m :: rest → m.phase = .done e → m.opcode ≠ 0x0008 →
    (∀ w ∈ s.em.writing, ¬(w.1 = q ∧ w.2.1 = m.cid)) → Runs (.completionPost q) s fun t =>
      (t.qp q).cmds = rest ∧ (t.qp q).owed = (s.qp q).owed - 1 ∧
      (t.qp q).cqTail = (if (s.qp q).cqTail = (s.qp q).cqDepthM1 then 0 else (s.qp q).cqTail + 1) ∧
      (t.qp q).phase = (if (s.qp q).cqTail = (s.qp q).cqDepthM1 then !(s.qp q).phase else (s.qp q).phase) ∧
      .cqeWrite q (s.qp q).cqTail ((s.qp q).cqBase + w64 (16 * (s.qp q).cqTail)) (cqeBytes (s.qp q).phase e) ∈ t.out ∧
      (∀ p, p ≠ q → t.qp p = s.qp p) ∧ t.wide = s.wide) ∧
  (∀ (s : State) (q key : Nat) (m : Cmd) (rest : List Cmd) (e : Cqe) (i : List Byte), (s.qp q).state = .active → s.mute (s.fnOf q) = false →
    (s.qp q).cmds = m :: rest → m.phase = .done e → m.opcode ≠ 0x0008 → s.em.writing = [(q, m.cid, key, i)] →
    Runs (.completionPost q) s fun t => t.em = { putImage key i s.em with writing := [] }) ∧
  (∀ (s : State) (q due : Nat), s.alive = true → (s.qp q).modDue = some due → (s.qp q).intrEn = true →
    Runs (.moderationTimerExpiry q) s fun t => (t.qp q).modDue = none ∧ (t.qp q).since = 0) ∧
  (∀ (s : State) (q : Nat), (s.qp q).state = .active → (s.qp q).overflow = true → (s.qp q).openHeld = false → s.mute (s.fnOf q) = false →
    (s.qp q).owed + 2 ≤ (s.qp q).free → Runs (.queueFullClose q) s fun t =>
      (t.qp q).overflow = false ∧ (t.qp q).dropCount = 0 ∧
      .cqeWrite q (s.qp q).cqTail ((s.qp q).cqBase + w64 (16 * (s.qp q).cqTail)) (cqeBytes (s.qp q).phase
        { tag := 0xFFFF, status := 0x10, kind := 1, quality := (s.qp q).lastQual, result := w32 (s.qp q).dropCount, vt := (s.qp q).lastDrop }) ∈ t.out ∧
      (∀ p, p ≠ q → t.qp p = s.qp p) ∧ t.wide = s.wide) ∧
  (∀ (s : State) (q : Nat), (s.qp q).state = .deleting → (s.qp q).reading = 0 → (∀ m ∈ (s.qp q).cmds, ∃ e, m.phase = .done e) →
    (s.qp q).deleter = none → q ≠ 0xFFFFFFFF →
    Runs (.qpDeleteComplete q) s fun t => tabFind t.link.qps q = none ∧ (∀ b ∈ t.link.binds, b.2.qp ≠ q) ∧
      (∀ u ∈ t.link.posting, u.qp ≠ q) ∧ (∀ w ∈ t.em.writing, w.1 ≠ q) ∧ (∀ x ∈ t.ports.streams, ∀ b n, x.2.ring ≠ some (b, n, q)) ∧
      t = { s with link := t.link, em := t.em, ports := { s.ports with streams := t.ports.streams } }) ∧
  (∀ (s : State) (q p cid : Nat), (s.qp q).state = .deleting → (s.qp q).reading = 0 → (∀ m ∈ (s.qp q).cmds, ∃ e, m.phase = .done e) →
    (s.qp q).deleter = some (p, cid) → Runs (.qpDeleteComplete q) s fun t =>
      ∃ u v : State, u = dropQp q s ∧ v = finish p cid 0 0 u ∧ (t = v ∨ t = v.setFn (s.fnOf q) fun a => { a with rdy := false, fault := false, cause := 0 }))

/-- Each of the 25 capo commands, taken in its turn and past the common checks and its own, joins the commands that wait for
a boundary, with its target stroke and strictness, and changes nothing else; UCODE_LOAD does so where its image verifies,
and completes with VERIFY_FAILED and the error where it does not. It rests on the model's choices of logs 6, 34, 90, 133,
150. (R117, R123, R139, R140, R143, R159, R161, R173, R179, R185, R191, R196, R408, R418, R426, R429, R433, R438, R441,
R453, R457, R490, R499, R530, R538, R540) -/
def Obligations.CapoRowsWait : Prop :=
  ∀ (q : Nat) (sub : Sub) (s : State) (cid : Nat) (u : State), MayWait sub u →
  (Taken 0x0101 q sub s cid u → checkTimeSource sub u = 0 → Runs (.timeSource q sub) s (Waits (.timeSource q sub) q cid sub u)) ∧
  (Taken 0x0102 q sub s cid u → checkServoConfig sub u = 0 → Runs (.servoConfig q sub) s (Waits (.servoConfig q sub) q cid sub u)) ∧
  (Taken 0x0103 q sub s cid u → checkGptpConfig sub u = 0 → Runs (.gptpConfig q sub) s (Waits (.gptpConfig q sub) q cid sub u)) ∧
  (Taken 0x0104 q sub s cid u → checkPpsConfig sub u = 0 → Runs (.ppsConfig q sub) s (Waits (.ppsConfig q sub) q cid sub u)) ∧
  (Taken 0x0201 q sub s cid u → arg 0x0201 0 sub ≤ 3 → Runs (.planActivate q sub) s (Waits (.planActivate q sub) q cid sub u)) ∧
  (Taken 0x0202 q sub s cid u → arg 0x0202 0 sub ≤ 4 → Runs (.profileSet q sub) s (Waits (.profileSet q sub) q cid sub u)) ∧
  (Taken 0x0203 q sub s cid u → 10000 ≤ arg 0x0203 0 sub → arg 0x0203 0 sub ≤ 10000000 → arg 0x0203 0 sub % 4 = 0 →
    Runs (.strokeSet q sub) s (Waits (.strokeSet q sub) q cid sub u)) ∧
  (Taken 0x0204 q sub s cid u → arg 0x0204 0 sub ≤ 2 → Runs (.overrunPolicy q sub) s (Waits (.overrunPolicy q sub) q cid sub u)) ∧
  (Taken 0x0301 q sub s cid u → checkStreamBind sub u = 0 → Runs (.streamBind q sub) s (Waits (.streamBind q sub) q cid sub u)) ∧
  (∀ img : List Byte, Taken 0x0302 q sub s cid u → img.length = argLen 0x0302 sub → Runs (.ucodeLoad q sub (some img)) s fun t =>
    (verifyImage u 2 img = 0 → Waits (.ucodeLoad q sub (some img)) q cid sub u t) ∧
    (verifyImage u 2 img ≠ 0 → t = finish q cid Stat.verifyFailed (w32 (verifyImage u 2 img)) u)) ∧
  (Taken 0x0400 q sub s cid u → checkLgsMode sub u = 0 → Runs (.lgsMode q sub) s (Waits (.lgsMode q sub) q cid sub u)) ∧
  (Taken 0x0403 q sub s cid u → arg 0x0403 0 sub < 16 → arg 0x0403 1 sub < 3 → Runs (.lgsClass q sub) s (Waits (.lgsClass q sub) q cid sub u)) ∧
  (∀ d : List Byte, Taken 0x0500 q sub s cid u → d.length = argLen 0x0500 sub → arg 0x0500 1 sub < portCount (arg 0x0500 0 sub) →
    portLenOk (arg 0x0500 0 sub) d.length = true → portCfgOk (arg 0x0500 0 sub) d = true →
    Runs (.portConfig q sub (some d)) s (Waits (.portConfig q sub (some d)) q cid sub u)) ∧
  (Taken 0x0501 q sub s cid u → checkTrigSchedule sub u = 0 → Runs (.trigSchedule q sub) s (Waits (.trigSchedule q sub) q cid sub u)) ∧
  (Taken 0x0502 q sub s cid u → checkIngressClass sub u = 0 → Runs (.ingressClass q sub) s (Waits (.ingressClass q sub) q cid sub u)) ∧
  (∀ d : List Byte, Taken 0x0503 q sub s cid u → d.length = argLen 0x0503 sub → arg 0x0503 0 sub < 8 → d.length % 32 = 0 → d.length ≤ 2048 →
    (rulesOf d).all ruleOk = true → Runs (.lidarRules q sub (some d)) s (Waits (.lidarRules q sub (some d)) q cid sub u)) ∧
  (∀ d : List Byte, Taken 0x0602 q sub s cid u → d.length = argLen 0x0602 sub → 8 ≤ d.length → d.length ≤ 4096 → d.length % 8 = 0 →
    ((senEntries d).all fun e => senOffOk e.1) = true → Runs (.senConfig q sub (some d)) s (Waits (.senConfig q sub (some d)) q cid sub u)) ∧
  (∀ d : List Byte, Taken 0x0603 q sub s cid u → d.length = 80 → argLen 0x0603 sub = 80 → arg 0x0603 0 sub < 160 →
    Runs (.tmrConfig q sub (some d)) s (Waits (.tmrConfig q sub (some d)) q cid sub u)) ∧
  (Taken 0x0604 q sub s cid u → arg 0x0604 1 sub < 256 → arg 0x0604 2 sub < 65536 → Runs (.tmrStart q sub) s (Waits (.tmrStart q sub) q cid sub u)) ∧
  (Taken 0x0800 q sub s cid u → checkTuneSet sub u = 0 → Runs (.tuneSet q sub) s (Waits (.tuneSet q sub) q cid sub u)) ∧
  (Taken 0x0801 q sub s cid u → tuneImpl (arg 0x0801 0 sub) = true → Runs (.tuneClear q sub) s (Waits (.tuneClear q sub) q cid sub u)) ∧
  (Taken 0x0803 q sub s cid u → arg 0x0803 1 sub < classSize (arg 0x0803 0 sub) → Runs (.retire q sub) s (Waits (.retire q sub) q cid sub u)) ∧
  (Taken 0x0804 q sub s cid u → arg 0x0804 0 sub < 5 → arg 0x0804 1 sub < classSize (arg 0x0804 0 sub) →
    Runs (.reinstate q sub) s (Waits (.reinstate q sub) q cid sub u)) ∧
  (Taken 0x0A01 q sub s cid u → arg 0x0A01 0 sub < 8 → Runs (.leadSet q sub) s (Waits (.leadSet q sub) q cid sub u)) ∧
  (Taken 0x0A02 q sub s cid u → checkRemoteWindow sub u = 0 → Runs (.remoteWindow q sub) s (Waits (.remoteWindow q sub) q cid sub u))

/-- IDENTIFY, QP_QUERY, PTM_CORRELATE, TIME_STATUS, STROKE_STATS, LGS_READ, LGS_LIFE, PORT_STATUS, FJ_READ, HEALTH_READ,
CUBE_STATUS and ATTEST, taken and past the checks, write their record where the buffer is long enough and complete with the
length or count the spec gives. A SNAPSHOT waits for its boundary. ATTEST uses one HSS signature. It rests on the model's
choices of logs 6, 14, 71. (R86, R90, R125, R126, R128, R164, R170, R194, R447, R468, R478, R503, R522, R543) -/
def Obligations.RecordRows : Prop :=
  ∀ (q : Nat) (sub : Sub) (s : State) (cid : Nat) (u : State),
  (Taken 0x0002 q sub s cid u → (identifyBytes (u.fnOf q) u).length = 4096 ∧ (4096 ≤ argLen 0x0002 sub → Runs (.identify q sub) s (· =
    finish q cid 0 4096 (u.emit (.hostWrite (w64 (argBuf 0x0002 sub)) (identifyBytes (u.fnOf q) u) (u.fn (u.fnOf q)).relaxed))))) ∧
  (Taken 0x0002 q sub s cid u → argLen 0x0002 sub < 4096 → Runs (.identify q sub) s (· = finish q cid Stat.bufShort 4096 u)) ∧
  (∀ g, Taken 0x0006 q sub s cid u → liveQp q (arg 0x0006 0 sub) u = some g → (ctxBytes (u.qp g)).length = 64 ∧
    Runs (.qpQuery q sub) s (· = finish q cid 0 64 (u.emit (.hostWrite (w64 (argBuf 0x0006 sub)) (ctxBytes (u.qp g)) (u.fn (u.fnOf q)).relaxed)))) ∧
  (Taken 0x0105 q sub s cid u → 32 ≤ argLen 0x0105 sub → u.time.ptmRecs ≠ [] → Runs (.ptmCorrelate q sub) s (· =
    finish q cid 0 (w32 (ptmFit (argLen 0x0105 sub) u).length)
      (u.emit (.hostWrite (w64 (argBuf 0x0105 sub)) (ptmFit (argLen 0x0105 sub) u) (u.fn (u.fnOf q)).relaxed)))) ∧
  (Taken 0x0106 q sub s cid u → (timeStatusBytes u (fillWords 16 u.stroke.captured0)).length ≤ argLen 0x0106 sub → Runs (.timeStatus q sub) s (· =
    finish q cid 0 (w32 (timeStatusBytes u (fillWords 16 u.stroke.captured0)).length)
      (u.emit (.hostWrite (w64 (argBuf 0x0106 sub)) (timeStatusBytes u (fillWords 16 u.stroke.captured0)) (u.fn (u.fnOf q)).relaxed)))) ∧
  (Taken 0x0205 q sub s cid u → (strokeStatsBytes u).length ≤ argLen 0x0205 sub → Runs (.strokeStats q sub) s (· =
    finish q cid 0 (w32 (strokeStatsBytes u).length) (u.emit (.hostWrite (w64 (argBuf 0x0205 sub)) (strokeStatsBytes u) (u.fn (u.fnOf q)).relaxed)))) ∧
  (Taken 0x0402 q sub s cid u → (readLog sub u).bytes ≠ [] → (readLog sub u).lost = false → Runs (.lgsRead q sub) s (· =
    finish q cid (readLog sub u).status (w32 (readLog sub u).result)
      (u.emit (.hostWrite (w64 (argBuf 0x0402 sub)) (readLog sub u).bytes (u.fn (u.fnOf q)).relaxed)))) ∧
  (Taken 0x0404 q sub s cid u → 64 ≤ argLen 0x0404 sub → (lifeBytes u).length = 64 ∧ Runs (.lgsLife q sub) s (· =
    finish q cid 0 (w32 (lifeNow u)) (u.emit (.hostWrite (w64 (argBuf 0x0404 sub)) (lifeBytes u) (u.fn (u.fnOf q)).relaxed)))) ∧
  (Taken 0x0504 q sub s cid u → arg 0x0504 1 sub < portCount (arg 0x0504 0 sub) → 64 ≤ argLen 0x0504 sub →
    (portStatusBytes (arg 0x0504 0 sub) (arg 0x0504 1 sub) u).length = 64 ∧ Runs (.portStatus q sub) s (· =
      finish q cid 0 64 (u.emit (.hostWrite (w64 (argBuf 0x0504 sub)) (portStatusBytes (arg 0x0504 0 sub) (arg 0x0504 1 sub) u) (u.fn (u.fnOf q)).relaxed)))) ∧
  (Taken 0x0703 q sub s cid u → 32 ≤ argLen 0x0703 sub → journalHeld u.fcu ≠ [] → Runs (.fjRead q sub) s (· =
    finish q cid 0 (w32 (min (argLen 0x0703 sub / 32) (journalHeld u.fcu).length))
      (u.emit (.hostWrite (w64 (argBuf 0x0703 sub)) (((journalHeld u.fcu).take (argLen 0x0703 sub / 32)).map journalBytes).flatten (u.fn (u.fnOf q)).relaxed)))) ∧
  (Taken 0x0802 q sub s cid u → (healthBytes u).length ≤ argLen 0x0802 sub → Runs (.healthRead q sub) s (· =
    finish q cid 0 (w32 (healthBytes u).length) (u.emit (.hostWrite (w64 (argBuf 0x0802 sub)) (healthBytes u) (u.fn (u.fnOf q)).relaxed)))) ∧
  (Taken 0x0A00 q sub s cid u → 576 ≤ argLen 0x0A00 sub → Runs (.cubeStatus q sub) s (· =
    finish q cid 0 (w32 (popCount u.brl.present)) ((cubeBytes u).2.emit (.hostWrite (w64 (argBuf 0x0A00 sub)) (cubeBytes u).1 (u.fn (u.fnOf q)).relaxed)))) ∧
  (Taken 0x0900 q sub s cid u → u.em.hssLeft ≠ 0 → (attestBytes sub u).length ≤ argLen 0x0900 sub → Runs (.attest q sub) s (· =
    finish q cid 0 (w32 (u.em.hssLeft - 1))
      (({ u with em := { u.em with hssLeft := u.em.hssLeft - 1 } } : State).emit (.hostWrite (w64 (argBuf 0x0900 sub)) (attestBytes sub u) (u.fn (u.fnOf q)).relaxed)))) ∧
  (Taken 0x0900 q sub s cid u → u.em.hssLeft = 0 → (attestBytes sub u).length ≤ argLen 0x0900 sub →
    Runs (.attest q sub) s (· = finish q cid Stat.exhausted 0 u)) ∧
  (Taken 0x0001 q sub s cid u → arg 0x0001 2 sub ≠ 0 → tooFar sub u = false → snapSize (arg 0x0001 2 sub) ≤ argLen 0x0001 sub →
    Runs (.snapshot q sub) s (· = { u with basut := { u.basut with snaps := u.basut.snaps ++
      [{ qp := q, cid, fn := u.fnOf q, buf := w64 (argBuf 0x0001 sub), groups := arg 0x0001 2 sub, target := sub.stroke.toNat, cube := false }] } }))

/-- QP_CREATE, QP_DELETE, QP_MODIFY, ABORT, WARM_RESET, TIME_GET, EVT_BIND and EVT_UNBIND, taken and past the checks, have
the effect and the completion the spec gives; the delay after WARM_RESET ends in a warm-reset request. It rests on the
model's choices of logs 5, 6, 34, 69, 70, 142. (R86, R87, R90, R100, R103, R112, R116, R121, R122) -/
def Obligations.QueueCommandRows : Prop :=
  ∀ (q : Nat) (sub : Sub) (s : State) (cid : Nat) (u : State) (g : Nat),
  (Taken 0x0003 q sub s cid u → ownQp q (arg 0x0003 0 sub) u = some g → arg 0x0003 0 sub ≠ 0 → ctxOk (ctxOf sub) = true →
    (u.qp g).state = .free → ((ctxOf sub).pin = true → u.pinned < 1024) → Runs (.qpCreate q sub) s fun t =>
      ∃ v : State, v.qp g = ctxOf sub ∧ (∀ p, p ≠ g → v.qp p = u.qp p) ∧ v = { u with link := v.link } ∧ t = finish q cid 0 0 v) ∧
  (Taken 0x0004 q sub s cid u → arg 0x0004 0 sub ≠ 0 → liveQp q (arg 0x0004 0 sub) u = some g → g ≠ q → (u.qp g).state ≠ .deleting →
    Runs (.qpDelete q sub) s fun t => (t.qp g).state = .deleting ∧ (t.qp g).deleter = some (q, cid) ∧ (∀ p, p ≠ g → t.qp p = u.qp p) ∧
      t = { u with link := t.link }) ∧
  (Taken 0x0005 q sub s cid u → arg 0x0005 0 sub ≠ 0 → liveQp q (arg 0x0005 0 sub) u = some g → (u.qp g).state = .active →
    modifyStatus g (u.qp g) (modified sub (u.qp g)) u = 0 → Runs (.qpModify q sub) s fun t =>
      ∃ v : State, v.qp g = modified sub (u.qp g) ∧ (∀ p, p ≠ g → v.qp p = u.qp p) ∧ v = { u with link := v.link } ∧ t = finish q cid 0 0 v) ∧
  (∀ m : Cmd, Taken 0x0007 q sub s cid u → liveQp q (arg 0x0007 0 sub) u = some g →
    ((u.qp g).cmds.find? fun m => m.phase == .fetched && m.sub.tag.toNat == arg 0x0007 1 sub) = some m →
    Runs (.abort q sub) s (· = finish q cid 0 1 (finish g m.cid Stat.aborted 0 u))) ∧
  (Taken 0x0008 q sub s cid u → arg 0x0008 0 sub = 0x5A17 → Runs (.warmReset q sub) s (· = finish q cid 0 0 u)) ∧
  (Taken 0x0008 q sub s cid u → arg 0x0008 0 sub ≠ 0x5A17 → Runs (.warmReset q sub) s (· = finish q cid Stat.invalidField 0 u)) ∧
  (∀ m : Nat, s.alive = true → s.boot.warmDelay = some m → s.boot.warmReq = none →
    Runs .warmResetDelayExpiry s fun t => t.boot = { s.boot with warmReq := some 3, warmDelay := none } ∧ t.time.mono = max s.time.mono (160000 + m)) ∧
  (Taken 0x0100 q sub s cid u → Runs (.timeGet q sub) s (· = finish q cid 0 (w32 (qualCode u.time.servo + 16 * u.time.source)) u)) ∧
  (Taken 0x0600 q sub s cid u → bindCheck q sub u = .ok g → Runs (.evtBind q sub) s fun t =>
    ∃ h v, v = ({ u with link := { u.link with binds := tabSet u.link.binds h { source := arg 0x0600 0 sub, kind := arg 0x0600 2 sub, qp := g }, nextHandle := (h + 1) % 65536 } } : State) ∧
      h < 65536 ∧ (u.link.binds.length < 8192 → tabFind u.link.binds h = none) ∧ t = finish q cid 0 (w32 h) v) ∧
  (Taken 0x0601 q sub s cid u → (tabFind u.link.binds (arg 0x0601 0 sub)).isSome = true → Runs (.evtUnbind q sub) s fun t =>
    t = finish q cid 0 0 { u with link := { u.link with binds := tabDel u.link.binds (arg 0x0601 0 sub) } })

/-- PLAN_LOAD, JOB_SUBMIT, ENGINE_RESET, LGS_TRIGGER, LGS_SEAL, FJ_EXPORT, FCU_SEVERITY, FCU_CLEAR, FCU_INJECT,
SPARE_POLICY, IMAGE_UPDATE, SVN_RAISE and KEY_REVOKE, taken and past the checks, have the effect and the completion the spec
gives. SVN_RAISE sets one floor and KEY_REVOKE one slot; IMAGE_UPDATE begins the write of an image that verifies and
completes with VERIFY_FAILED for any other. It rests on the model's choices of logs 6, 80, 84, 86, 98, 113, 133, 134. (R123,
R124, R184, R189, R460, R469, R509, R512, R522, R523, R529, R554) -/
def Obligations.ImmediateCommandRows : Prop :=
  ∀ (q : Nat) (sub : Sub) (s : State) (cid : Nat) (u : State),
  (∀ (d : List Byte) (p : Plan), Taken 0x0200 q sub s cid u → d.length = argLen 0x0200 sub → arg 0x0200 2 sub ≤ 3 →
    checkPlan d d.length = .ok p → u.stroke.active ≠ some (arg 0x0200 2 sub) → Runs (.planLoad q sub (some d)) s (· =
      finish q cid 0 (w32 p.crc.toNat) { u with stroke := { u.stroke with plans := tabSet u.stroke.plans (arg 0x0200 2 sub) p } })) ∧
  (∀ (d : List Byte) (v : State), Taken 0x0300 q sub s cid u → jobRangeOk sub u = true → u.inForce.getLsbD (arg 0x0300 1 sub) = true →
    (read40 .pegbox 0 (arg 0x0300 0 sub) 8 u).1.all = some d → (read40 .pegbox 0 (arg 0x0300 0 sub) 8 u).2 = v →
    jobRoom (gateKey (arg 0x0300 1 sub) (arg 0x0300 2 sub)) (arg 0x0300 3 sub) (jobStroke sub v) v = true → Runs (.jobSubmit q sub) s (· =
      { v with basut := { v.basut with nextJob := v.basut.nextJob + 1, jobs := v.basut.jobs ++ [{ handle := v.basut.nextJob % 2 ^ 32, qp := q, cid, course := arg 0x0300 1 sub, slot := arg 0x0300 2 sub, budget := arg 0x0300 3 sub, entry := w32 (leNat (d.take 4)), arg := w32 (leNat (d.drop 4)), stroke := jobStroke sub v }] } })) ∧
  (∀ e : Eng, Taken 0x0303 q sub s cid u → e = ⟨arg 0x0303 0 sub, arg 0x0303 1 sub⟩ → e.course < 16 → e.phys < 13 →
    (u.engine e).st ≠ .off → (u.engine e).st ≠ .bist → Runs (.engineReset q sub) s (· = finish q cid 0 0 (engineResetAt e u))) ∧
  (Taken 0x0401 q sub s cid u → arg 0x0401 1 sub ≤ 57600000000000 → arg 0x0401 0 sub < 2 ^ 63 → arg 0x0401 2 sub < 16 → u.lgs.trigs.length < 16 →
    Runs (.lgsTrigger q sub) s fun t => ∃ v : State, v = (openTrigger u.time.vt64 (arg 0x0401 0 sub) (arg 0x0401 1 sub) (arg 0x0401 2 sub) 0 u).2 ∧
      t = finish q cid 0 (w32 u.lgs.nextTrig) v) ∧
  (Taken 0x0405 q sub s cid u → Runs (.lgsSeal q sub) s (fun t => t = doSeal (some (q, cid)) u ∧
    ∃ r l, (t.lgs.urgent = l ++ [r] ∨ t.lgs.sysWait = l ++ [r]) ∧ r.kind = 5 ∧ r.waiter = some (q, cid))) ∧
  (Taken 0x0702 q sub s cid u → u.fcu.safe = false → Runs (.fjExport q sub) s (fun t =>
    t.fcu = { u.fcu with exp := u.fcu.head } ∧ ∃ r, r.kind = 4 ∧ r.waiter = some (q, cid) ∧
      (if u.lgs.sysWait = [] ∧ u.lgs.fill + recSize r ≤ 64 * 0x100000 then t.lgs.urgent = u.lgs.urgent ++ [r] else t.lgs.sysWait = u.lgs.sysWait ++ [r]))) ∧
  (Taken 0x0702 q sub s cid u → u.fcu.safe = true → Runs (.fjExport q sub) s fun t =>
    ∃ v : State, v = copyCapsule u ∧ t = finish q cid 0 0xFFFFFFFF { v with fcu := { v.fcu with exp := v.fcu.head } }) ∧
  (Taken 0x0700 q sub s cid u → srcImpl (arg 0x0700 0 sub) = true → arg 0x0700 1 sub ≤ 3 → srcFixed (arg 0x0700 0 sub) = false →
    Runs (.fcuSeverity q sub) s fun t => ∃ v : State, v = ({ u with em := { u.em with sev := tabSet u.em.sev (arg 0x0700 0 sub) (arg 0x0700 1 sub) } } : State) ∧
      v.sevOf (arg 0x0700 0 sub) = arg 0x0700 1 sub ∧ t = finish q cid 0 (w32 (u.sevOf (arg 0x0700 0 sub))) v) ∧
  (Taken 0x0701 q sub s cid u → srcImpl (arg 0x0701 0 sub) = true → (u.frec (arg 0x0701 0 sub)).isOpen = true → (u.frec (arg 0x0701 0 sub)).cause = false →
    Runs (.fcuClear q sub) s fun t => ∃ v : State, (v.frec (arg 0x0701 0 sub)).isOpen = false ∧ v = { u with fcu := v.fcu } ∧ t = finish q cid 0 1 v) ∧
  (Taken 0x0704 q sub s cid u → srcImpl (arg 0x0704 0 sub) = true → arg 0x0704 1 sub = 2 → arg 0x0704 2 sub = 0 →
    Runs (.fcuInject q sub) s (· = finish q cid 0 0 (asInjected true (raiseFault (arg 0x0704 0 sub) 0 unitNone) u))) ∧
  (∀ k, Taken 0x0704 q sub s cid u → srcImpl (arg 0x0704 0 sub) = true → arg 0x0704 1 sub ≤ 1 → instOfCe (arg 0x0704 0 sub) = some k →
    1 ≤ arg 0x0704 2 sub → arg 0x0704 2 sub ≤ 6 → (u.ecc k).armed = none → Runs (.fcuInject q sub) s fun t => ∃ v : State,
      (v.ecc k).armed = some (arg 0x0704 1 sub, arg 0x0704 2 sub) ∧ (∀ j, j ≠ k → v.ecc j = u.ecc j) ∧ v = { u with fab := { u.fab with ecc := v.fab.ecc } } ∧ t = finish q cid 0 0 v) ∧
  (Taken 0x0805 q sub s cid u → arg 0x0805 0 sub ≤ 8 → arg 0x0805 1 sub ≤ 1 → Runs (.sparePolicy q sub) s (· =
    finish q cid 0 0 { u with em := { u.em with policy := tabSet u.em.policy (arg 0x0805 0 sub) (arg 0x0805 1 sub) } })) ∧
  (∀ img : List Byte, Taken 0x0806 q sub s cid u → img.length = argLen 0x0806 sub → arg 0x0806 0 sub ≤ 2 → Runs (.imageUpdate q sub (some img)) s fun t =>
    (verifyImage u (targetType (arg 0x0806 0 sub) img) img = 0 → t = finish q cid 0 0 (storeImage q cid (arg 0x0806 0 sub) img u)) ∧
    (∀ e, e ≠ 0 → verifyImage u (targetType (arg 0x0806 0 sub) img) img = e → t = finish q cid Stat.verifyFailed (w32 e) u)) ∧
  (Taken 0x0901 q sub s cid u → 1 ≤ arg 0x0901 0 sub → arg 0x0901 0 sub ≤ 4 → arg 0x0901 2 sub = 0x5A17 →
    ((u.fuses.floors.toList[arg 0x0901 0 sub]?).getD 0).toNat < arg 0x0901 1 sub → imageAtFloor (arg 0x0901 0 sub) (arg 0x0901 1 sub) u = true →
    Runs (.svnRaise q sub) s (· = finish q cid 0 (w32 (arg 0x0901 1 sub))
      { u with fuses := { u.fuses with floors := u.fuses.floors.setIfInBounds (arg 0x0901 0 sub) (w32 (arg 0x0901 1 sub)) } })) ∧
  (Taken 0x0902 q sub s cid u → arg 0x0902 0 sub < 4 → arg 0x0902 1 sub = 0x5A17 → arg 0x0902 0 sub ≠ u.boot.fwKey →
    Runs (.keyRevoke q sub) s fun t => ∃ v : State, v.fuses.floors = u.fuses.floors ∧
      (∀ k, v.fuses.revoked.getLsbD k = (decide (k = arg 0x0902 0 sub) || u.fuses.revoked.getLsbD k)) ∧ v = { u with fuses := v.fuses } ∧ t = finish q cid 0 0 v)

/-- A stroke boundary captures before it changes anything and begins the next stroke on its grid, a bank switch and a hold
move the snapshot bank, a fret boundary brings time to the fret, a budget that expires marks the overrun, FG_NEXT gives an
entry once, FG_DONE ends a job for the slot's engine alone, and a course powers down alone. It rests on the model's choices
of logs 5, 93, 101. (R129, R179, R181, R186, R187, R188, R190, R226, R232, R238, R314) -/
def Obligations.StrokeRows : Prop :=
  ∀ s : State,
  (∀ (mw : Nat) (x : NextStroke), s.alive = true → s.stroke.started = true → s.time.counting = true → nextStroke s = x → Runs (.strokeBoundary mw) s fun t =>
    (s.brl.anchor = none → x = { num := s.stroke.num + 1, vt := s.stroke.vt + w64 (16 * s.stroke.period) }) ∧
    ∃ v d w, v = endStroke mw (s.bringVt x.vt) ∧ w.stroke.num = x.num ∧ w.stroke.vt = x.vt ∧ w.stroke.captured = group1 v ∧
      w.snap.hidden = some (w64 x.num, x.vt, d) ∧ d = bankData v.snap.sel v ∧ t = openStroke false w) ∧
  (∀ n v d, s.alive = true → s.snap.hold = false → s.snap.hidden = some (n, v, d) → Runs .snapBankSwitch s (· =
    { s with snap := { s.snap with stroke := n, vt := v, data := d, hidden := none, seq := s.snap.seq + 1 } })) ∧
  (∀ val : W32, s.alive = true → s.ready Rdy.pcieAdmin = true → val.getLsbD 0 = true → Runs (.snapCtlHold val) s (· = { s with snap := { s.snap with hold := true } })) ∧
  (∀ val : W32, s.alive = true → s.ready Rdy.pcieAdmin = true → val.getLsbD 0 = false → s.snap.hidden = none → Runs (.snapCtlHold val) s (· = { s with snap := { s.snap with hold := false } })) ∧
  (∀ (val : W32) n v d, s.alive = true → s.ready Rdy.pcieAdmin = true → val.getLsbD 0 = false → s.snap.hidden = some (n, v, d) → Runs (.snapCtlHold val) s (· =
    { s with snap := { s.snap with hold := false, stroke := n, vt := v, data := d, hidden := none, seq := s.snap.seq + 1 } })) ∧
  (s.alive = true → s.stroke.started = true → s.time.counting = true → s.fretNow < 63 → Runs .fretBoundary s fun t =>
    ∃ (at' : W64) (v : State), at' = s.stroke.vt + w64 ((s.fretNow + 1) * s.fretVt) ∧ ((at' - s.now).toNat < 2 ^ 63 → v.now = at') ∧ v = s.bringVt at' ∧
      t = releaseAll (assertProducer 507 v)) ∧
  (s.alive = true → s.stroke.started = true → s.time.counting = true → 63 ≤ s.fretNow → Runs .fretBoundary s (· = s)) ∧
  (∀ c i k, s.alive = true → c < 16 → i < 12 → k = gateKey c i → (s.gate k).cur.isSome = true → (s.gate k).ovr = false →
    Runs (.budgetExpiry c i) s fun t => ∃ v : State, (v.gate k).ovr = true ∧ (v.gate k).remain = 0 ∧ (v.gate k).excess = 0 ∧
      v.stroke.stats.ovrNow = satAdd 32 s.stroke.stats.ovrNow 1 ∧ v.fcu = s.fcu ∧
      ∃ x, x = raiseFault Src.stkOverrun 0 unitNone (postCovered 8 (k / 12) (unsolEntry v 8 (w32 (4096 * (k % 12) + 256 * (k / 12) + v.fretNow)) (v.gate k).relVt) v) ∧
        t = if x.stroke.policy == 1 then x.setEngine (x.slotEngine k) (irqEdge 0) else x) ∧
  (∀ c i k, s.alive = true → c < 16 → i < 12 → k = gateKey c i → (s.gate k).cur.isSome = true → (s.gate k).ovr = true → s.stroke.policy ≠ 1 →
    Runs (.budgetExpiry c i) s fun t => (t.gate k).excess = 0 ∧ (t.gate k).remain = 0 ∧ t.fcu = s.fcu ∧ t.eng.frac < 40) ∧
  (∀ c i k, s.alive = true → c < 16 → i < 12 → k = gateKey c i → (s.gate k).cur.isSome = true → (s.gate k).ovr = true → s.stroke.policy = 1 →
    Runs (.budgetExpiry c i) s fun t => ∃ v : State, (v.gate k).excess = 0 ∧ (v.gate k).remain = 0 ∧ v.fcu = s.fcu ∧ v.em = s.em ∧
      t = v.setEngine (s.slotEngine k) (irqEdge 0)) ∧
  (∀ (e : Eng) (u : State) kind rt base am amf a ea upd k, kind = 4 ∨ kind = 5 → Issues e (.load kind rt base am amf) s u → (u.engine e).loads.length < 4 →
    loadAt e s = some (kind, a) → fgNextAt e a s = some k →
    address (u.engine e).reg (fun i => ((u.engine e).modBase.toList[i]?).getD 0) (fun i => ((u.engine e).modLen.toList[i]?).getD 0) base am amf = (ea, upd) →
    a = loadAddr kind ea → a % 4 = 0 → fgNextAt e a u = some k → loadWay e a 4 u = .out → (u.engine e).chordsAt false = false → (u.gate k).fresh = true →
    Runs (.fgNextRead e) s (· = issueLoad e base upd
      (if rt == 0 then [] else [(rt, if kind = 4 then (u.gate k).entry else ((u.gate k).entry).rotateRight (8 * (ea.toNat % 4)))]) (base == rt)
      (u.setGate k fun g => { g with fresh := false }))) ∧
  (∀ n p c i k (val : W32) j, s.alive = true → c < 16 → i < 12 → k = gateKey c i → val.getLsbD 0 = true → s.slotEngine k = ⟨n, p⟩ → (s.gate k).cur = some j →
    Runs (.fgDoneWrite (.engine n p) c i val) s fun t => t = endJob k s ∧
      (j.adhoc = none → s.stroke.rated = false → (s.gate k).ovr = false → (s.gate k).ovrRated = false → t = release k (s.setGate k fun g => { g with cur := none, fresh := false }))) ∧
  (∀ m c i (val : W32), s.alive = true → c < 16 → i < 12 → (∀ n p, m ≠ .engine n p) → Runs (.fgDoneWrite m c i val) s (· = s)) ∧
  (∀ n, s.alive = true → n < 16 → s.stroke.powered.getLsbD n = true → s.stroke.inProfile.getLsbD n = false → courseRuns n s = false → Runs (.coursePowerDown n) s fun t =>
    t.stroke.powered.getLsbD n = false ∧ (∀ j, j ≠ n → t.stroke.powered.getLsbD j = s.stroke.powered.getLsbD j) ∧
    (∀ p, p < 13 → (t.engine ⟨n, p⟩).st = if (s.engine ⟨n, p⟩).st = .retired then .retired else .off) ∧
    (∀ c p, c ≠ n → p < 13 → t.engine ⟨c, p⟩ = s.engine ⟨c, p⟩) ∧ tabFind t.fab.csm n = none)

/-- For every gPTP port that runs: Sync, Follow_Up, Announce and Pdelay messages received are counted and act in the port's
state and domain alone, a peer-delay answer gives the link delay with the neighbour's rate ratio, an interval request sets a
master port's interval, and the messages sent carry the next sequence number and time stamp. The statement gives each next
state and that other ports are unchanged. It rests on the model's choices of log 12. (R138, R158, R160) -/
def Obligations.GptpRows : Prop :=
  ∀ (p : Nat) (s : State), s.gptpRuns p = true →
  (∀ m : SyncMsg, m.domain.toNat ≠ s.time.gptpDomain → Runs (.gptpSyncReceive p m) s (· = s)) ∧
  (∀ m : SyncMsg, m.domain.toNat = s.time.gptpDomain → (s.port p).state ≠ 2 → Runs (.gptpSyncReceive p m) s (· = s.setPort p fun g => { g with syncRx := g.syncRx + 1 })) ∧
  (∀ (m : SyncMsg) (arrived : W64), m.domain.toNat = s.time.gptpDomain → (s.port p).state = 2 → arrived = s.now - i64 (s.tune (0x140 + p)) →
    Runs (.gptpSyncReceive p m) s fun t => ∃ v : State,
      v.port p = { s.port p with syncRx := (s.port p).syncRx + 1, prevGm := some m.gm, logSync := m.logIntvl, pendSync := none } ∧
      (∀ j, j ≠ p → v.port j = s.port j) ∧ v = { s with time := { s.time with ports := v.time.ports, gmId := m.gm } } ∧
      (∀ g, (s.port p).prevGm = some g → g ≠ m.gm →
        t = if m.twoStep then (loseSource 1 v).setPort p fun g => { g with pendSync := some (m.seq.toNat, arrived, false) }
          else gptpSample p arrived m.time false (loseSource 1 v)) ∧
      ((∀ g, (s.port p).prevGm = some g → g = m.gm) →
        t = if m.twoStep then v.setPort p fun g => { g with pendSync := some (m.seq.toNat, arrived, true) }
          else gptpSample p arrived m.time true v)) ∧
  (∀ (seq : W16) (time : PtpTime) n arrived known, (s.port p).pendSync = some (n, arrived, known) → n = seq.toNat → (s.port p).state = 2 →
    Runs (.gptpFollowUpReceive p seq time) s fun t => ∃ v : State, v.port p = { s.port p with followRx := (s.port p).followRx + 1, pendSync := none } ∧
      (∀ j, j ≠ p → v.port j = s.port j) ∧ v = { s with time := { s.time with ports := v.time.ports } } ∧ t = gptpSample p arrived time known v) ∧
  (∀ (seq : W16) (time : PtpTime), (∀ x, (s.port p).pendSync = some x → x.1 ≠ seq.toNat) →
    Runs (.gptpFollowUpReceive p seq time) s (· = s.setPort p fun g => { g with followRx := g.followRx + 1 })) ∧
  (∀ m : AnnounceMsg, m.domain.toNat = s.time.gptpDomain → s.gptpRole p = 1 → Runs (.gptpAnnounceReceive p m) s fun t => ∃ v : State,
    v.port p = { s.port p with announceRx := (s.port p).announceRx + 1, announce := some m } ∧ (∀ j, j ≠ p → v.port j = s.port j) ∧
    v = { s with time := { s.time with ports := v.time.ports } } ∧ t = bmca v) ∧
  (∀ m : AnnounceMsg, m.domain.toNat = s.time.gptpDomain → s.gptpRole p ≠ 1 → (s.port p).state = 2 → Runs (.gptpAnnounceReceive p m) s fun t =>
    t.port p = { s.port p with announceRx := (s.port p).announceRx + 1, announce := some m } ∧ (∀ j, j ≠ p → t.port j = s.port j) ∧
    t = { s with time := { s.time with ports := t.time.ports, gmId := m.gm, stepsRemoved := m.stepsRemoved.toNat + 1 } }) ∧
  (∀ m : AnnounceMsg, m.domain.toNat ≠ s.time.gptpDomain ∨ s.gptpRole p ≠ 1 ∧ (s.port p).state ≠ 2 →
    Runs (.gptpAnnounceReceive p m) s (· = s.setPort p fun g => { g with announceRx := g.announceRx + 1 })) ∧
  (∀ seq : W16, Runs (.gptpPdelayReceive p (.req seq)) s
    (· = { s with out := .gptp p (.pdelayResp seq.toNat (s.now - i64 (s.tune (0x140 + p))) (s.now + i64 (s.tune (0x148 + p)))) :: s.out })) ∧
  (∀ (seq : W16) (t1 t2 t3 t4 : W64), (s.port p).pdelayT1 = some (seq.toNat, t1) → t4 = s.now - i64 (s.tune (0x140 + p)) →
    Runs (.gptpPdelayReceive p (.resp seq t2 t3)) s fun t => ∃ (ratio : Int) (d : Nat),
      ratio = (match (s.port p).pdelayPrev with | some x => rateRatioOf t3 t4 x.1 x.2 | none => (s.port p).rateRatio.toInt) ∧
      d = peerDelay t1 t2 t3 t4 ratio ∧ (ratio = 0 → d = (((t4 - t1).toInt - (t3 - t2).toInt) / 2).toNat) ∧
      t.port p = { s.port p with
        pdelayRx := (s.port p).pdelayRx + 1, linkDelay := w32 d, rateRatio := i32 ratio, missed := 0, asCapable := decide (d ≤ 12800)
        pdelayT1 := none, pdelayPrev := some (t3, t4) } ∧
      (∀ j, j ≠ p → t.port j = s.port j) ∧ t = { s with time := { s.time with ports := t.time.ports } }) ∧
  (∀ (seq : W16) (t2 t3 : W64), (∀ x, (s.port p).pdelayT1 = some x → x.1 ≠ seq.toNat) → Runs (.gptpPdelayReceive p (.resp seq t2 t3)) s (· = s)) ∧
  (Runs (.gptpPdelayReceive p .lost) s fun t => t.port p = { s.port p with
    pdelayLost := (s.port p).pdelayLost + 1, missed := (s.port p).missed + 1, pdelayT1 := none
    asCapable := (s.port p).asCapable && decide ((s.port p).missed + 1 < 9) } ∧
    (∀ j, j ≠ p → t.port j = s.port j) ∧ t = { s with time := { s.time with ports := t.time.ports } }) ∧
  (∀ k : Int, Runs (.gptpPdelayReceive p (.signaling k)) s
    (· = if (s.port p).state = 1 ∧ -7 ≤ k ∧ k ≤ 0 then s.setPort p fun g => { g with logSync := k } else s)) ∧
  (∀ stamp : W64, (s.port p).state = 1 → stamp = s.now + i64 (s.tune (0x148 + p)) → Runs (.gptpSyncTransmit p) s fun t => ∃ v : State,
    v.port p = { s.port p with seqTx := (s.port p).seqTx + 1, syncTx := (s.port p).syncTx + 1 } ∧ (∀ j, j ≠ p → v.port j = s.port j) ∧
    v = { s with time := { s.time with ports := v.time.ports } } ∧ (s.time.source ≠ 1 → masterTime stamp v = vtToPtp s stamp.toNat) ∧
    t = { v with out := .gptp p (.followUp ((s.port p).seqTx % 65536) (masterTime stamp v)) :: .gptp p (.sync ((s.port p).seqTx % 65536) stamp) :: s.out }) ∧
  ((s.port p).state ≠ 1 → Runs (.gptpSyncTransmit p) s (· = s)) ∧
  (∀ stamp : W64, stamp = s.now + i64 (s.tune (0x148 + p)) → Runs (.gptpPdelayReqTransmit p) s fun t =>
    t.port p = { s.port p with
      seqTx := (s.port p).seqTx + 1, pdelayTx := (s.port p).pdelayTx + 1, pdelayT1 := some ((s.port p).seqTx % 65536, stamp) } ∧
    (∀ j, j ≠ p → t.port j = s.port j) ∧
    t = { s with time := { s.time with ports := t.time.ports }, out := .gptp p (.pdelayReq ((s.port p).seqTx % 65536) stamp) :: s.out }) ∧
  ((s.port p).state = 1 → Runs (.gptpAnnounceTransmit p) s fun t => t = { s with out := .gptp p (.announce (announceOut s)) :: s.out } ∧
    (s.time.source ≠ 1 → announceOut s = { gm := w64 clockIdentity, domain := w8 s.time.gptpDomain, priority1 := 246, clockClass := 248, accuracy := 0xFE, variance := 0x436A, priority2 := 248, stepsRemoved := 0, timeSource := 0xA0 })) ∧
  ((s.port p).state ≠ 1 → Runs (.gptpAnnounceTransmit p) s (· = s)) ∧
  (∀ b, s.gptpRole p ≠ 1 → Runs (.gptpReceiptTimeout p b) s fun t => t.port p = { s.port p with
    syncTimeouts := if b then (s.port p).syncTimeouts + 1 else (s.port p).syncTimeouts, announce := none } ∧ (∀ j, j ≠ p → t.port j = s.port j) ∧
    t = { s with time := { s.time with ports := t.time.ports } }) ∧
  (∀ b, s.gptpRole p = 1 → Runs (.gptpReceiptTimeout p b) s fun t => ∃ v : State, v.port p = { s.port p with
    syncTimeouts := if b then (s.port p).syncTimeouts + 1 else (s.port p).syncTimeouts, announce := none } ∧ (∀ j, j ≠ p → v.port j = s.port j) ∧
    v = { s with time := { s.time with ports := v.time.ports } } ∧ t = bmca v)

/-- PPS_IN edges, source timeouts, the holdover limit, REF10, the crystal paths, TDC recalibration, the VT64 save, PPS_OUT,
the PTM offset and TIO edges act as the spec says; the statement gives each next state. It rests on the model's choices of
logs 5, 45. (R26, R62, R138, R153, R154, R155, R161, R162) -/
def Obligations.ReferenceRows : Prop :=
  ∀ s : State, s.alive = true →
  (∀ r : Bool, s.time.counting = true → (r != (s.time.ppsEdge == 0)) = true → Runs (.ppsInEdge r) s (· = s)) ∧
  (∀ r : Bool, s.time.counting = true → (r != (s.time.ppsEdge == 0)) = false → s.edgeStamped 48 = false → Runs (.ppsInEdge r) s (· = { s with time := { s.time with ppsMiss := s.time.ppsMiss + 1 } })) ∧
  (∀ r : Bool, s.time.counting = true → (r != (s.time.ppsEdge == 0)) = false → s.edgeStamped 48 = true → Runs (.ppsInEdge r) s fun t => ∃ v : State,
    tabFind v.sen.lastEdge 48 = some s.time.mono ∧ v = { s with sen := v.sen } ∧
    t = ppsInput (s.stamp 48) (postBound 4 (· == 0x6000) none (s.stamp 48) s.quality (assertProducer 504 v))) ∧
  (∀ c, 1 ≤ c → c < 5 → (s.track c).valid = true ∨ (s.time.servo = .acquire ∧ s.time.source = c) → Runs (.sourceTimeout c) s fun t => ∃ v : State, (v.track c).timeouts = (s.track c).timeouts + 1 ∧
    (c = 2 → v.time.ppsRef = none) ∧ (c ≠ 2 → v.time.ppsRef = s.time.ppsRef) ∧ v.time.source = s.time.source ∧ s.lastHeard c + s.timeoutOf c ≤ v.time.mono ∧ t = loseSource c v ∧
    (c ≠ 2 ∨ s.time.ppsRef = none → s.lastHeard c = (s.track c).lastMono) ∧ (∀ r, c = 2 → s.time.ppsRef = some r → s.lastHeard c = r.2) ∧
    (s.time.source ≠ c → (t.track c).valid = false ∧ (t.track c).qualified = false ∧ (t.track c).count = 0 ∧ t.time.servo = s.time.servo)) ∧
  (s.time.servo = .holdover → Runs .holdoverLimitExpiry s fun t => ∃ v : State, v.time.servo = .free ∧ v.time.source = 0 ∧ v.time.freq = 0 ∧ v.time.pending = none ∧
    16000000 * (if s.time.holdLimit = 0 then 300000 else s.time.holdLimit) + s.time.holdFrom ≤ v.time.mono ∧ v.fcu = s.fcu ∧ t = raiseFault Src.holdoverExpired 0 unitNone v) ∧
  (s.time.ref10 = true → Runs .ref10InLoss s (· = raiseFault Src.ref10Lost 0 unitNone { s with time := { s.time with ref10 := false, ref10Lost := true } })) ∧
  (s.time.ref10 = false → Runs .ref10InLoss s (· = s)) ∧
  (∀ path : Nat, path < 2 → s.time.pathFailed.getLsbD path = true → Runs (.crystalPathFailure path) s (· = s)) ∧
  (∀ path : Nat, path < 2 → s.time.pathFailed.getLsbD path = false → s.time.path = decide (path = 1) → s.time.pathFailed.getLsbD (1 - path) = false → Runs (.crystalPathFailure path) s fun t =>
    ∃ v : State, v.time = { s.time with pathFailed := putBit s.time.pathFailed path true, path := !s.time.path } ∧ v.em = { s.em with oscB := !s.time.path } ∧
      v.health = { s.health with oscStandby := false } ∧ v = { s with time := v.time, em := v.em, health := v.health } ∧ t = raiseFault Src.oscPath 0 unitNone v) ∧
  (∀ path : Nat, path < 2 → s.time.pathFailed.getLsbD path = false → s.time.path ≠ decide (path = 1) ∨ s.time.pathFailed.getLsbD (1 - path) = true → Runs (.crystalPathFailure path) s (· =
    { s with time := { s.time with pathFailed := putBit s.time.pathFailed path true }, health := { s.health with oscStandby := false } })) ∧
  (∀ pin residual (code : W32), s.time.counting = true → pin < 58 → residual ≤ 16 → Runs (.tdcRecalibration pin residual code) s (· =
    { s with time := { s.time with tdc := tabSet s.time.tdc pin code } })) ∧
  (∀ pin residual (code : W32), s.time.counting = true → pin < 58 → 16 < residual → Runs (.tdcRecalibration pin residual code) s (· = raiseFault Src.tdcCal (w64 pin) unitNone s)) ∧
  (s.time.counting = true → Runs .vt64Save s (· = { s with em := { s.em with savedVt := s.now, marker := true } })) ∧
  (∀ u : State, s.ready Rdy.pps = true → s.time.counting = true → (s.time.ppsFall = none → u = s) → (∀ m, s.time.ppsFall = some m → exec .ppsOutFall s = .next u) →
    ((s.quality = .locked ∨ s.quality = .holdover ∨ s.quality = .lead) → s.pins.safeHeld = false → Runs .ppsOutRise s fun t => ∃ v : State,
      v.now = u.now + w64 ((16000000000 - ((u.now.toNat : Int) - s.time.ppsOfs) % 16000000000) % 16000000000).toNat ∧ v.pins = u.pins ∧
      t = assertProducer 505 (ppsOutEdge { v with pins := { u.pins with ppsOut := true }, time := { v.time with ppsFall := some (v.now + w64 s.time.ppsWidth) } })) ∧
    ((s.quality = .free ∨ s.quality = .acquire) ∨ s.pins.safeHeld = true → Runs .ppsOutRise s fun t => t.pins = u.pins ∧ t.time.ppsFall = none)) ∧
  (∀ m, s.time.ppsFall = some m → Runs .ppsOutFall s fun t => ∃ u v : State, u = s.bringVt m ∧ (s.time.counting = true → (m - s.now).toNat < 2 ^ 63 → u.now = m) ∧
    v = { u with pins := { s.pins with ppsOut := false }, time := { u.time with ppsFall := none } } ∧
    (v.edgeStamped 49 = true → t = { v with time := { v.time with ppsOutStamp := v.stamp 49 }, sen := { v.sen with lastEdge := tabSet v.sen.lastEdge 49 v.time.mono } }) ∧
    (v.edgeStamped 49 = false → t = { v with sen := { v.sen with edgeMiss := tabMod v.sen.edgeMiss 49 0 (· + 1) } })) ∧
  (s.time.ppsFall = none → Runs .ppsOutFall s (· = s)) ∧
  (∀ val, s.ready Rdy.vt = true → Runs (.tePtmOfsWrite val) s (· = { s with time := { s.time with ptmOfsNext := some val } })) ∧
  (∀ pin r, s.time.counting = true → pin < 48 → edgeSelected (tioEdgeSel (s.sen.tioCfg pin)) r = false → Runs (.tioEdge pin r) s (· = { s with pins := { s.pins with tioIn := putBit s.pins.tioIn pin r } })) ∧
  (∀ pin r, s.time.counting = true → pin < 48 → edgeSelected (tioEdgeSel (s.sen.tioCfg pin)) r = true → s.edgeStamped pin = false → Runs (.tioEdge pin r) s (· =
    { s with pins := { s.pins with tioIn := putBit s.pins.tioIn pin r }, sen := { s.sen with tio := tabSet s.sen.tio pin (w32 ((s.sen.tioCfg pin).toNat + 2 ^ 24 * (if bitsAt (s.sen.tioCfg pin).toNat 24 8 = 255 then 0 else 1))) } })) ∧
  (∀ pin r, s.time.counting = true → pin < 48 → edgeSelected (tioEdgeSel (s.sen.tioCfg pin)) r = true → s.edgeStamped pin = true → Runs (.tioEdge pin r) s fun t => ∃ v : State,
    v.pins = { s.pins with tioIn := putBit s.pins.tioIn pin r } ∧ tabFind v.sen.lastEdge pin = some s.time.mono ∧ v = { s with pins := v.pins, sen := v.sen } ∧
    t = postBound 4 (· == 0x5000 + pin) none (s.stamp pin) s.quality { v with sen := (v.sen.assert pin s.senCycle).put { prod := pin, ch := 64 + pin, due := s.senCycle + 2, consumers := v.sen.pinConsumers pin, stamp := some (s.stamp pin, s.quality) } })

/-- An integer, carry, bit, multiply, divide or floating instruction that issues writes the result the spec gives to its
destination, sets the flags it sets, advances the pc, and changes nothing else. A divide completes after its cycles. It
rests on the model's choices of logs 28, 155. (R215, R245, R246, R247, R248, R249, R253, R256, R259, R260, R264, R530) -/
def Obligations.ScalarRegisterRows : Prop :=
  ∀ (e : Eng) (s u : State) (x : Engine), u.engine e = x →
  (∀ f rd a b, Issues e (.alu f rd a b) s u → Runs (.integerOp e) s (Completes e [(rd, aluOp f (x.reg a) (x.reg b))] 0 u)) ∧
  (∀ rd a b c, Issues e (.sel rd a b c) s u → Runs (.integerOp e) s (Completes e [(rd, if x.reg c = 0 then x.reg b else x.reg a)] 0 u)) ∧
  (∀ f rd a b, Issues e (.cmp f rd a b) s u → Runs (.integerOp e) s (Completes e [(rd, cmpOp f (x.reg a) (x.reg b))] 0 u)) ∧
  (∀ f rd a i, Issues e (.imm f rd a i) s u → Runs (.integerOp e) s (Completes e [(rd, immOp f (x.reg a) i)] 0 u)) ∧
  (∀ k rd a sh, Issues e (.shi k rd a sh) s u → Runs (.integerOp e) s (Completes e [(rd, aluOp (6 + k) (x.reg a) (w32 sh))] 0 u)) ∧
  (∀ rd i, Issues e (.lui rd i) s u → Runs (.integerOp e) s (Completes e [(rd, w32 (4096 * i))] 0 u)) ∧
  (∀ rd i, Issues e (.auipc rd i) s u → Runs (.integerOp e) s (Completes e [(rd, x.pc + w32 (4096 * i))] 0 u)) ∧
  (∀ f rd a b c, Issues e (.carry f rd a b c) s u → Runs (.carryBorrowOp e) s (Completes e [(rd, carryOp f (x.reg a) (x.reg b) (x.reg c))] 0 u)) ∧
  (∀ f rd a, Issues e (.bitop f rd a) s u → Runs (.bitOp e) s (Completes e [(rd, bitOp f (x.reg a))] 0 u)) ∧
  (∀ rd a b, Issues e (.mul 0 rd a b) s u → Runs (.multiplyOp e) s (Completes e [(rd, x.reg a * x.reg b)] 0 u)) ∧
  (∀ f rd a b, f ≠ 0 → Issues e (.mul f rd a b) s u → Runs (.multiplyOp e) s (Completes e
    [(rd, w32 (wideProduct f (x.reg a) (x.reg b)).toNat), (rd + 1, w32 ((wideProduct f (x.reg a) (x.reg b)).toNat / 2 ^ 32))] 0 u)) ∧
  (∀ rd a b c, Issues e (.madd rd a b c) s u → Runs (.multiplyOp e) s (Completes e [(rd, x.reg a * x.reg b + x.reg c)] 0 u)) ∧
  (∀ f rd a b, Issues e (.div f rd a b) s u → Runs (.divideOp e) s (Leaves e u fun x => { x with
    div := some { rd := rd, result := (divOp f (x.reg a) (x.reg b)).1, dz := (divOp f (x.reg a) (x.reg b)).2, cycles := divCycles f (x.reg a) (x.reg b) } })) ∧
  (∀ d, s.coreLive e = true → (s.engine e).div = some d → Runs (.divideComplete e) s (Leaves e (s.advance (s.vtOfCycles d.cycles)) fun x =>
    ({ x with div := none }.results [(d.rd, d.result)]).retire (if d.dz then 8 else 0) none)) ∧
  (∀ f dbl rd a b c, f ≤ 3 → Issues e (.fp f dbl rd a b c) s u → Runs (.fpArith e) s fun t => ∀ r, r = fpOp f dbl (fcsrRm x.fcsr)
      (if dbl then x.pair a else (x.reg a).toNat) (if dbl then x.pair b else (x.reg b).toNat) (if dbl then x.pair c else (x.reg c).toNat) →
    Completes e (if dbl then [(rd, w32 r.1), (rd + 1, w32 (r.1 / 2 ^ 32))] else [(rd, w32 r.1)]) r.2 u t) ∧
  (∀ f dbl rd a b c, 4 ≤ f → f ≤ 8 → Issues e (.fp f dbl rd a b c) s u → Runs (.fpMinMaxCompare e) s fun t => ∀ r, r = fpOp f dbl (fcsrRm x.fcsr)
      (if dbl then x.pair a else (x.reg a).toNat) (if dbl then x.pair b else (x.reg b).toNat) (if dbl then x.pair c else (x.reg c).toNat) →
    Completes e (if dbl && f < 6 then [(rd, w32 r.1), (rd + 1, w32 (r.1 / 2 ^ 32))] else [(rd, w32 r.1)]) r.2 u t) ∧
  (∀ f dbl rd a b c, 9 ≤ f → Issues e (.fp f dbl rd a b c) s u → Runs (.fpConvert e) s (Completes e (fpResult x f dbl rd a b c).1 (fpResult x f dbl rd a b c).2 u))

/-- A load that issues takes its bytes from an older store of its own engine or from memory, queues its result or its bus
error and updates the base register, and waits where neither has them; a read of FG_NEXT takes the entry or ends the job; a
store is queued and, on its acknowledgement, written or recorded as an asynchronous error, an atomic reads and writes its
word in one step, and a misaligned atomic or a go in user mode raises its exception. It rests on the model's choices of logs
28, 49, 127, 156. (R226, R231, R232, R233, R238, R241, R314, R393, R530) -/
def Obligations.ScalarMemoryRows : Prop :=
  ∀ (e : Eng) (s u : State) (x : Engine), u.engine e = x →
  (∀ kind rt base am amf ea upd b v, kind ≠ 5 → Issues e (.load kind rt base am amf) s u → x.loads.length < 4 →
    address x.reg (fun i => (x.modBase.toList[i]?).getD 0) (fun i => (x.modLen.toList[i]?).getD 0) base am amf = (ea, upd) →
    (loadWay e ea.toNat (loadSize kind) u = .forward b ∧ v = u ∨ loadWay e ea.toNat (loadSize kind) u = .out ∧
      (loadSize kind = 4 → ea.toNat % 4 = 0 → fgNextAt e ea.toNat u = none) ∧
      readPieces e (loadSize kind) (pieces ea.toNat (loadSize kind)) u = (.ok b, v)) →
    Runs (.load e) s (· = issueLoad e base upd (loadWrites kind rt b) (base == rt || (kind == 6 && base == rt + 1)) v)) ∧
  (∀ kind rt base am amf ea upd f v, kind ≠ 5 → Issues e (.load kind rt base am amf) s u → x.loads.length < 4 →
    address x.reg (fun i => (x.modBase.toList[i]?).getD 0) (fun i => (x.modLen.toList[i]?).getD 0) base am amf = (ea, upd) →
    loadWay e ea.toNat (loadSize kind) u = .out → (loadSize kind = 4 → ea.toNat % 4 = 0 → fgNextAt e ea.toNat u = none) →
    readPieces e (loadSize kind) (pieces ea.toNat (loadSize kind)) u = (.error f, v) →
    Runs (.load e) s (Leaves e v fun y => { y with loads := y.loads ++ [{ writes := [], err := some f }] })) ∧
  (∀ kind rt base am amf ea upd, kind ≠ 5 → Issues e (.load kind rt base am amf) s u →
    address x.reg (fun i => (x.modBase.toList[i]?).getD 0) (fun i => (x.modLen.toList[i]?).getD 0) base am amf = (ea, upd) →
    (4 ≤ x.loads.length ∨ loadWay e ea.toNat (loadSize kind) u = .wait) → Runs (.load e) s (· = s)) ∧
  (∀ rt base am amf ea upd k, Issues e (.load 4 rt base am amf) s u → x.loads.length < 4 →
    address x.reg (fun i => (x.modBase.toList[i]?).getD 0) (fun i => (x.modLen.toList[i]?).getD 0) base am amf = (ea, upd) →
    ea.toNat % 4 = 0 → fgNextAt e ea.toNat u = some k → loadWay e ea.toNat 4 u = .out → x.chordsAt false = false →
    ((u.gate k).fresh = true → Runs (.load e) s (· =
      issueLoad e base upd (if rt == 0 then [] else [(rt, (u.gate k).entry)]) (base == rt) (u.setGate k fun g => { g with fresh := false }))) ∧
    (∀ v, (u.gate k).fresh = false → v = endJob k u → (v.gate k).fresh = false →
      Runs (.load e) s (Leaves e v fun y => { y with fgWait := true })) ∧
    (∀ v, (u.gate k).fresh = false → v = endJob k u → (v.gate k).fresh = true → Runs (.load e) s (· =
      issueLoad e base upd (if rt == 0 then [] else [(rt, (v.gate k).entry)]) (base == rt) (v.setGate k fun g => { g with fresh := false })))) ∧
  (∀ rt base am amf ea upd b v a, Issues e (.load 5 rt base am amf) s u → x.loads.length < 4 →
    address x.reg (fun i => (x.modBase.toList[i]?).getD 0) (fun i => (x.modLen.toList[i]?).getD 0) base am amf = (ea, upd) → a = ea.toNat / 4 * 4 →
    (loadWay e a 4 u = .forward b ∧ v = u ∨ loadWay e a 4 u = .out ∧ fgNextAt e a u = none ∧ readPieces e 4 (pieces a 4) u = (.ok b, v)) → b.length = 4 →
    Runs (.lwx e) s (· = issueLoad e base upd (if rt == 0 then [] else [(rt, (w32 (leNat b)).rotateRight (8 * (ea.toNat % 4)))]) (base == rt) v)) ∧
  (∀ rt base am amf ea upd f v a, Issues e (.load 5 rt base am amf) s u → x.loads.length < 4 →
    address x.reg (fun i => (x.modBase.toList[i]?).getD 0) (fun i => (x.modLen.toList[i]?).getD 0) base am amf = (ea, upd) → a = ea.toNat / 4 * 4 →
    loadWay e a 4 u = .out → fgNextAt e a u = none → readPieces e 4 (pieces a 4) u = (.error f, v) →
    Runs (.lwx e) s (Leaves e v fun y => { y with loads := y.loads ++ [{ writes := [], err := some f }] })) ∧
  (∀ l ls, s.coreLive e = true → (s.engine e).loads = l :: ls → l.err = none → Runs (.loadReturn e) s (Leaves e s fun y => Engine.setRegs { y with loads := ls } l.writes)) ∧
  (∀ l ls a, s.coreLive e = true → (s.engine e).loads = l :: ls → l.err = some a → Runs (.loadReturn e) s (· =
    raiseExc e { code := 5, eaddr := some a } (s.setEngine e fun y => Engine.setRegs { y with loads := ls } l.writes))) ∧
  (∀ kind rt base am amf ea upd bs, Issues e (.store kind rt base am amf) s u → x.stores.length < 8 → x.vq.any (·.store) = false →
    address x.reg (fun i => (x.modBase.toList[i]?).getD 0) (fun i => (x.modLen.toList[i]?).getD 0) base am amf = (ea, upd) →
    bs = leBytes (2 ^ kind) (if kind == 3 then x.pair rt else (x.reg rt).toNat) → (isFgDone e ea.toNat bs u && x.chordsAt false) = false →
    (isGo e ea.toNat bs u = none ∨ ∃ n ch, isGo e ea.toNat bs u = some (n, ch) ∧ n ≠ e.course ∧ x.priv ≠ 0) →
    Runs (.store e) s (Leaves e u fun y => (Engine.withBase { (y.noteStore ea.toNat bs) with stores := y.stores ++ [{ addr := ea.toNat, bytes := bs, seq := y.storeSeq }], storeSeq := y.storeSeq + 1 } base upd).retire 0 none)) ∧
  (∀ kind rt base am amf ea upd bs ch, Issues e (.store kind rt base am amf) s u → x.stores.length < 8 → x.vq.any (·.store) = false →
    address x.reg (fun i => (x.modBase.toList[i]?).getD 0) (fun i => (x.modLen.toList[i]?).getD 0) base am amf = (ea, upd) →
    bs = leBytes (2 ^ kind) (if kind == 3 then x.pair rt else (x.reg rt).toNat) → (isFgDone e ea.toNat bs u && x.chordsAt false) = false → isGo e ea.toNat bs u = some (e.course, ch) → x.priv ≠ 0 → x.starts.length < 4 →
    Runs (.store e) s (Leaves e u fun y => (Engine.withBase { (y.noteStore ea.toNat bs) with stores := y.stores ++ [{ addr := ea.toNat, bytes := bs, seq := y.storeSeq }], storeSeq := y.storeSeq + 1, starts := y.starts ++ [.dma ch y.pc] } base upd).retire 0 none)) ∧
  (∀ kind rt base am amf ea upd bs g, Issues e (.store kind rt base am amf) s u → x.stores.length < 8 → x.vq.any (·.store) = false →
    address x.reg (fun i => (x.modBase.toList[i]?).getD 0) (fun i => (x.modLen.toList[i]?).getD 0) base am amf = (ea, upd) →
    bs = leBytes (2 ^ kind) (if kind == 3 then x.pair rt else (x.reg rt).toNat) → (isFgDone e ea.toNat bs u && x.chordsAt false) = false → isGo e ea.toNat bs u = some g → x.priv = 0 → x.loads = [] →
    Runs (.store e) s (· = raiseExc e privCause u)) ∧
  (∀ i st v instr r, s.alive = true → Eng.ok e = true → storeReady e (s.engine e) i = some st →
    (∀ n ch, isGo e st.addr st.bytes s = some (n, ch) → instr = ((startOf (eMaster e) ch s).map (·.2)).getD 0) → (isGo e st.addr st.bytes s = none → instr = 0) →
    writePieces e instr st.bytes (pieces st.addr st.bytes.length) 0 (s.setEngine e fun y => { y with stores := y.stores.eraseIdx i }) = (r, v) →
    (r = none → Runs (.storeAck e i) s (· = v)) ∧
    (∀ a, r = some a → isGo e st.addr st.bytes s = none → (v.engine e).asyncQ.length < 12 → Runs (.storeAck e i) s (Leaves e v fun y => { y with asyncQ := y.asyncQ ++ [.buserr a] })) ∧
    (∀ a n ch, r = some a → isGo e st.addr st.bytes s = some (n, ch) → (v.engine e).asyncQ.length < 12 → Runs (.storeAck e i) s (Leaves e v fun y =>
      { y with starts := y.starts.erase (.dma ch instr), asyncQ := y.asyncQ ++ [.buserr a] }))) ∧
  (∀ i, s.alive = true → Eng.ok e = true → storeReady e (s.engine e) i = none → Runs (.storeAck e i) s (· = s)) ∧
  (∀ f rt base src m o bs b v w, Issues e (.amo f rt base src) s u → (x.reg base).toNat % 4 = 0 → x.vq.any (·.store) = false → x.stores.any (·.meets (x.reg base).toNat 4) = false →
    (regionOf x.remap (x.reg base).toNat = .lsp o ∧ m = .lsp e.course e.phys ∨ regionOf x.remap (x.reg base).toNat = .csm o ∧ u.csmOk e.course = true ∧ m = .csm e.course) →
    memLoad m o 4 u = (bs, v) → allBytes bs = some b → memStore m o (leBytes 4 (amoOp f (w32 (leNat b)) (x.reg src)).toNat) v = (true, w) →
    Runs (.atomic e) s (Completes e [(rt, w32 (leNat b))] 0 (w.setEngine e (Engine.noteStore (x.reg base).toNat (leBytes 4 (amoOp f (w32 (leNat b)) (x.reg src)).toNat))))) ∧
  (∀ f rt base src, Issues e (.amo f rt base src) s u → (x.reg base).toNat % 4 ≠ 0 → x.loads = [] →
    Runs (.atomic e) s (· = raiseExc e { code := 4, eaddr := some (x.reg base) } u)) ∧
  (∀ a b, Issues e (.paired a b) s u → sopMem a = false → sopMem b = false → Runs (.pairedWord e) s (Completes e (halfWrites x a ++ halfWrites x b) 0 u)) ∧
  (∀ a b h bs ea, Issues e (.paired a b) s u → [a, b].find? sopMem = some h → bitsAt h 10 5 = 21 → x.stores.length < 8 → x.vq.any (·.store) = false →
    ea = (x.reg (bitsAt h 5 5)).toNat → bs = leBytes 4 (x.reg (bitsAt h 0 5)).toNat → (isFgDone e ea bs u && x.chordsAt false) = false → isGo e ea bs u = none →
    Runs (.pairedWord e) s (Leaves e u fun y => (Engine.results { (y.noteStore ea bs) with stores := y.stores ++ [{ addr := ea, bytes := bs, seq := y.storeSeq }], storeSeq := y.storeSeq + 1 }
      (halfWrites x a ++ halfWrites x b)).retire 0 none)) ∧
  (∀ a b h bs v ea, Issues e (.paired a b) s u → [a, b].find? sopMem = some h → bitsAt h 10 5 ≠ 21 → x.loads.length < 4 → ea = (x.reg (bitsAt h 0 5)).toNat →
    (loadWay e ea 4 u = .forward bs ∧ v = u ∨ loadWay e ea 4 u = .out ∧ (ea % 4 = 0 → fgNextAt e ea u = none) ∧ readPieces e 4 (pieces ea 4) u = (.ok bs, v)) →
    Runs (.pairedWord e) s (· = issueLoad e 0 none (if bitsAt h 5 5 == 0 then [] else [(bitsAt h 5 5, w32 (leNat bs))]) true
      (v.setEngine e fun y => y.results (halfWrites x a ++ halfWrites x b))))

/-- A branch, a jump or a loop that issues moves the pc after its delay slot as the spec says; MFC and MTC read and write a
register the mode may, and raise the privilege exception otherwise; SYSCALL and BRK raise theirs; RFE restores the saved
state; SYNC, IFLUSH and WAIT complete. It rests on the model's choices of logs 28, 36, 37, 126, 127. (R61, R206, R207, R209,
R216, R220, R235, R237, R251, R285, R302, R313, R530) -/
def Obligations.ScalarControlRows : Prop :=
  ∀ (e : Eng) (s u : State) (x : Engine), u.engine e = x →
  (∀ nz rs off, Issues e (.branch nz rs off) s u → Runs (.branch e) s (Branches e [] (x.pc + i32 (4 * sgn 20 off)) (decide (x.reg rs = 0) != nz) u)) ∧
  (∀ off, Issues e (.jump false off) s u → Runs (.jump e) s (Branches e [] (x.pc + i32 (4 * sgn 25 off)) true u)) ∧
  (∀ off, Issues e (.jump true off) s u → Runs (.jump e) s (Branches e [(31, x.pc + 8)] (x.pc + i32 (4 * sgn 25 off)) true u)) ∧
  (∀ rd rs imm, Issues e (.jalr rd rs imm) s u → Runs (.jalr e) s (Branches e [(rd, x.pc + 8)] ((x.reg rs + i32 (sgn 15 imm)) &&& 0xFFFFFFFC) true u)) ∧
  (∀ lvl reg count end13, Issues e (.loop lvl reg count end13) s u → Runs (.loop e) s (Leaves e u fun y =>
    let n := if reg then y.reg count else w32 count
    let z := Engine.retire { y with lc := y.lc.set! lvl n, ls := y.ls.set! lvl (y.pc + 4), le := y.le.set! lvl (y.pc + w32 (4 * end13)) } 0 none
    if n = 0 then { z with pc := y.pc + w32 (4 * end13) + 4 } else z)) ∧
  (∀ rd n, cregReadable x.priv n = true → (n = 0x1E → x.vq = []) → Issues e (.mfc rd n) s u → Runs (.mfc e) s (Completes e [(rd, readCreg e n u)] 0 u)) ∧
  (∀ rd n, cregReadable x.priv n = false → x.loads = [] → Issues e (.mfc rd n) s u → Runs (.mfc e) s (· = raiseExc e privCause u)) ∧
  (∀ rs n, cregWritable x.priv n = true → (n = 0 → x.priv = 1 → bitsAt (x.reg rs).toNat 0 2 ≠ 3) → Issues e (.mtc rs n) s u →
    Runs (.mtc e) s (Leaves e u fun y => y.retire 0 (some (n, y.reg rs)))) ∧
  (∀ rs n, (cregWritable x.priv n = false ∨ (n = 0 ∧ x.priv = 1 ∧ bitsAt (x.reg rs).toNat 0 2 = 3)) → x.loads = [] → Issues e (.mtc rs n) s u →
    Runs (.mtc e) s (· = raiseExc e privCause u)) ∧
  (∀ i, x.loads = [] → Issues e (.syscall i) s u → Runs (.syscall e) s (· = raiseExc e { code := 7, sub := i, skip := true } u)) ∧
  (∀ i, x.loads = [] → Issues e (.brk i) s u → Runs (.brk e) s (· = raiseExc e { code := 8, sub := i, skip := true } u)) ∧
  (x.priv ≠ 0 → x.chordsAt true = false → Issues e .rfe s u → Runs (.rfe e) s (Leaves e u Engine.rfe)) ∧
  (x.priv = 0 → x.loads = [] → Issues e .rfe s u → Runs (.rfe e) s (· = raiseExc e privCause u)) ∧
  (x.stores = [] → x.starts = [] → Issues e .sync s u → Runs (.sync e) s (Completes e [] 0 u)) ∧
  (Issues e .iflush s u → Runs (.iflush e) s (Leaves e u fun y => { y.retire 0 none with pq := [], held := [], fetchRemap := y.remap })) ∧
  (x.irqPend &&& x.irqEn ≠ 0 → Issues e .wait s u → Runs (.wait e) s (Completes e [] 0 u)) ∧
  (x.irqPend &&& x.irqEn = 0 → x.waiting = false → Issues e .wait s u → Runs (.wait e) s (Leaves e u fun y => { y with waiting := true }))

/-- VE_CTL runs, stops and resets a core, an enabled interrupt enters its handler at a boundary, an asynchronous error
enters its own or halts the core where it is escalated, a takeover within the first cycles of an entry restores what that
entry saved and enters the higher one, writes of the pending register clear its bits and keep the edges of their cycle, and
SOFT has no edge of its own. It rests on the model's choices of logs 17, 48. (R6, R59, R60, R61, R205, R206, R207, R209,
R274, R276, R277, R278, R279, R280, R281, R284, R286, R290, R320, R392, R393) -/
def Obligations.EngineEventRows : Prop :=
  ∀ (e : Eng) (s : State) (x : Engine), s.alive = true → Eng.ok e = true → s.engine e = x →
  (∀ val : W32, val.getLsbD 2 = false → val.getLsbD 0 = true → x.run = false → x.st = .idle → Runs (.veCtlRun e val) s (Leaves e s fun y =>
    { coreReset { y with run := true, remap := val.getLsbD 1, st := .run } with fetchRemap := val.getLsbD 1 })) ∧
  (∀ val : W32, val.getLsbD 2 = false → val.getLsbD 0 = false → x.run = true → x.st = .run → Runs (.veCtlRun e val) s (Leaves e s fun y =>
    coreReset { y with run := false, remap := val.getLsbD 1, st := .idle })) ∧
  (∀ val : W32, val.getLsbD 2 = false → val.getLsbD 0 = true → x.run = false → x.st ≠ .idle → x.st ≠ .shadow → Runs (.veCtlRun e val) s (Leaves e s fun y =>
    { y with run := true, remap := val.getLsbD 1 })) ∧
  (∀ val : W32, val.getLsbD 2 = true → Runs (.veCtlRst e val) s fun t =>
    t.engine e = { ({} : Engine) with st := if x.st = .run ∨ x.st = .halt then .idle else x.st, irqPend := x.irqPend, irqEn := x.irqEn, irqLvl0 := x.irqLvl0, irqLvl1 := x.irqLvl1 } ∧
    (∀ f, f ≠ e → Eng.ok f = true → t.engine f = s.engine f) ∧ t = { s with eng := t.eng, fab := { s.fab with ecc := t.fab.ecc } }) ∧
  (∀ val : W32, val.getLsbD 2 = false → val.getLsbD 0 = x.run → Runs (.veCtlRemap e val) s (Leaves e s fun y => { y with remap := val.getLsbD 1 })) ∧
  (∀ n, irqTop x = some n → x.waiting = false → s.atBoundary e = true → x.ie = true → x.asyncQ = [] → x.delay = none → x.mtc = none → Runs (.interruptEntry e) s (· =
    enterCause e { code := 0x20 + n, sub := irqLevel x n } true s)) ∧
  (∀ n v, irqTop x = some n → x.waiting = true → x.irqPend &&& x.irqEn ≠ 0 → Completes e [] 0 s v → v.atBoundary e = true → (v.engine e).irqDue = true →
    (v.engine e).asyncQ = [] → Runs (.interruptEntry e) s (· = enterCause e { code := 0x20 + n, sub := irqLevel x n } true v)) ∧
  (irqTop x = none → Runs (.interruptEntry e) s (· = s)) ∧
  (∀ a qs, s.atBoundary e = true → x.asyncQ = .buserr a :: qs → x.esc = false → Runs (.asyncErrorEntry e) s (· =
    enterCause e { code := 6, eaddr := some a } false (s.setEngine e fun y => { y with asyncQ := qs }))) ∧
  (∀ d i qs, s.atBoundary e = true → x.asyncQ = .startErr d i :: qs → x.esc = false → Runs (.asyncErrorEntry e) s (· =
    enterCause e { code := 0x0A, sub := if d then 1 else 0, eaddr := some i } false (s.setEngine e fun y => { y with asyncQ := qs }))) ∧
  (∀ q qs, s.atBoundary e = true → x.asyncQ = q :: qs → x.esc = true → Runs (.asyncErrorEntry e) s (· = haltCore e (s.setEngine e fun y => { y with asyncQ := qs }))) ∧
  (∀ r n k v, s.coreLive e = true → x.entry = some r → r.age ≤ 7 → r.source = some k → irqTop x = some n → irqBefore x n k = true →
    (r.stackAt = none ∧ v = s ∨ ∃ a bs o, r.stackAt = some (a, bs) ∧ regionOf x.remap a = .lsp o ∧ v = (memStore (.lsp e.course e.phys) o bs s).2) →
    Runs (.interruptTakeover e) s (· = enterHandler e { code := 0x20 + n, sub := irqLevel x n } true r.age (max 12 (r.age + 9))
      (v.setEngine e fun y => { y.setReg 30 r.oldG30 with
        priv := r.oldPriv, ie := r.oldIe, window := 0, entry := none, stores := y.stores.map fun st => (r.stores.find? (·.seq == st.seq)).getD st }))) ∧
  (∀ r, x.entry = some r → 7 < r.age ∨ r.source = none → Runs (.interruptTakeover e) s (· = s)) ∧
  (s.coreLive e = true → x.window ≠ 0 → Runs (.handlerWindowExpiry e) s (Leaves e (s.advance (s.vtOfCycles ((match x.entry with | some r => r.due - r.age | none => 0) + x.window))) fun y => { y with window := 0 })) ∧
  (∀ n, n < 21 → n ≠ 4 → x.st ≠ .off → Runs (.irqSourceEdge e n) s (Leaves e s fun _ => { x with irqPend := putBit x.irqPend n true })) ∧
  (∀ n, n < 21 → n ≠ 4 → x.st = .off → Runs (.irqSourceEdge e n) s (Leaves e s fun _ => x)) ∧
  Runs (.irqSourceEdge e 4) s (· = s) ∧
  (∀ val : W32, Runs (.irqSetWrite e val) s (Leaves e s fun y => { y with irqPend := y.irqPend ||| val.setWidth 21 })) ∧
  (∀ val edges : W32, Runs (.irqPendWrite e val edges) s (Leaves e s fun y => { y with irqPend := (y.irqPend &&& ~~~ val.setWidth 21) ||| (edges &&& ~~~ 0x10).setWidth 21 })) ∧
  (x.st ≠ .off → Runs (.pegboxMailbox e) s (Leaves e s fun _ => { x with irqPend := putBit x.irqPend 3 true })) ∧
  (x.st = .off → Runs (.pegboxMailbox e) s (Leaves e s fun _ => x)) ∧
  (∀ t i, x.starts.find? (checkable e s) = some (.stream t i) → Runs (.startCheckComplete e) s (· = lateCheck e t i s)) ∧
  (∀ ch i, x.starts.find? (checkable e s) = some (.dma ch i) → Runs (.startCheckComplete e) s (· = dmaCheck (dmaKey e.course ch) s)) ∧
  (x.starts.find? (checkable e s) = none → Runs (.startCheckComplete e) s (· = s))

/-- SETVL, SHAPE, SHAPER, VRDS, VWRS, vector arithmetic, loads and stores that issue queue their result in order with VPOS 0
and the flags they set; a reserved shape or operand raises the illegal exception; the completion writes the scalar results.
It rests on the model's choices of logs 28, 29, 40, 124. (R296, R298, R299, R300, R301, R303, R305, R306, R309, R310, R370)
-/
def Obligations.VectorRows : Prop :=
  ∀ (e : Eng) (s u : State) (x : Engine) (sh : Shape), u.engine e = x → shapeOf x.vshape = sh →
  (∀ rd rs n, n = min (x.reg rs).toNat sh.vlmax → Issues e (.setvl rd rs) s u → Runs (.setvl e) s (Completes e [(rd, w32 n)] 0 (u.setEngine e fun y => { y with vl := n }))) ∧
  (∀ imm, Issues e (.shape imm) s u → Runs (.shape e) s (Completes e [] 0 (u.setEngine e fun y => { y with vshape := w32 imm, vl := 0 }))) ∧
  (∀ rs, (x.reg rs).toNat < 64 → Issues e (.shaper rs) s u → Runs (.shaper e) s (Completes e [] 0 (u.setEngine e fun y => { y with vshape := x.reg rs, vl := 0 }))) ∧
  (∀ rs, 64 ≤ (x.reg rs).toNat → x.loads = [] → Issues e (.shaper rs) s u → Runs (.shaper e) s (· = raiseExc e illegalCause u)) ∧
  (∀ rd sel v, v = (if sel = 0 then w32 x.vl else if sel = 1 then x.vshape else w32 x.vpos) → x.vq.length < 4 → Issues e (.vrds rd sel) s u →
    Runs (.vrds e) s (Queues e { flags := 0, writes := if rd == 0 then [] else [(rd, v)] } u id)) ∧
  (∀ rs, x.vq.length < 4 → Issues e (.vwrs rs) s u → Runs (.vwrs e) s (Queues e { flags := 0 } u fun y => { y with vpos := (y.reg rs).toNat })) ∧
  (∀ major vd v1 vs2 vm src func r, r = vaRun sh (fcsrRm x.fcsr) x.reg x.v x.vpos x.vl major vd v1 vs2 vm src func →
    vaIllegal sh major vd v1 vs2 vm src func = false → x.vq.length < 4 → Issues e (.va major vd v1 vs2 vm src func) s u →
    ∀ c, c = (EOp.va major vd v1 vs2 vm src func).cls →
      ∀ i : Instr, ((c = .vectorArith ∧ i = .vectorArith e) ∨ (c = .vectorCompare ∧ i = .vectorCompare e) ∨ (c = .vectorReduction ∧ i = .vectorReduction e) ∨
        (c = .vectorPermute ∧ i = .vectorPermute e) ∨ (c = .vgetVput ∧ i = .vgetVput e)) →
      Runs i s (Queues e { flags := r.flags, writes := r.writes.filter fun w => w.1 != 0 } u fun y => { y with v := r.v })) ∧
  (∀ major vd v1 vs2 vm src func, vaIllegal sh major vd v1 vs2 vm src func = true → x.loads = [] → Issues e (.va major vd v1 vs2 vm src func) s u →
    (EOp.va major vd v1 vs2 vm src func).cls = .vectorArith → Runs (.vectorArith e) s (· = raiseExc e illegalCause u)) ∧
  (∀ r rs, s.alive = true → Eng.ok e = true → (s.engine e).vq = r :: rs → Runs (.vectorComplete e) s (Leaves e s fun _ =>
    Engine.setRegs { s.engine e with vq := rs, fcsr := fcsrOr (s.engine e).fcsr r.flags } r.writes)) ∧
  (∀ st vd rs r2 vm eew w, vecWaits x = false → x.vq.length < 4 →
    vmIllegal sh st vd r2 vm 3 eew = false → wholeCheck x sh st (x.reg rs).toNat = none → Issues e (.vmem st vd rs r2 vm 3 eew) s u →
    w = (List.range (8 * sh.grp)).foldl (fun z k => vecMove e st vd 64 k ((x.reg rs).toNat + 8 * k) z) u → (w.engine e).vq.length < 4 →
    Runs (if st then .vectorStore e else .vectorLoad e) s (Queues e { flags := 0, store := st } w id)) ∧
  (∀ st vd rs r2 vm mode eew els w, vecWaits x = false → x.vq.length < 4 →
    mode ≠ 3 → vmIllegal sh st vd r2 vm mode eew = false → els = (((List.range x.vl).drop x.vpos).filter fun i => vm || vmask x.v 0 i) →
    (∀ i ∈ els, elemCheck x sh st (elemAddr x sh rs r2 mode eew i).toNat = none) → Issues e (.vmem st vd rs r2 vm mode eew) s u →
    w = els.foldl (fun z i => vecMove e st vd sh.sew i (elemAddr x sh rs r2 mode eew i).toNat z) u → (w.engine e).vq.length < 4 →
    Runs (if st then .vectorStore e else .vectorLoad e) s (Queues e { flags := 0, store := st } w id))

/-- A start whose check passes queues a chord and gives its ticket, one whose check fails raises the start exception, SWAIT
gives the status of a finished ticket, SSTAT the selected item, SCANCEL cancels the chords of the current level, and a start
or a cancel in user mode raises the privilege exception. It rests on the model's choices of logs 28, 44, 123, 159, 166.
(R286, R312, R313, R315, R320, R336, R355) -/
def Obligations.StreamRows : Prop :=
  ∀ (e : Eng) (s u : State) (x : Engine), u.engine e = x →
  (∀ rd rs l v, u.ready Rdy.ucode = true → x.storesOut x.storeSeq = false → x.su.count x.exl < 4 → startCheck e (x.reg rs).toNat u.restartMode u = (.ok l, v) → Issues e (.sstart rd rs) s u →
    Runs (.sstart e) s (Completes e [(rd, w32 x.su.next)] 0 (queueChord e { ticket := x.su.next, instr := x.pc, addr := (x.reg rs).toNat, handler := x.exl, after := x.storeSeq, checked := true, restart := v.restartMode, bank := (v.engine e).su.bank, descs := l, staged := v.restartMode && chordInPlace (l.map parseDesc) } v))) ∧
  (∀ rd rs c f v, u.ready Rdy.ucode = true → x.storesOut x.storeSeq = false → x.su.count x.exl < 4 → startCheck e (x.reg rs).toNat u.restartMode u = (.error (c, f), v) → (v.engine e).loads = [] → Issues e (.sstart rd rs) s u →
    Runs (.sstart e) s (· = raiseExc e { code := 0x0C, sub := c, eaddr := some f } v)) ∧
  (∀ rd rs, u.ready Rdy.ucode = false ∨ x.storesOut x.storeSeq = true ∨ 4 ≤ x.su.count x.exl → Issues e (.sstart rd rs) s u → Runs (.sstart e) s (· = s)) ∧
  (∀ rd rs, x.priv ≠ 0 → u.ready Rdy.ucode = true → x.su.count x.exl < 4 → x.starts.length < 4 → Issues e (.sstarta rd rs) s u →
    Runs (.sstarta e) s (Completes e [(rd, w32 x.su.next)] 0 ((queueChord e { ticket := x.su.next, instr := x.pc, addr := (x.reg rs).toNat, handler := x.exl, after := x.storeSeq, checked := false, restart := false, bank := 0 } u).setEngine e
      fun y => { y with starts := y.starts ++ [.stream x.su.next x.pc] }))) ∧
  (∀ rd rs, x.priv ≠ 0 → u.ready Rdy.ucode = false ∨ 4 ≤ x.su.count x.exl ∨ 4 ≤ x.starts.length → Issues e (.sstarta rd rs) s u → Runs (.sstarta e) s (· = s)) ∧
  (∀ rd rs, x.priv = 0 → x.loads = [] → Issues e (.sstarta rd rs) s u → Runs (.sstarta e) s (· = raiseExc e privCause u)) ∧
  (∀ rd rs, (x.su.chords.any (·.ticket == (x.reg rs).toNat % 256)) = false → Issues e (.swait rd rs) s u →
    Runs (.swait e) s (Completes e [(rd, tabGet x.su.doneSt ((x.reg rs).toNat % 256) 0xE0000000)] 0 u)) ∧
  (∀ rd rs, (x.su.chords.any (·.ticket == (x.reg rs).toNat % 256)) = true → Issues e (.swait rd rs) s u → Runs (.swait e) s (· = s)) ∧
  (∀ rd sel, Issues e (.sstat rd sel) s u → Runs (.sstat e) s (Completes e [(rd, sstatItem x sel)] 0 u)) ∧
  (x.priv ≠ 0 → Issues e .scancel s u → Runs (.scancel e) s (Completes e [] 0 ((x.su.chords.filter fun c => c.handler == x.exl).foldl (fun v c => cancelChord e c v) u))) ∧
  (x.priv = 0 → x.loads = [] → Issues e .scancel s u → Runs (.scancel e) s (· = raiseExc e privCause u))

/-- A queued chord starts on the threads, a chord that ends commits its stores or reports its error with its last index, a
stop saves the context of a trapping chord or abandons one to be restarted, and a resume reads the context back where its
check holds. It rests on the model's choices of logs 30, 31, 123. (R313, R314, R332, R341) -/
def Obligations.ChordRows : Prop :=
  ∀ (e : Eng) (s : State) (x : Engine), s.engine e = x →
  (∀ c, s.suLive e = true → nextChord x.su = some c → c.checked = true → c.state = .queued → x.storesOut c.after = false → Runs (.chordStart e) s (· =
    (s.modSu e fun u => { u with
      threads := Vector.ofFn fun (t : Fin 4) => dispatchThread u c t, uaccBy := 0
      stageInUse := if c.staged then putBit u.stageInUse (if c.handler then 1 else 0) true else u.stageInUse }).modChord e c.ticket fun d => { d with state := .running, trap := none })) ∧
  (∀ c code k, s.alive = true → Eng.ok e = true → x.su.active = some c → c.cancel = false → endedBad x.su = some (code, k) → Runs (.chordComplete e) s (· = chordDone e c code k s)) ∧
  (∀ c r v w bad ok z d, s.alive = true → Eng.ok e = true → x.su.active = some c → c.cancel = false → endedBad x.su = none → r = chordRun e c s → v = touchSources e c r s →
    (c.committed = true ∧ bad = none ∧ w = v ∨ c.committed = false ∧ commitTo e c r r.index v = (bad, w)) →
    (c.staged = false ∧ ok = true ∧ z = w ∨ c.staged = true ∧ drainStage e c w = (ok, z)) → (z.engine e).su.chords.find? (·.ticket == c.ticket) = some d →
    (bad = none → ok = true → Runs (.chordComplete e) s (· = chordDone e d (runCode r) (if runCode r = 0 then 0 else r.opx) z)) ∧
    (∀ code, bad = some code → ok = true → Runs (.chordComplete e) s (· = chordDone e d code (c.descs.length - 1) z)) ∧
    (ok = false → Runs (.chordComplete e) s (· = chordDone e d 3 (c.descs.length - 1) z))) ∧
  (∀ c r k v w d y, s.alive = true → Eng.ok e = true → x.su.active = some c → (c.state = .stopping ∧ c.trap ≠ some false ∨ x.st = .halt) → r = chordRun e c s →
    stopIndex c r s = (k, v) → (c.committed = true ∧ w = v ∨ c.committed = false ∧ w = (commitTo e c r k (touchSources e c { r with code := 0 } v)).2) →
    (w.engine e).su.chords.find? (·.ticket == c.ticket) = some d → y = w.modSu e (alignThreads c r d.index) →
    (c.cancel = true → Runs (.chordStop e) s (· = chordDone e (if c.restart then { d with index := 0 } else d) 1 0 y)) ∧
    (c.cancel = false → c.restart = true → Runs (.chordStop e) s (· =
      (((y.modSu e fun u => { (freeStage (c.staged && !c.committed) c.handler u) with restarts := satAdd 16 u.restarts 1 }).modChord e c.ticket fun d =>
        if d.committed then { d with state := .abandoned }
        else { d with state := .abandoned, index := 0, flags := 0, noprior := 0, nopost := 0, bytes := 0, undo := [] }).modSu e fun u => { u with threads := Vector.replicate 4 {} }))) ∧
    (c.cancel = false → c.restart = false → Runs (.chordStop e) s fun t => ∃ z a : State, z = (y.modSu e fun u => { u with traps := satAdd 16 u.traps 1 }) ∧
      (x.st ≠ .halt → a = writeLsp e 0x3FF00 (slotBytes (z.engine e).su d 1) z) ∧
      (x.st = .halt → slotTag e z = 0 → a = writeLsp e 0x3FF00 (slotBytes (z.engine e).su d 2) z) ∧ (x.st = .halt → slotTag e z ≠ 0 → a = z) ∧
      t = ((a.modChord e c.ticket fun d => { d with state := .stopped }).modSu e fun u => { u with threads := Vector.replicate 4 {} }))) ∧
  (∀ c bs b v, s.suLive e = true → x.su.waiting .stopped = some c → memLoad (.lsp e.course e.phys) 0x3FF00 256 s = (bs, v) → b = bs.map (·.getD 0) →
    (allBytes bs = some b → leNat (b.take 1) = 1 → crc32c (b.take 252) = w32 (leNat (b.drop 252)) →
      Runs (.chordResume e) s (· = (((writeLsp e 0x3FF00 [0] v).modSu e fun u => { u with
        threads := Vector.ofFn fun (t : Fin 4) => threadFrom b (t.val < c.descs.length) t, uaccBy := leNat ((b.drop 0xD0).take 1) % 4 }).modChord e c.ticket fun d =>
          { d with state := .running, trap := none, index := leNat ((b.drop 0x0C).take 3) }))) ∧
    (allBytes bs = none ∨ leNat (b.take 1) ≠ 1 ∨ crc32c (b.take 252) ≠ w32 (leNat (b.drop 252)) →
      Runs (.chordResume e) s (· = raiseFault (Src.seqCtxBad e.course) 0 (unitEng e.course e.phys) (chordDone e c 4 0 v)))) ∧
  (∀ c, s.suLive e = true → x.su.waiting .abandoned = some c → c.committed = true → Runs (.chordRestart e) s (· = s.modChord e c.ticket fun d => { d with state := .running, trap := none })) ∧
  (∀ c l v, s.suLive e = true → x.su.waiting .abandoned = some c → c.committed = false → startCheck e c.addr c.restart s = (.ok l, v) →
    Runs (.chordRestart e) s (· = beginChord e { c with descs := l, checked := true, staged := c.restart && chordInPlace (l.map parseDesc) }
      (v.modChord e c.ticket fun d => { d with descs := l, checked := true, staged := d.restart && chordInPlace (l.map parseDesc) }))) ∧
  (∀ c k f v, s.suLive e = true → x.su.waiting .abandoned = some c → c.committed = false → startCheck e c.addr c.restart s = (.error (k, f), v) →
    Runs (.chordRestart e) s (· = startError e c.ticket k c.instr v))

/-- For each of the eleven classes of microword: a word whose condition fails moves to the next word, one whose condition
holds has the effect of its class on its own thread, and a microaddress that is unmapped, or whose word cannot be read, ends
the thread with code 4 and raises its fault source. It rests on the model's choices of logs 30, 31, 38. (R344, R345, R357)
-/
def Obligations.MicrowordRows : Prop :=
  ∀ (e : Eng) (th : Nat) (word : W64) (s : State) (c : Chord) (bs : List Byte) (x : UThread) (m : MWord) (lane at' n : Nat),
  threadOf (s.engine e).su th = x → parseMw word = m → lane = bitsAt m.opnd 28 4 → at' = x.ureg (bitsAt m.opnd 16 4) → n = bitsAt m.opnd 20 8 →
  (∀ i k, (i, k) ∈ [(Instr.mwNop e th (some word), 0), (.mwUalu e th (some word), 1), (.mwLdc e th (some word), 2), (.mwLane e th (some word), 3), (.mwExec e th (some word), 4), (.mwBr e th (some word), 5), (.mwCall e th (some word), 6), (.mwLoop e th (some word), 7), (.mwEnd e th (some word), 8), (.mwStage e th (some word), 9), (.mwCwait e th (some word), 10)] →
    MwReady e th word k s c bs → ¬ MwHolds e th word s c bs → Runs i s (MwTo e th word c bs id id s)) ∧
  (MwReady e th word 0 s c bs → MwHolds e th word s c bs → Runs (.mwNop e th (some word)) s (MwTo e th word c bs id id s)) ∧
  (MwReady e th word 1 s c bs → MwHolds e th word s c bs → Runs (.mwUalu e th (some word)) s (MwTo e th word c bs (fun y => (uAlu m y).2) id s)) ∧
  (MwReady e th word 2 s c bs → MwHolds e th word s c bs → Runs (.mwLdc e th (some word)) s (MwTo e th word c bs (fun y => y.setUreg (bitsAt m.opnd 24 4) (descWord bs (bitsAt m.opnd 2 6))) id s)) ∧
  (lane ∉ [3, 7, 10, 11] → MwReady e th word 3 s c bs → MwHolds e th word s c bs → Runs (.mwLane e th (some word)) s (MwTo e th word c bs id (laneRead e th c (parseDesc bs) lane at' n) s)) ∧
  (lane = 10 ∨ lane ∈ [3, 7, 11] ∧ th + 1 ≠ c.descs.length → MwReady e th word 3 s c bs → MwHolds e th word s c bs → Runs (.mwLane e th (some word)) s (MwTo e th word c bs id id s)) ∧
  (lane ∈ [3, 7, 11] → th + 1 = c.descs.length → MwReady e th word 3 s c bs → MwHolds e th word s c bs → Runs (.mwLane e th (some word)) s (MwTo e th word c bs id (laneWrite e th c lane at' n x) s)) ∧
  (MwReady e th word 4 s c bs → MwHolds e th word s c bs → Runs (.mwExec e th (some word)) s (MwTo e th word c bs id (fun z => z.modSu e fun u =>
    putThread th { (threadOf u th) with execd := if th = 0 then (threadOf u th).execd + bitsAt m.opnd 16 8 else min ((threadOf u th).execd + bitsAt m.opnd 16 8) (threadOf u (th - 1)).execd } u) s)) ∧
  (MwReady e th word 5 s c bs → MwHolds e th word s c bs → Runs (.mwBr e th (some word)) s (MwTo e th word c bs (fun y => { y with upc := m.tgt }) id s)) ∧
  (m.opnd % 2 = 0 → MwReady e th word 6 s c bs → MwHolds e th word s c bs → Runs (.mwCall e th (some word)) s (MwTo e th word c bs (fun y => { y with ret := y.upc, upc := m.tgt }) id s)) ∧
  (m.opnd % 2 = 1 → MwReady e th word 6 s c bs → MwHolds e th word s c bs → Runs (.mwCall e th (some word)) s (MwTo e th word c bs (fun y => { y with upc := y.ret }) id s)) ∧
  (MwReady e th word 7 s c bs → MwHolds e th word s c bs → Runs (.mwLoop e th (some word)) s (MwTo e th word c bs (fun y => if (uLoop m y).1 = 0 then (uLoop m y).2 else { (uLoop m y).2 with upc := m.tgt }) id s)) ∧
  (MwReady e th word 8 s c bs → MwHolds e th word s c bs → Runs (.mwEnd e th (some word)) s (MwTo e th word c bs (fun y => { y with ended := some (bitsAt m.opnd 28 4), active := false }) id s)) ∧
  ((m.opnd % 2 = 0 ∨ th + 1 ≠ c.descs.length ∨ c.staged = false) → MwReady e th word 9 s c bs → MwHolds e th word s c bs → Runs (.mwStage e th (some word)) s (MwTo e th word c bs id id s)) ∧
  (∀ u v w z, m.opnd % 2 = 1 → th + 1 = c.descs.length → c.staged = true → MwReady e th word 9 s c bs → MwHolds e th word s c bs →
    u = (s.modSu e fun su => passCycles th m.cyc (putThread th (mwNext x) su)) →
    (c.committed = true ∧ v = u ∨ c.committed = false ∧ commitTo e c (chordRun e c u) (chordRun e c u).index u = (none, v)) →
    w = (v.modChord e c.ticket fun d => { d with committed := true }) → drainStage e c w = (true, z) →
    Runs (.mwStage e th (some word)) s (· = z.modChord e c.ticket fun d => d.meetWord m.tp)) ∧
  (cwaitOver (s.engine e).su th = true → MwReady e th word 10 s c bs → MwHolds e th word s c bs → Runs (.mwCwait e th (some word)) s (MwTo e th word c bs id id s)) ∧
  (cwaitOver (s.engine e).su th = false → MwReady e th word 10 s c bs → MwHolds e th word s c bs → Runs (.mwCwait e th (some word)) s (· =
    (s.modSu e fun su => passCycles th m.cyc (putThread th { x with cwait := true } su)).modChord e c.ticket fun d => d.meetWord false)) ∧
  (∀ (w : Option W64) i k, (i, k) ∈ [(Instr.mwNop e th w, 0), (.mwUalu e th w, 1), (.mwLdc e th w, 2), (.mwLane e th w, 3), (.mwExec e th w, 4), (.mwBr e th w, 5), (.mwCall e th w, 6), (.mwLoop e th w, 7), (.mwEnd e th w, 8), (.mwStage e th w, 9), (.mwCwait e th w, 10)] →
    activeChord e th s = some (c, bs) → s.suLive e = true → nextThread (s.engine e).su = some th → c.trap ≠ some true →
    wordMapped (bankOf (s.engine e).su c.bank) x.upc = false ∨ w = none →
    Runs i s (· = raiseFault (Src.seqCsErr e.course) 0 (unitEng e.course e.phys) (s.modSu e fun u => putThread th { threadOf u th with active := false, ended := some 4 } u)))

/-- A write-back corrects one codeword, a patrol read counts what it finds, the starvation limit and a spare row copy act on
their units, and an access that hangs is recorded as the default target records it and answered to its master with the error
of that master. It rests on the model's choices of logs 66, 121. (R362, R363, R378, R384, R385, R501) -/
def Obligations.MemoryRows : Prop :=
  ∀ s : State, s.alive = true →
  (∀ inst cw k, k = MemInst.key inst → (s.ecc k).back.contains cw = true → Runs (.eccWriteBack inst cw) s fun t =>
    t.ecc k = { s.ecc k with bad := tabDel (s.ecc k).bad cw, back := (s.ecc k).back.filter (· != cw), injected := setDel (s.ecc k).injected cw, last := (s.ecc k).last.map fun p => if p.1 = cw then (p.1, p.2.1, true) else p } ∧
    (∀ j, j ≠ k → t.ecc j = s.ecc j) ∧ t = { s with fab := t.fab }) ∧
  (∀ inst cw k, k = MemInst.key inst → cw < instCws k s → (s.ecc k).bad.isEmpty = true → (s.ecc k).armed = none → Runs (.patrolScrubRead inst cw) s (· = s)) ∧
  (∀ inst cw k c pat inj v stored, k = MemInst.key inst → cw < instCws k s → ((s.ecc k).bad.isEmpty && (s.ecc k).armed.isNone) = false →
    c = ({ key := k, idx := cw, start := cw * instK k, k := instK k } : Cw) → eccMeet c true s = (pat, inj, v) →
    stored = ((tabFind (s.ecc k).bad cw).isSome && !(match (s.ecc k).armed with | some (1, _) => true | _ => false)) → Runs (.patrolScrubRead inst cw) s fun t =>
      (eccDecode c.k pat = .clean → t = v) ∧ (∀ j b, eccDecode c.k pat = .corrected j b → t = asInjected inj (eccCe c j stored) v) ∧
      (eccDecode c.k pat = .uncorrectable → t = asInjected inj (eccUe c) v)) ∧
  (∀ e, Eng.ok e = true → tabGet s.fab.starve e.course 0x1000 ≠ 0 → Runs (.lspStarveLimit e) s (· = raiseFault (Src.lspStarve e.course) 0 (unitEng e.course e.phys) s)) ∧
  (∀ row, rowInRange row = true → Runs (.spareRowCopy row) s (· = { s with health := { s.health with
    seqs := s.health.seqs.map fun q => if copySeq row q then { q with copied := q.copied ||| copyBit row } else q } })) ∧
  (∀ ch, Runs (.dramRefresh ch) s (· = s)) ∧
  (∀ m addr write, (match target40 addr with | .bar0 _ => true | _ => false) = true → hangs m addr write s = true → Runs (.fabricTimeout m addr write) s fun t => ∃ w v : State,
    w = { s with fab := w.fab } ∧ v = raiseFault Src.fabTimeout 0 unitNone w ∧
    (s.fab.errValid = true → w.fab = { s.fab with errCount := satAdd 16 s.fab.errCount 1 }) ∧
    (s.fab.errValid = false → w.fab = { s.fab with errValid := true, errTimeout := true, errWrite := write, errMaster := fabMaster m, errAddr := addr % 2 ^ 40 }) ∧
    (m = .pegbox → t = v) ∧ (∀ k, m = .link k → t = v.emit (.brlAccessRsp k none)) ∧
    ((m = .pf ∨ ∃ f, m = .vf f) → write = true → t = tlpError .completerAbort v) ∧
    ((m = .pf ∨ ∃ f, m = .vf f) → write = false → t = (tlpError .completerAbort v).emit (.readCompletion none false)) ∧
    (∀ n p a, m = .engine n p → write = false → hangsLoad ⟨n, p⟩ addr v = some a → t = failLoad ⟨n, p⟩ (w32 a) v) ∧
    (∀ n p i st, m = .engine n p → write = true → hangsStore ⟨n, p⟩ addr v = some i → storeReady ⟨n, p⟩ (v.engine ⟨n, p⟩) i = some st → isGo ⟨n, p⟩ st.addr st.bytes v = none →
      t = pushAsync ⟨n, p⟩ (.buserr (w32 st.addr)) (v.setEngine ⟨n, p⟩ fun x => { x with stores := x.stores.eraseIdx i })) ∧
    (∀ n ch, m = .courseDma n → hangsDma n addr write v = some ch → t = dmaErrorAt (dmaKey n ch) write v)) ∧
  (∀ m addr write w o, target40 addr = .remote w o → (tabFind s.brl.wins w).isSome = true → hangs m addr write s = true → Runs (.remoteAccessTimeout m addr write) s fun t =>
    ∃ v : State, v = raiseFault Src.brlTimeout (w64 (remoteLink addr s)) unitNone { s with brl := { s.brl with timeouts := s.brl.timeouts + 1 } } ∧
    (m = .pegbox → t = v) ∧ (∀ k, m = .link k → t = v.emit (.brlAccessRsp k none)) ∧
    ((m = .pf ∨ ∃ f, m = .vf f) → write = true → t = tlpError .completerAbort v) ∧
    ((m = .pf ∨ ∃ f, m = .vf f) → write = false → t = (tlpError .completerAbort v).emit (.readCompletion none false)) ∧
    (∀ n p a, m = .engine n p → write = false → hangsLoad ⟨n, p⟩ addr v = some a → t = failLoad ⟨n, p⟩ (w32 a) v) ∧
    (∀ n p i st, m = .engine n p → write = true → hangsStore ⟨n, p⟩ addr v = some i → storeReady ⟨n, p⟩ (v.engine ⟨n, p⟩) i = some st → isGo ⟨n, p⟩ st.addr st.bytes v = none →
      t = pushAsync ⟨n, p⟩ (.buserr (w32 st.addr)) (v.setEngine ⟨n, p⟩ fun x => { x with stores := x.stores.eraseIdx i })) ∧
    (∀ n ch, m = .courseDma n → hangsDma n addr write v = some ch → t = dmaErrorAt (dmaKey n ch) write v)) ∧
  (∀ val : W32, val.getLsbD 31 = true → Runs (.fabErrValidWrite val) s (· = { s with fab := { s.fab with errValid := false, errTimeout := false, errWrite := false, errMaster := 0, errCount := 0, errAddr := 0 } })) ∧
  (∀ val : W32, val.getLsbD 31 = false → Runs (.fabErrValidWrite val) s (· = s))

/-- A go of the PF or the pegbox starts a channel that does not run and is refused by one that does, an engine's go is its
store being acknowledged, a descriptor is fetched and checked at its address, a finished one chains or ends the channel, a
stop is taken between elements, and an error response ends the channel with its code and position. It rests on the model's
choices of logs 7, 65, 118. (R391, R392, R393, R394, R397) -/
def Obligations.DmaRows : Prop :=
  ∀ (course ch k : Nat) (s : State), s.alive = true → course < 16 → ch < 16 → k = dmaKey course ch →
  (∀ m, m = .pf ∨ m = .pegbox → dmaRunning (s.dmaCh k) = false → Runs (.dmaCmdGo m course ch) s fun t =>
    t.dmaCh k = { s.dmaCh k with code := 1, cause := 0, cur := (s.dmaCh k).next &&& 0xFFFFFFFFFF, desc := none, stopReq := false, starter := none, i0 := 0, i1 := 0, i2 := 0 } ∧
    (∀ j, j ≠ k → t.dmaCh j = s.dmaCh j) ∧ t = { s with dma := t.dma }) ∧
  (∀ m, m = .pf ∨ m = .pegbox → dmaRunning (s.dmaCh k) = true → Runs (.dmaCmdGo m course ch) s fun t =>
    t.dmaCh k = { s.dmaCh k with refused := true } ∧ (∀ j, j ≠ k → t.dmaCh j = s.dmaCh j) ∧ t = { s with dma := t.dma }) ∧
  (∀ p i, Eng.ok ⟨course, p⟩ = true → goStore ⟨course, p⟩ course ch s = some i → Runs (.dmaCmdGo (.engine course p) course ch) s fun t =>
    exec (.storeAck ⟨course, p⟩ i) s = .next t) ∧
  (∀ p, goStore ⟨course, p⟩ course ch s = none → Runs (.dmaCmdGo (.engine course p) course ch) s (· = s)) ∧
  (∀ m, dmaMaster m course = false → Runs (.dmaCmdGo m course ch) s (· = s) ∧ Runs (.dmaCmdStop m course ch) s (· = s)) ∧
  (∀ m, dmaMaster m course = true → dmaRunning (s.dmaCh k) = true → Runs (.dmaCmdStop m course ch) s fun t =>
    t.dmaCh k = { s.dmaCh k with stopReq := true } ∧ (∀ j, j ≠ k → t.dmaCh j = s.dmaCh j) ∧ t = { s with dma := t.dma }) ∧
  (∀ m, dmaMaster m course = true → dmaRunning (s.dmaCh k) = false → Runs (.dmaCmdStop m course ch) s (· = s)) ∧
  (∀ m a bs b v, dmaRunning (s.dmaCh k) = true → (s.dmaCh k).desc = none → dmaAddrOk s (k / 16) (s.dmaCh k).cur = true → s.memAt (k / 16) (target40 (s.dmaCh k).cur.toNat) 64 = some (m, a) →
    memLoad m a 64 s = (bs, v) → allBytes bs = some b → Runs (.dmaDescriptorCheck course ch) s fun t => ∃ w : State,
      w = (v.setDma k fun c => { c with desc := some b, tag := (parseDma b).tag, i0 := 0, i1 := 0, i2 := 0 }) ∧
      (dmaCause w (k / 16) b = none → t = dmaReport k false w) ∧ (∀ x, dmaCause w (k / 16) b = some x → t = dmaReport k true (dmaFail k 4 x w))) ∧
  (∀ m a bs v, dmaRunning (s.dmaCh k) = true → (s.dmaCh k).desc = none → dmaAddrOk s (k / 16) (s.dmaCh k).cur = true → s.memAt (k / 16) (target40 (s.dmaCh k).cur.toNat) 64 = some (m, a) →
    memLoad m a 64 s = (bs, v) → allBytes bs = none → Runs (.dmaDescriptorCheck course ch) s (· = dmaReport k true (dmaFail k 6 0 v))) ∧
  (dmaRunning (s.dmaCh k) = true → (s.dmaCh k).desc = none → dmaAddrOk s (k / 16) (s.dmaCh k).cur = false → Runs (.dmaDescriptorCheck course ch) s (· = dmaReport k true (dmaFail k 4 1 s))) ∧
  (∀ b d v, dmaRunning (s.dmaCh k) = true → (s.dmaCh k).desc = some b → d = parseDma b → moveFlush (k / 16) d d.total s = (.done, v) → Runs (.dmaDescriptorComplete course ch) s fun t =>
    (t.dmaCh k).done = (v.dmaCh k).done + 1 ∧ (t.dmaCh k).desc = none ∧ (t.dmaCh k).stopReq = false ∧
    (t.dmaCh k).code = (if (v.dmaCh k).stopReq then 3 else if d.chain then (v.dmaCh k).code else 2) ∧
    ((v.dmaCh k).stopReq = false → d.chain = true → (t.dmaCh k).cur = d.next &&& 0xFFFFFFFFFF)) ∧
  (∀ b d code i v, dmaRunning (s.dmaCh k) = true → (s.dmaCh k).desc = some b → d = parseDma b → moveFlush (k / 16) d d.total s = (.fail code i, v) →
    Runs (.dmaDescriptorComplete course ch) s (· = dmaFail k code 0 (setPos k d i v))) ∧
  (dmaRunning (s.dmaCh k) = true → (s.dmaCh k).stopReq = true → (s.dmaCh k).desc = none →
    Runs (.dmaStopTaken course ch) s (· = dmaReport k false (s.setDma k fun c => { c with code := 3, stopReq := false }))) ∧
  (∀ b d x n v w, dmaRunning (s.dmaCh k) = true → (s.dmaCh k).stopReq = true → (s.dmaCh k).desc = some b → d = parseDma b → s.draw = (x, v) → n = x.toNat % (d.total + 1) → n ≠ d.total →
    moveFlush (k / 16) d n v = (.done, w) → Runs (.dmaStopTaken course ch) s fun t => (t.dmaCh k).code = 3 ∧ (t.dmaCh k).desc = none ∧ (t.dmaCh k).stopReq = false ∧
      (t.dmaCh k).i0 = n % d.n0 ∧ (∀ j, j ≠ k → t.dmaCh j = w.dmaCh j) ∧ t = { w with dma := t.dma }) ∧
  (∀ b d x n v w, dmaRunning (s.dmaCh k) = true → (s.dmaCh k).desc = some b → d = parseDma b → s.draw = (x, v) → n = x.toNat % d.total →
    moveFlush (k / 16) d n v = (.done, w) → Runs (.dmaErrorResponse course ch false) s (· = dmaFail k 5 0 (setPos k d n w))) ∧
  (∀ b d x n v h w y z q r, dmaRunning (s.dmaCh k) = true → (s.dmaCh k).desc = some b → d = parseDma b → s.draw = (x, v) → n = x.toNat % d.total →
    moveElems (k / 16) d (n + 1) (n + 1) 0 {} v = (.done, h, w) → w.draw = (y, z) →
    flushHold (k / 16) { h with bytes := h.bytes.take (y.toNat % (h.bytes.length + 1) / d.dw * d.dw) } z = (q, r) →
    Runs (.dmaErrorResponse course ch true) s (· = dmaFail k 5 0 (setPos k d h.first r)))

/-- SEN_SWPULSE asserts the software producers, a delivery takes every event that is due in channel order, reads clear the
counts they clear, a TIO ball is driven to its level at its cycle unless the safe state holds it, and the storm window
counts each channel. It rests on the model's choices of logs 5, 53. (R401, R403, R404, R414, R422, R517) -/
def Obligations.SenRows : Prop :=
  ∀ s : State, s.alive = true →
  (∀ val : W32, s.ready Rdy.senTmr = true → Runs (.senSwpulseWrite val) s fun t =>
    t = ([0, 1, 2, 3] : List Nat).foldl (fun v i => if val.getLsbD i then { v with sen := v.sen.assert (508 + i) s.senCycle } else v) s) ∧
  (s.sen.firstDue = none → Runs .senEventDelivery s (· = s)) ∧
  (∀ d, s.sen.firstDue = some d → Runs .senEventDelivery s fun t => ∃ v : State, v.sen.inflight = s.sen.inflight.filter (fun e => e.due != d) ∧ 20 * d ≤ v.time.mono ∧
    v.time.mono = max s.time.mono (20 * d) ∧ t = (List.range 112).foldl (fun w ch => deliverChannel ch ((s.sen.inflight.filter fun e => e.due == d).filter fun e => e.ch == ch) w) v) ∧
  (∀ e j w, e.course < 16 → e.phys < 13 → j < 8 → w = tabGet s.sen.sensel (senselKey e j) 0 → Runs (.veSenselRead e j) s (· =
    { s with sen := { s.sen with sensel := tabSet s.sen.sensel (senselKey e j) (w &&& 0x00FF00FF) }, out := .regValue w :: s.out })) ∧
  (∀ k : Nat, k < 48 → s.ready Rdy.senTmr = true → Runs (.tioCfgRead k) s (· =
    { s with sen := { s.sen with tio := tabSet s.sen.tio k (s.sen.tioCfg k &&& 0x00FFFFFF) }, out := .regValue (s.sen.tioCfg k) :: s.out })) ∧
  (∀ p, p < 48 → (s.sen.ballDue.find? fun b => b.1 == p) = none → Runs (.tioBallDrive p) s (· = s)) ∧
  (∀ p q due lvl, p < 48 → (s.sen.ballDue.find? fun b => b.1 == p) = some (q, due, lvl) → Runs (.tioBallDrive p) s fun t =>
    t.sen.ballDue = s.sen.ballDue.erase (p, due, lvl) ∧ 20 * due ≤ t.time.mono ∧
    (tioFunc (s.sen.tioCfg p) = 1 → s.pins.safeHeld = false → t.pins = { s.pins with tioOut := putBit s.pins.tioOut p lvl }) ∧
    ((tioFunc (s.sen.tioCfg p) ≠ 1 ∨ s.pins.safeHeld = true) → t.pins = s.pins)) ∧
  (Runs .stormWindowEnd s fun t => ∃ v : State, v.sen.storm = [] ∧ v.time.mono = (s.time.mono / 163840 + 1) * 163840 ∧
    t = (List.range 64).foldl (fun w ch => setCause (Src.senStorm ch) (w.fcu.stormLimit != 0 && w.fcu.stormLimit < tabGet s.sen.storm ch 0) 0 w) v)

/-- A tick counts a running free timer once its prescale has passed, a carry counts a linked one, a compare that is armed
and passed matches once, a compare or a count is written whole with its high half after any match that is due of the old
value, reads clear what they clear, a capture lands its value with its stamp, and GSTART starts or stops the armed timers.
It rests on the model's choices of logs 5, 53, 161. (R410, R411, R412, R413, R416, R417, R420) -/
def Obligations.TimerRows : Prop :=
  ∀ (i : Nat) (s : State) (x : Timer), s.alive = true → i < 160 → s.timer i = x →
  (x.mode = 0 → s.counts i = true → Runs (.timerTick i) s fun t => ∃ v w : State, v.time.mono = max s.time.mono (20 * (x.lastTick + x.pre + 1)) ∧ v.timer i = x ∧
    w = matchUpTo i 3 v ∧ ((w.timer i).cnt + 1 ≠ 0 → (t.timer i).cnt = (w.timer i).cnt + 1 ∧ (t.timer i).lastTick = t.senCycle ∧ (∀ j, j ≠ i → t.timer j = w.timer j) ∧ t = { w with sen := t.sen })) ∧
  (x.mode = 0 → s.counts i = false → Runs (.timerTick i) s (· = s)) ∧
  ((x.mode = 1 ∨ x.mode = 3) → Runs (.timerTick i) s (· = s)) ∧
  (∀ d, x.mode = 2 → s.sen.firstDue = some d → (s.sen.inflight.any fun e => e.due == d && e.consumers.contains (.count i)) = true → Runs (.timerTick i) s (· = deliverNext s)) ∧
  (x.carry = false → Runs (.linkedCarryArrive i) s (· = s)) ∧
  (x.carry = true → Runs (.linkedCarryArrive i) s fun t => ∃ v : State, v.time.mono = max s.time.mono (20 * x.carryDue) ∧ v.timer i = { x with carry := false } ∧ (∀ j, j ≠ i → v.timer j = s.timer j) ∧
    (v.counts i = true → x.mode = 1 → t = countOne i v) ∧ ((v.counts i = false ∨ x.mode ≠ 1) → t = v)) ∧
  (x.arm.getLsbD 0 = true → passed x.cnt x.cmp[0]! = true → Runs (.timerCompareMatch i 0) s (· = matchOne i 0 s)) ∧
  (∀ c, c < 4 → (∀ k, k ≤ c → x.arm.getLsbD k = false) → Runs (.timerCompareMatch i c) s (· = s)) ∧
  (∀ c, c < 4 → Runs (.timerCompareMatch i c) s fun t => t = (List.range (c + 1)).foldl (fun v k =>
    if (v.timer i).arm.getLsbD k && passed (v.timer i).cnt (v.timer i).cmp[k]! then matchOne i k v else v) s) ∧
  (∀ c (val : W32), c < 4 → s.ready Rdy.senTmr = true → Runs (.tmrCmpWrite i c false val) s (· = { s with fab := { s.fab with heldLo := tabSet s.fab.heldLo (timerBase i + 0x20 + 8 * c) val } })) ∧
  (∀ c (val : W32) key v, c < 4 → key = timerBase i + 0x20 + 8 * c → v = mk64 (tabGet s.fab.heldLo key (lo32 x.cmp[c]!)) val → s.ready Rdy.senTmr = true →
    (x.arm.getLsbD c && passed x.cnt x.cmp[c]!) = false → Runs (.tmrCmpWrite i c true val) s fun t =>
    t.timer i = { x with cmp := x.cmp.set! c v, arm := putBit x.arm c true } ∧ tabFind t.fab.heldLo key = none ∧ (∀ j, j ≠ i → t.timer j = s.timer j) ∧ t = { s with sen := t.sen, fab := t.fab }) ∧
  (∀ c (val : W32) key v, c < 4 → key = timerBase i + 0x20 + 8 * c → v = mk64 (tabGet s.fab.heldLo key (lo32 x.cmp[c]!)) val → s.ready Rdy.senTmr = true →
    (x.arm.getLsbD c && passed x.cnt x.cmp[c]!) = true → Runs (.tmrCmpWrite i c true val) s fun t => ∃ w : State,
      w = matchOne i c { s with fab := { s.fab with heldLo := tabDel s.fab.heldLo key } } ∧
      t.timer i = { w.timer i with cmp := (w.timer i).cmp.set! c v, arm := putBit (w.timer i).arm c true } ∧
      (∀ j, j ≠ i → t.timer j = w.timer j) ∧ t = { w with sen := t.sen }) ∧
  (∀ val : W32, s.ready Rdy.senTmr = true → Runs (.tmrCntWrite i false val) s (· = { s with fab := { s.fab with heldLo := tabSet s.fab.heldLo (timerBase i + 0x18) val } })) ∧
  (∀ (val : W32) v, v = mk64 (tabGet s.fab.heldLo (timerBase i + 0x18) (lo32 x.cnt)) val → s.ready Rdy.senTmr = true → Runs (.tmrCntWrite i true val) s fun t => ∃ u : State,
      u = { s with fab := { s.fab with heldLo := tabDel s.fab.heldLo (timerBase i + 0x18) } } ∧ (x.run = true → t = u) ∧
      (x.run = false → (t.timer i) = { (matchUpTo i 3 u).timer i with cnt := v } ∧ (∀ j, j ≠ i → t.timer j = (matchUpTo i 3 u).timer j) ∧
        t = { matchUpTo i 3 u with sen := t.sen })) ∧
  (s.ready Rdy.senTmr = true → Runs (.tmrEvctlRead i) s fun t => t.out = .regValue x.evctl :: s.out ∧ t.timer i = { x with coinc := 0 } ∧ (∀ j, j ≠ i → t.timer j = s.timer j) ∧
    t = { s with sen := t.sen, out := t.out }) ∧
  (s.ready Rdy.senTmr = true → Runs (.tmrCapselRead i) s fun t => t.out = .regValue x.capsel :: s.out ∧ t.timer i = { x with capsel := x.capsel &&& 0x00FF00FF } ∧ (∀ j, j ≠ i → t.timer j = s.timer j) ∧
    t = { s with sen := t.sen, out := t.out }) ∧
  (∀ k, k < 2 → s.ready Rdy.senTmr = true → Runs (.tmrCapLoRead i k) s fun t => t.out = .regValue (lo32 x.cap[k]!) :: s.out ∧
    t.timer i = { x with capLatch := x.capLatch.set! k (hi32 x.cap[k]!), fresh := putBit x.fresh k false, landFrom := x.landFrom.set! k (s.senCycle + 1) } ∧
    (∀ j, j ≠ i → t.timer j = s.timer j) ∧ t = { s with sen := t.sen, out := t.out }) ∧
  (∀ k, k < 2 → (if k = 0 then x.wait0 else x.wait1) = [] → Runs (.captureLand i k) s (· = s)) ∧
  (∀ k w rest, k < 2 → (if k = 0 then x.wait0 else x.wait1) = w :: rest → Runs (.captureLand i k) s fun t => ∃ v : State, v.time.mono = max s.time.mono (20 * x.landFrom[k]!) ∧ (v.timer i).cap = x.cap.set! k w.value ∧
    (v.timer i).landFrom = x.landFrom.set! k (v.senCycle + 1) ∧
    (v.timer i).fresh = putBit x.fresh k true ∧ (v.timer i).ovr = (if x.fresh.getLsbD k then putBit x.ovr k true else x.ovr) ∧ (if k = 0 then (v.timer i).wait0 else (v.timer i).wait1) = rest ∧
    (∀ j, j ≠ i → v.timer j = s.timer j) ∧
    t = postBound 5 (· == 0x8000 + 4 * i + k) none w.stamp w.ql (if x.cmpctl.getLsbD (16 + k) then eventLine i v else v)) ∧
  (∀ on, s.ready Rdy.senTmr = true → Runs (if on then .tmrGstartGo else .tmrGstartStop) s (· = (List.range 160).foldl (fun v j =>
    if (tabGet v.sen.garm (j / 32) (0 : W32)).getLsbD (j % 32) && v.timerPowered j then setRun j on v else v) s))

/-- A frame start opens the frame of its virtual channel, a line start stamps the line, a long packet is offered as one
record with the class and stamps of its frame, an ECC or CRC error is counted and raises its source, a frame end posts its
event, and ULPS moves the link state. It rests on the model's choices of logs 103, 106. (R424, R436, R437, R447) -/
def Obligations.CameraRows : Prop :=
  ∀ (p vc : Nat) (s : State), s.alive = true → p < 8 →
  (∀ frame, csiOn p vc s = true → Runs (.csi2FrameStart p vc frame) s fun t => ∃ f, t.csiFrame p vc = some f ∧ f.frame = frame ∧ f.lines = 0 ∧ f.ls = none ∧ f.fsVt = s.now ∧ f.fsQl = s.quality ∧
    (f.nobase = true → f.base = s.now ∧ f.baseQl = s.quality) ∧ (16 ≤ entryByte f.entry 0 → f.nobase = true) ∧ (∀ j, j ≠ 16 * p + vc → tabFind t.ports.frames j = tabFind s.ports.frames j)) ∧
  (∀ f, s.csiFrame p vc = some f → Runs (.csi2LineStart p vc) s (· = { s with ports := { s.ports with frames := tabSet s.ports.frames (16 * p + vc) { f with ls := some (s.now, s.quality) } } })) ∧
  (s.csiFrame p vc = none → Runs (.csi2LineStart p vc) s (· = s)) ∧
  (∀ dt crc data, vc < 16 → ((s.csi p).byte 0 == 1 || (s.csiFrame p vc).isSome) = true → Runs (.csi2LongPacket p vc dt .bad crc data) s (· =
    raiseFault Src.csiErr (w64 p) unitNone (s.setSport 0 p fun x => x.tick 5))) ∧
  (∀ dt crc data, vc < 16 → (s.csi p).byte 0 = 1 → s.csiFrame p vc = none → Runs (.csi2LongPacket p vc dt .ok crc data) s (· = s)) ∧
  (∀ dt crc data ecc v f, vc < 16 → (ecc = .ok ∧ v = s ∨ ecc = .corrected ∧ v = s.setSport 0 p (fun x => x.tick 4)) → s.csiFrame p vc = some f → Runs (.csi2LongPacket p vc dt ecc crc data) s fun t =>
    ∃ w : State, w = { v with ports := { v.ports with frames := tabSet s.ports.frames (16 * p + vc) { f with lines := f.lines + 1, ls := none } } } ∧
    (csiSupported dt = false → t = w.setSport 0 p fun x => x.tick 7) ∧
    (csiSupported dt = true → crc = true → t = offer 0 p data.length (lineRecord p vc f (dt == 0x12) true data) (w.setSport 0 p fun x => x.tick (if dt = 0x12 then 3 else 2))) ∧
    (csiSupported dt = true → crc = false → t = offer 0 p data.length (lineRecord p vc f (dt == 0x12) false data)
      (raiseFault Src.csiErr (w64 p) unitNone ((w.setSport 0 p fun x => x.tick (if dt = 0x12 then 3 else 2)).setSport 0 p fun x => x.tick 6)))) ∧
  ((csiOn p vc s || (s.csiFrame p vc).isSome) = true → Runs (.csi2FrameEnd p vc) s fun t => t.csiFrame p vc = none ∧
    ∃ v, v = postBound 4 (· == 0x1000 + 256 * p + vc) none s.now s.quality s ∧ t = { v with ports := { v.ports with frames := tabDel v.ports.frames (16 * p + vc) } }) ∧
  (Runs (.csi2UlpsExit p) s fun t => t.sport 0 p = { (s.sport 0 p) with linkUp := true } ∧ (∀ ty j, 8 * ty + j ≠ p → t.sport ty j = s.sport ty j) ∧ t = { s with ports := t.ports }) ∧
  (Runs (.csi2UlpsEntry p) s fun t => t.sport 0 p = { (s.sport 0 p) with linkUp := false } ∧ (∀ ty j, 8 * ty + j ≠ p → t.sport ty j = s.sport ty j) ∧ t = { s with ports := t.ports })

/-- A received frame is counted where it is bad, long, short, a pause or a peer-delay frame, else taken by the first rule
that matches and offered as one record with its stamp or passed over by a rule that drops; a lost block lock raises its
source once. It rests on the model's choices of logs 103, 107. (R440, R442, R447, R449) -/
def Obligations.EthernetRows : Prop :=
  ∀ (p : Nat) (s : State), s.alive = true → p < 8 →
  (∀ ok data x stamp, s.time.counting = true → s.eth p = x → x.byte 0 = 1 → stamp = s.now - i64 (s.tune (0x140 + p)) → Runs (.ethernetFrameReceive p ok data) s fun t =>
    (ok = false → t = s.setSport 1 p fun y => y.tick 4) ∧
    (ok = true → x.word 4 2 < data.length + 4 → t = s.setSport 1 p fun y => y.tick 8) ∧
    (ok = true → data.length + 4 ≤ x.word 4 2 → data.length + 4 < 64 → t = s) ∧
    (ok = true → data.length + 4 ≤ x.word 4 2 → 64 ≤ data.length + 4 → ∃ v, v = (s.setSport 1 p fun y => y.tick 1) ∧
      (etherType data = 0x8808 → t = v.setSport 1 p fun y => y.tick 5) ∧
      (etherType data = 0x88F7 → beNat (data.take 6) = 0x0180C200000E → t = v.setSport 1 p fun y => y.tick 7) ∧
      (etherType data ≠ 0x8808 → (etherType data = 0x88F7 → beNat (data.take 6) ≠ 0x0180C200000E) →
        ((∀ i, i < x.rules.length → ruleTakes data ((x.rules[i]?).getD []) = false) → t = v.setSport 1 p fun y => y.tick 6) ∧
        (∀ i r, (List.range x.rules.length).find? (fun i => ruleTakes data ((x.rules[i]?).getD [])) = some i → r = (x.rules[i]?).getD [] →
          (entryByte r 0x16 % 2 = 1 → t = v.setSport 1 p fun y => y.tick 3) ∧
          (entryByte r 0x16 % 2 = 0 → ∃ w, w = postBound 4 (· == 0x2000 + 256 * p + i) none stamp s.quality (assertProducer (488 + p) (v.setSport 1 p fun y => y.tick 2)) ∧
            t = offer 1 p ((w.eth p).word 4 2) { stream := streamId 1 p (entryByte r 0x14), vt := stamp, stamp := stamp, ql := w.quality, seq := 0, cls := entryByte r 0x15, info := qualCode w.quality, aux32 := w32 i, aux64 := w64 (sensorTime data r), payload := data.drop (entryWord r 0x18 2) } w))))) ∧
  ((s.eth p).linkUp = true → (s.eth p).byte 0 = 1 → Runs (.ethBlockLockLoss p) s (· = raiseFault Src.ethLink (w64 p) unitNone ((s.setSport 1 p fun y => { y with linkUp := false }).setSport 1 p fun y => y.tick 9))) ∧
  (((s.eth p).linkUp = false ∨ (s.eth p).byte 0 ≠ 1) → Runs (.ethBlockLockLoss p) s (· = s.setSport 1 p fun y => { y with linkUp := false })) ∧
  (Runs (.ethBlockLockGain p) s fun t => t.sport 1 p = { (s.sport 1 p) with linkUp := true } ∧ (∀ ty j, 8 * ty + j ≠ 8 + p → t.sport ty j = s.sport ty j) ∧ t = { s with ports := t.ports })

/-- A CAN frame is taken by the first filter that matches and offered as one record, bus-off opens its source and recovers,
an edge of DRDY is stamped on every port, starts a transaction where it is the source, and counts as a miss where it follows
too closely, and a transaction that ends is offered as one record with its stamp and overlap count. It rests on the model's
choices of logs 108, 109. (R443, R444, R445, R446) -/
def Obligations.CanSpiRows : Prop :=
  ∀ (p : Nat) (s : State), s.alive = true → p < 4 →
  (∀ (fr : CanFrame) x stamp, s.time.counting = true → s.can p = x → x.cfg.isEmpty = false → x.busOff = false → stamp = s.stamp (54 + p) → Runs (.canFrameReceive p fr) s fun t => ∃ v, v = (s.setSport 2 p fun y => y.tick 1) ∧
    (fr.remote = true → t = v.setSport 2 p fun y => y.tick 6) ∧
    (fr.remote = false → (∀ f, f < x.byte 11 → filterTakes x fr f = false) → t = (assertProducer (496 + p) v).setSport 2 p fun y => y.tick 3) ∧
    (∀ f, fr.remote = false → (List.range (x.byte 11)).find? (filterTakes x fr) = some f → ∃ w, w = postBound 4 (· == 0x3000 + 256 * p + f) none stamp s.quality ((assertProducer (496 + p) v).setSport 2 p fun y => y.tick 2) ∧
      t = offer 2 p 64 { stream := streamId 2 p f, vt := stamp, stamp := stamp, ql := w.quality, seq := 0, cls := x.byte (12 + 16 * f + 9), info := qualCode w.quality, aux32 := w32 (2 ^ 31 * bit fr.ide + 2 ^ 30 * bit fr.fdf + 2 ^ 29 * bit fr.brs + fr.id.toNat), aux64 := 0, payload := fr.data.take 64 } w)) ∧
  ((s.can p).byte 10 = 1 → (s.can p).busOff = false → Runs (.canBusOff p) s (· = raiseFault Src.canErr (w64 p) unitNone (s.setSport 2 p fun y => { (y.tick 5) with busOff := true }))) ∧
  ((s.can p).busOff = true → Runs (.canBusOffRecovery p) s fun t => t.sport 2 p = { (s.sport 2 p) with busOff := false } ∧ (∀ ty j, 8 * ty + j ≠ 16 + p → t.sport ty j = s.sport ty j) ∧ t = { s with ports := t.ports }) ∧
  (s.time.counting = true → (s.sport 3 p).byte 0x13 = 1 → (s.sport 3 p).byte 0x11 = 0 → s.edgeStamped (50 + p) = true → Runs (.spiDrdyEvent p) s (· = dataReady p (s.stamp (50 + p)) s.quality (markEdge (50 + p) s))) ∧
  (s.time.counting = true → ((s.sport 3 p).byte 0x13 ≠ 1 ∨ (s.sport 3 p).byte 0x11 ≠ 0) → s.edgeStamped (50 + p) = true → Runs (.spiDrdyEvent p) s (· =
    { s with sen := { s.sen with lastEdge := tabSet s.sen.lastEdge (50 + p) s.time.mono } })) ∧
  (s.time.counting = true → s.edgeStamped (50 + p) = false → Runs (.spiDrdyEvent p) s (· =
    { s with sen := { s.sen with edgeMiss := tabMod s.sen.edgeMiss (50 + p) 0 (· + 1) } })) ∧
  (∀ data stamp ql x, s.sport 3 p = x → data.length = x.spiLen → x.spiRun = some (stamp, ql) → Runs (.spiTransactionComplete p data) s fun t => ∃ v : State,
    v.sport 3 p = { (x.tick 1) with spiRun := none, overlaps := 0, lastOverlap := 0 } ∧ (∀ ty j, 8 * ty + j ≠ 24 + p → v.sport ty j = s.sport ty j) ∧ v = { s with ports := v.ports } ∧
    t = offer 3 p x.spiLen { stream := streamId 3 p 0, vt := stamp, stamp := stamp, ql := ql, seq := 0, cls := 4, info := qualCode ql, aux32 := w32 x.overlaps, aux64 := x.lastOverlap, payload := data } v) ∧
  (∀ data, data.length = (s.sport 3 p).spiLen → (s.sport 3 p).spiRun = none → Runs (.spiTransactionComplete p data) s (· = s))

/-- The oldest admitted record is written to its ring and posted on its QP, the oldest EVENT entry is posted, and a
scheduled trigger rises at its edge of VT64 and falls after its width. It rests on the model's choices of logs 5, 104, 109.
(R111, R424, R427, R428, R438, R439, R479) -/
def Obligations.IngressRows : Prop :=
  ∀ s : State, s.alive = true →
  (s.ports.queue = [] → Runs .ingressRecordWrite s (· = s)) ∧
  (∀ r rest, s.ports.queue = r :: rest → (s.stream r.stream).ring = none → Runs .ingressRecordWrite s (· = { s with ports := { s.ports with queue := rest, fill := s.ports.fill - r.payload.length } })) ∧
  (∀ r rest base len qp, s.ports.queue = r :: rest → (s.stream r.stream).ring = some (base, len, qp) → Runs .ingressRecordWrite s fun t => ∃ v : State,
    v = ringWrite base len r { s with ports := { s.ports with queue := rest, fill := s.ports.fill - r.payload.length } } ∧
    (qp = 0xFFFFFFFF → t = logIngress r v) ∧
    (qp ≠ 0xFFFFFFFF → t = logIngress r { v with link := { v.link with posting := v.link.posting ++
      [{ qp := qp, cqe := { unsolEntry v 4 (w32 (65536 * (s.stream r.stream).handle + r.seq % 65536)) r.stamp with quality := r.ql } }] } })) ∧
  (s.link.posting = [] → Runs .eventEntryPost s (· = s)) ∧
  (∀ u rest, s.link.posting = u :: rest → Runs .eventEntryPost s (· = postUnsol u.qp u.cqe { s with link := { s.link with posting := rest } })) ∧
  (∀ i x low, i < 16 → s.time.counting = true → s.trig i = x → x.period ≠ 0 → x.high = false → s.fcu.safe = false →
    (x.fall = none → low = 0) → (∀ m, x.fall = some m → low = (m + 16 - s.now).toInt.toNat) →
    Runs (.triggerRise i) s fun t => ∃ v w : State, v = s.advanceVt (edgeWait x s.now low) ∧
      w = v.setTrig i (fun y => { y with fall := some (v.now + w64 x.width), high := true, edges := (v.now, v.quality) :: y.edges.filter fun e => recent v.now e.1 }) ∧
      t = postBound 4 (· == 0x7000 + i) none v.now v.quality (assertProducer (48 + i) (if tioFunc (s.sen.tioCfg i) = 2 then driveBall i true w else w))) ∧
  (∀ i m, i < 16 → (s.trig i).high = true → (s.trig i).fall = some m → Runs (.triggerFall i) s fun t => t.now = (s.bringVt m).now ∧
    t.trig i = { s.trig i with high := false } ∧ (∀ j, j ≠ i → t.trig j = s.trig j) ∧
    (tioFunc (s.sen.tioCfg i) = 2 → s.pins.safeHeld = false → t.pins = { s.pins with tioOut := putBit s.pins.tioOut i false }) ∧
    ((tioFunc (s.sen.tioCfg i) ≠ 2 ∨ s.pins.safeHeld = true) → t.pins = s.pins))

/-- Fill levels read and clear their peak, an append is queued or refused and processed in order, a programmed page places
its records, a commit point numbers them, writes the next index head, and only then makes them readable, a seal covers the
records committed since the last, seals, reclaims, relocations, scrubs and erasures act on their blocks. It rests on the
model's choices of logs 20, 21, 55, 57, 111, 113, 163, 164. (R432, R456, R461, R466, R468, R469, R474, R475, R476, R477,
R480, R522) -/
def Obligations.LogRows : Prop :=
  ∀ s : State, s.alive = true →
  (s.ready Rdy.dram = true → Runs .ingFillRead s (· = State.emit { s with ports := { s.ports with peak := 0 } } (.regValue (w32 (65536 * max s.ports.peak (s.ports.fill / 1024) + s.ports.fill / 1024))))) ∧
  (s.ready Rdy.lgsRead = true → Runs .lgsQfillRead s (· = State.emit { s with lgs := { s.lgs with peak := 0 } } (.regValue (w32 (65536 * (max s.lgs.peak s.lgs.fill / 16384) + s.lgs.fill / 16384))))) ∧
  (∀ n val, s.ready Rdy.lgsRead = true → n < 16 → (appQueue n s).length < 64 → Runs (.lgsAppendWrite n val) s fun t =>
    appQueue n t = appQueue n s ++ [val] ∧ (∀ m, m ≠ n → appQueue m t = appQueue m s) ∧ tabGet t.lgs.accepted n 0 = tabGet s.lgs.accepted n 0 + 1 ∧ t = { s with lgs := { s.lgs with appends := t.lgs.appends, accepted := t.lgs.accepted } }) ∧
  (∀ n val, s.ready Rdy.lgsRead = true → n < 16 → 64 ≤ (appQueue n s).length → Runs (.lgsAppendWrite n val) s (· = appendResult n val (2 ^ 62 + 5) s)) ∧
  (∀ n, n < 16 → appQueue n s = [] → Runs (.appendProcess n) s (· = s)) ∧
  (∀ n val rest u, n < 16 → appQueue n s = val :: rest → u = { s with lgs := { s.lgs with appends := tabSet s.lgs.appends n rest } } → Runs (.appendProcess n) s fun t =>
    (appendPlace n val = none → t = raiseFault Src.lgsAppErr 0 unitNone u) ∧
    (∀ p, appendPlace n val = some p → placeOk u p 32 = false → t = raiseFault Src.lgsAppErr 0 unitNone u) ∧
    (∀ p l v, appendPlace n val = some p → placeOk u p 32 = true → memLoad p.1 p.2 32 u = (l, v) →
      (allBytes l = none → t = raiseFault Src.lgsAppErr 0 unitNone v) ∧
      (∀ d c w, allBytes l = some d → appendRecord n d v = (c, w) → t = appendResult n val (if c = 0 then 2 ^ 63 else 2 ^ 62 + c) w))) ∧
  (∀ pass, s.nandUp = true → (nextPage s.lgs).1 ≠ [] → Runs (.pageProgramComplete pass) s fun t =>
    (openSeg (nextPage s.lgs).2 (recsSize (nextPage s.lgs).1) s = none → t = s) ∧
    (∀ k v, openSeg (nextPage s.lgs).2 (recsSize (nextPage s.lgs).1) s = some (k, v) → t.lgs.programmed = v.lgs.programmed + recsSize (nextPage s.lgs).1 ∧
      (pass = false → t.lgs.placed = v.lgs.placed ∧ t.lgs.urgent = v.lgs.urgent ∧ t.lgs.queue = v.lgs.queue ∧ t.lgs.backfill = v.lgs.backfill) ∧
      (pass = true → t.lgs.placed.length = v.lgs.placed.length + (nextPage s.lgs).1.length ∧ t.lgs.recs = v.lgs.recs ∧ t.lgs.nextSeq = v.lgs.nextSeq))) ∧
  (s.nandUp = true → s.lgs.placed ≠ [] → Runs .commitPoint s fun t => (∃ b c, tabFind t.lgs.heads (t.lgs.headGen % 8192) = some (headBytes t.lgs.nextSeq t.lgs.headGen b c)) ∧
    t.lgs.headGen = (s.lgs.headGen + 1) % 2 ^ 32 ∧ t.lgs.placed = [] ∧ t.lgs.nextSeq = s.lgs.nextSeq + s.lgs.placed.length ∧
    t.lgs.recs = s.lgs.recs ++ s.lgs.placed.map fun r => { r with waiter := none, capsule := false }) ∧
  (∀ id, s.nandUp = true → s.logStopped = false → Runs (.triggerClose id) s fun t =>
    (s.lgs.trigs.find? (·.id == id) = none → t = s) ∧
    (∀ g, s.lgs.trigs.find? (·.id == id) = some g → (trigServed id s.lgs = false → t = s) ∧ (trigServed id s.lgs = true → t = trigClose g s ∧ ∀ x, x ∈ t.lgs.trigs → x.id ≠ id))) ∧
  (s.nandUp = true → s.logStopped = false → Runs .periodicSeal s fun t => t.lgs.placed = [] ∧ t.lgs.nextSeq = s.lgs.nextSeq + s.lgs.placed.length ∧ t.em.savedVt = s.now ∧
    t.lgs.sealGen = (s.lgs.sealGen + 1) % 2 ^ 32 ∧ t.lgs.gaps = [] ∧ t.lgs.unsealed = [] ∧
    t.lgs.digest = sealDigest (commitPoint s).lgs ∧ ∃ r, r.kind = 5 ∧ r.vt = s.now ∧ r.body = sealBody t.lgs.sealGen (commitPoint s).lgs ∧
    (t.lgs.urgent.getLast? = some r ∨ t.lgs.sysWait.getLast? = some r)) ∧
  (∀ k f g, s.nandUp = true → relocates k s = true → s.lgs.fit = some f → tabFind s.lgs.segs k = some g → Runs (.blockRelocation k) s fun t =>
    (freeSeg s.lgs f g.slc = none → t = s) ∧
    (∀ k2, freeSeg s.lgs f g.slc = some k2 → tabFind t.lgs.segs k2 = some { g with vt := s.now, gen := s.lgs.headGen } ∧ t.lgs.recs.map (·.seq) = s.lgs.recs.map (·.seq) ∧ t.lgs.recs.map (·.body) = s.lgs.recs.map (·.body) ∧
      (∀ i, i < segBlocks f → k * segBlocks f + i ∈ t.lgs.toErase))) ∧
  (∀ b sd r w u, s.nandUp = true → Runs (.retentionScrub b sd r w u) s fun t =>
    (segOfBlock b s.lgs = none → t = s) ∧
    (∀ k, segOfBlock b s.lgs = some k → t.lgs.uncorr = s.lgs.uncorr + bit u ∧ t.lgs.refreshed = s.lgs.refreshed + bit w ∧ t.lgs.recs = s.lgs.recs ∧
      tabGet t.lgs.retries (b % 8) 0 = tabGet s.lgs.retries (b % 8) 0 + bit r ∧
      tabGet t.lgs.retryRuns b 0 = (if r then tabGet s.lgs.retryRuns b 0 + 1 else 0) ∧ (sd = true → s.lgs.softOnce.contains b = true → b ∈ t.lgs.grown) ∧ (sd = true → b ∈ t.lgs.softOnce))) ∧
  (∀ slc f k g, s.nandUp = true → s.lgs.fit = some f → oldestSeg slc s.lgs = some (k, g) → Runs (.segmentReclaim slc) s fun t =>
    ((∃ n ∈ regionSegs s.lgs slc, tabFind s.lgs.segs n = none) → t = s) ∧
    ((∀ n ∈ regionSegs s.lgs slc, tabFind s.lgs.segs n ≠ none) → tabFind t.lgs.segs k = none ∧ t.lgs.recs = s.lgs.recs.filter (fun r => r.seg != k) ∧
      t.lgs.toErase = s.lgs.toErase ++ (List.range (segBlocks f)).map (k * segBlocks f + ·) ∧ t = { s with lgs := t.lgs })) ∧
  (s.nandUp = true → s.logStopped = false → (s.em.capsules = [] → Runs .capsuleCommit s (· = s)) ∧
    ((s.lgs.urgent ++ s.lgs.placed ++ s.lgs.sysWait).any (·.capsule) = true → Runs .capsuleCommit s (· = s)) ∧
    (∀ c rest, s.em.capsules = c :: rest → (s.lgs.urgent ++ s.lgs.placed ++ s.lgs.sysWait).any (·.capsule) = false → Runs .capsuleCommit s fun t =>
      ∃ r, r.kind = 4 ∧ r.vt = c.vt ∧ r.capsule = true ∧ t = { s with lgs := t.lgs } ∧
        r.body = fjBody (c.entries.head?.elim 0 (·.seq)) c.entries c.lost ∧
        ((s.lgs.sysWait.isEmpty && decide (s.lgs.fill + recSize r ≤ qMax)) = true → t.lgs.urgent = s.lgs.urgent ++ [r] ∧ t.lgs.sysWait = s.lgs.sysWait) ∧
        ((s.lgs.sysWait.isEmpty && decide (s.lgs.fill + recSize r ≤ qMax)) = false → t.lgs.urgent = s.lgs.urgent ∧ t.lgs.sysWait = s.lgs.sysWait ++ [r]))) ∧
  (∀ b pass, s.nandUp = true → Runs (.nandBlockEraseComplete b pass) s fun t => (b ∉ s.lgs.toErase → t = s) ∧
    (b ∈ s.lgs.toErase → t.lgs.toErase = s.lgs.toErase.erase b ∧ tabGet t.lgs.erases b 0 = tabGet s.lgs.erases b 0 + 1 ∧ (pass = false → b ∈ t.lgs.grown)))

/-- Training takes the width of the good lanes, a failed lane, one of a link that retrains too, is spared or narrows the
link, a retrained link counts its replays, a link that goes down removes what lay behind it, time messages measure the delay
and carry the anchor, and an inbound access is done or answered with a decode error. It rests on the model's choices of logs
33, 114, 115, 116. (R485, R487, R488, R489, R493, R494, R500) -/
def Obligations.BridgeRows : Prop :=
  ∀ (k : Nat) (s : State), s.alive = true → k < 4 →
  (∀ nbr good peer, ((s.brLink k).state = 1 ∨ (s.brLink k).state = 4) → Runs (.brlTrainingComplete k nbr good peer) s fun t => (∀ j, j ≠ k → t.brLink j = s.brLink j) ∧
    (nbr ≠ farEnd s.cubeId k → t = raiseFault Src.brlTopo (w64 k) unitNone (s.setLink k fun l => { l with nbr := nbr % 8, nbrOk := false })) ∧
    (∀ w, nbr = farEnd s.cubeId k → w = linkShape (servingLanes k (~~~ good) s) →
      (w.1 = 0 → t.brLink k = { s.brLink k with state := 4, width := 0, bad := ~~~ good }) ∧
      (w.1 ≠ 0 → t.brLink k = { s.brLink k with state := 2, width := w.1, spareFor := w.2, bad := ~~~ good, nbr := nbr, nbrOk := true, exch := none, fresh := true } ∧
        (nbr < 8 → t.brl.present.getLsbD nbr = true)))) ∧
  (∀ lane, lane < 5 → (s.brLink k).state = 2 → Runs (.brlLaneFailure k lane) s fun t => (∀ j, j ≠ k → t.brLink j = s.brLink j) ∧ ∃ bad w, bad = putBit (s.brLink k).bad lane true ∧ w = linkShape (servingLanes k bad s) ∧
    ((lanesInUse (s.brLink k)).testBit lane = true → t.brLink k = { s.brLink k with bad := bad, width := w.1, spareFor := w.2, state := 3 } ∧
      (w.1 < 3 → s.fcu.running = true → (s.frec Src.brlLane).isOpen = false → (t.frec Src.brlLane).isOpen = true)) ∧
    ((lanesInUse (s.brLink k)).testBit lane = false → t.brLink k = { s.brLink k with bad := bad } ∧ t = { s with brl := t.brl })) ∧
  (∀ lane, lane < 5 → (s.brLink k).state = 3 → Runs (.brlLaneFailure k lane) s fun t => (∀ j, j ≠ k → t.brLink j = s.brLink j) ∧ ∃ bad w, bad = putBit (s.brLink k).bad lane true ∧
    w = linkShape (servingLanes k bad s) ∧ t.brLink k = { s.brLink k with bad := bad, width := w.1, spareFor := w.2 } ∧
    (w.1 < 3 → s.fcu.running = true → (s.frec Src.brlLane).isOpen = false → (t.frec Src.brlLane).isOpen = true)) ∧
  (∀ n, (s.brLink k).state = 3 → (s.brLink k).width ≠ 0 → Runs (.brlRetrainComplete k n) s fun t => (∀ j, j ≠ k → t.brLink j = s.brLink j) ∧ t = { s with brl := t.brl } ∧
    t.brLink k = { s.brLink k with state := 2, replays := (s.brLink k).replays + n, retrains := (s.brLink k).retrains + 1, fresh := true }) ∧
  (∀ present, s.linkUp k = true → Runs (.brlLinkDown k present) s fun t => (∀ j, j ≠ k → t.brLink j = s.brLink j) ∧ t.brLink k = { s.brLink k with state := 4, width := 0 } ∧
    (∀ d, d < 8 → d ≠ s.cubeId → t.brl.present.getLsbD d = (s.brl.present.getLsbD d && present.getLsbD d))) ∧
  (s.ready Rdy.brl = true → s.isFollower = true → Runs .leadLoss s fun t => ∃ v, 8000000 + s.brl.lastMsg ≤ v.time.mono ∧ v.brl = { s.brl with present := putBit s.brl.present s.brl.lead false } ∧
    t = raiseFault Src.brlLeadLost 0 unitNone (elect v)) ∧
  (∀ m : BrlMsg, (s.brLink k).state = 2 → s.time.counting = true → Runs (.brlTimeMessageReceive k m) s fun t => ∃ u : State,
    u = State.emit (s.setLink k fun l => { l with exch := some (m.t1, s.now, s.now) }) (.brlReply k s.now s.now) ∧
    (isUpstream k s = false → ((s.brLink k).exch = none → t = u) ∧
      (∀ e, (s.brLink k).exch = some e → t = u.setLink k fun l => { l with dly := (linkDelay e.1 e.2.1 e.2.2 m.t4 % 2 ^ 24).toNat })) ∧
    (isUpstream k s = true → ((s.brLink k).exch = none → t = forwardTime m { u with brl := { u.brl with lastMsg := s.time.mono, anchor := some (m.anchorN.toNat, m.anchorVt, m.periodNs.toNat) } }) ∧
      (∀ e d v, (s.brLink k).exch = some e → d = linkDelay e.1 e.2.1 e.2.2 m.t4 → v = u.setLink k (fun l => { l with dly := (d % 2 ^ 24).toNat }) →
        t = forwardTime m (brlSample k m s.now (linkOffset m.t1 s.now d (s.asym k)) { v with brl := { v.brl with lastMsg := s.time.mono, anchor := some (m.anchorN.toNat, m.anchorVt, m.periodNs.toNat) } })))) ∧
  ((s.brLink k).state = 2 → Runs (.brlReplyReceive k) s fun t => (∀ j, j ≠ k → t.brLink j = s.brLink j) ∧ t = { s with brl := t.brl } ∧ t.brLink k = { s.brLink k with t4 := s.now }) ∧
  (∀ addr n data, (s.brLink k).state = 2 → addr < 2 ^ 40 → n ≤ 4096 → (∀ b, data = some b → b.length = n) → Runs (.remoteWindowAccessIn k addr n data) s fun t =>
    (inboundOk addr = false → t = State.emit (decodeError data.isSome (.link k) addr s) (.brlAccessRsp k none)) ∧
    (∀ b ok v, inboundOk addr = true → data = some b → write40 (.link k) 0 addr b s = (ok, v) → t = v.emit (.brlAccessRsp k (if ok then some [] else none))) ∧
    (∀ r v, inboundOk addr = true → data = none → read40 (.link k) 0 addr n s = (r, v) → t = v.emit (.brlAccessRsp k r.all)))

/-- The lead sends its time on each link that is up, a follower runs a cube command and reports its status, and a cube
command completes once every present device has reported. It rests on the model's choices of logs 75, 114, 117. (R493, R496,
R497) -/
def Obligations.LeadRows : Prop :=
  ∀ s : State, s.alive = true → s.ready Rdy.brl = true →
  (s.isLead = true → s.time.counting = true → Runs .brlTimeMessageSend s (· =
    (([0, 1, 2, 3] : List Nat).filter fun k => (s.brLink k).state == 2).foldl (fun v k => State.emit v (.brlTime k { leadMsg s with t1 := s.now, t4 := (s.brLink k).t4 })) s)) ∧
  (∀ (op : W16) sub data v u, s.isFollower = true → (takesData op.toNat = true → dataFits op.toNat sub data = true) → v = { sub with flags := putBit sub.flags 3 false } →
    u = { s with basut := { s.basut with nextCid := s.basut.nextCid + 1 } } → Runs (.cubeCommandReceive op sub data) s fun t =>
    (checkCmd op.toNat cubeQp v u ≠ 0 → t = u.emit (.brlReport (checkCmd op.toNat cubeQp v u) 0 [])) ∧
    (checkCmd op.toNat cubeQp v u = 0 → t = bodyOf op.toNat cubeQp v data cubeQp s.basut.nextCid v u)) ∧
  (∀ reports, (∀ c ∈ s.brl.cmds, c.own = none) → Runs (.cubeCommandComplete reports) s (· = s)) ∧
  (∀ reports c, s.brl.cmds.find? (fun c => c.own.isSome) = some c → Runs (.cubeCommandComplete reports) s fun t => ∃ others, others = reports.filter (fun r => r.cubeId != s.cubeId && c.devs.contains r.cubeId) ∧
    ((∀ d ∈ c.devs, d = s.cubeId ∨ s.brl.present.getLsbD d = false ∨ ∃ r ∈ others, r.cubeId = d) → t = cubeFinish c others s) ∧
    (∀ d ∈ c.devs, d ≠ s.cubeId → s.brl.present.getLsbD d = true → (∀ r ∈ others, r.cubeId ≠ d) → t = s))

/-- A raise of a closed source opens its record with the severity in force and severity 3 enters the safe state, a close
written to an open record with no standing cause closes it and nothing else, and a debug halt and its release act on their
core and the timers it freezes. It rests on the model's choices of logs 16, 86. (R419, R508, R511, R512, R513) -/
def Obligations.FaultRows : Prop :=
  ∀ s : State, s.alive = true →
  (∀ id info unit, s.fcu.running = true → srcImpl id = true → Runs (.faultRaise id info unit) s fun t => t.deep = s.deep ∧
    ((s.frec id).isOpen = false → (t.frec id).isOpen = true ∧ (t.frec id).sev = s.sevOf id ∧ (s.sevOf id = 3 → t.fcu.safe = true))) ∧
  (∀ m id val ok v, s.ready Rdy.fcu = true → (m = .pf ∨ m = .pegbox) → id < 4096 → sramWrite 0 (4 * id) s = (ok, v) → Runs (.fcuSrcOpenWrite m id val) s fun t =>
    (ok = false → t = v) ∧ (val.getLsbD 15 = false → t = v) ∧ ((v.frec id).isOpen = false → t = v) ∧ ((v.frec id).cause = true → t = v) ∧
    (ok = true → val.getLsbD 15 = true → (v.frec id).cause = false → (t.frec id).isOpen = false ∧ (∀ j, j ≠ id → t.frec j = v.frec j))) ∧
  (∀ core, Runs (.debugHalt core) s (· = { s with sen := { s.sen with debugHalt := setAdd s.sen.debugHalt (debugNum core) } })) ∧
  (∀ core, Runs (.debugHaltRelease core) s fun t => t.sen.debugHalt = setDel s.sen.debugHalt (debugNum core) ∧ t = { s with sen := t.sen } ∧
    (∀ i, s.frozen i = false → t.timer i = s.timer i) ∧ (∀ i, (t.timer i).cnt = (s.timer i).cnt))

/-- A monitor sample counts tens of minutes and hours and checks the ageing limit, the corrected-read monitors propose the
units they have found, an eye margin is kept first and proposed against later, a self-test moves or ends its spare sequence,
a lockstep mismatch takes the other pair where one is left, and an oscillator comparison ends with its verdict. It rests on
the model's choices of logs 5, 32, 119, 120, 132, 162. (R525, R528, R533, R544) -/
def Obligations.HealthRows : Prop :=
  ∀ s : State, s.alive = true →
  (∀ deltas, s.fwUp = true → deltas.length = 19 → Runs (.healthMonitorSample deltas) s fun t => ∃ v : State, v.health.deltas = deltas ∧ v.health.sampled = v.time.mono ∧ 9600000000000 + s.health.sampled ≤ v.time.mono ∧
    v.em.tens = s.em.tens + 1 ∧ v.em.hours = s.em.hours ∧ (s.em.tens ≠ 5 → t = setCause Src.healthAging (8000 ≤ lifeUsed (maxDelta v)) 0 v) ∧
    (s.em.tens = 5 → ∃ x w, x.em.hours = s.em.hours + 1 ∧ x.em.tens = 0 ∧ x.health.deltas = deltas ∧ w = lifeCheck x ∧ t = setCause Src.healthAging (8000 ≤ lifeUsed (maxDelta w)) 0 w)) ∧
  (s.fwUp = true → Runs .ceRateCheck s (· = (s.fab.ecc.flatMap fun kr => ceUnits kr.1 kr.2).foldl (fun v u => propose u.1 u.2.1 2 0 u.2.2 v)
    { s with fab := { s.fab with ecc := s.fab.ecc.map fun kr => (kr.1, { kr.2 with twice := [], dense := [] }) } })) ∧
  (∀ k lane m, s.fwUp = true → k < 4 → lane < 5 → Runs (.eyeMarginCheck k lane m) s fun t =>
    (tabFind s.em.firstMargin (5 * k + lane) = none → t = { s with em := { s.em with firstMargin := tabSet s.em.firstMargin (5 * k + lane) m } }) ∧
    (∀ f, tabFind s.em.firstMargin (5 * k + lane) = some f → f ≤ 2 * m → t = s) ∧
    (∀ f, tabFind s.em.firstMargin (5 * k + lane) = some f → 2 * m < f → t = propose 2 (5 * k + lane) 3 0 0 s)) ∧
  (∀ cls i pass, s.fcu.safe = false → classCode cls < 4 → Runs (.unitSelfTestComplete cls i pass) s fun t =>
    (seqTesting s (classCode cls) i = none → t = s) ∧
    (∀ q, seqTesting s (classCode cls) i = some q → (pass = true → t = { s with health := { s.health with seqs := s.health.seqs.map fun x => if x = q then { x with step := .tested } else x } }) ∧
      (pass = false → t = finishSeq q (if q.reinst then Stat.busy else Stat.exhausted) 0 (endSeq q true s)))) ∧
  (Runs .pbxLockstepMismatch s fun t => ∃ v, v = raiseFault Src.pbxLockstep 0 unitNone s ∧
    (s.pbxSpare = true → t.em.pbxPair = 1 - v.em.pbxPair ∧ t.health.pbxShadow = false ∧ unitKey 3 v.em.pbxPair ∈ t.em.retired ∧ t.boot = v.boot) ∧
    (s.pbxSpare = false → t = { v with boot := t.boot } ∧ (v.boot.warmReq = none → t.boot.warmReq = some 5))) ∧
  (∀ agree b, s.health.oscCompare = some b → Runs (.oscCompareEnd agree) s fun t => (seqTesting s 4 (bit b) = none → t = s) ∧
    (∀ q, seqTesting s 4 (bit b) = some q → t = selfTested q agree { s with health := { s.health with oscAgreed := agree } }))

/-- A BAR0 write of a master inside the device sets the register, is refused or is a decode error as the register file says;
the host's goes through the PCIe write; a write of a configuration register has the effect of its field, a reserved size or
range leaving it alone. It rests on the model's choices of logs 25, 61, 62, 144. (R1, R4, R71, R77) -/
def Obligations.RegisterWriteRows : Prop :=
  ∀ (s : State) (off : Nat) (val : W32), s.alive = true →
  (∀ m, (m = .pegbox ∨ (∃ n p, m = .engine n p) ∨ ∃ n, m = .courseDma n) → Runs (.registerWrite (.bar0 m) off val) s fun t =>
    (off % 4 ≠ 0 → t = s) ∧
    (∀ v w, off % 4 = 0 → writeReg m off val none s = (.ok v, w) → t = w) ∧
    (∀ w, off % 4 = 0 → writeReg m off val none s = (.err, w) → t = w) ∧
    (∀ w, off % 4 = 0 → writeReg m off val none s = (.decode, w) → t = decodeError true m (0x3000000000 + off) w)) ∧
  (∀ k, Runs (.registerWrite (.bar0 (.link k)) off val) s (· = decodeError true (.link k) (0x3000000000 + off) s)) ∧
  (s.link.up = true →
    (Runs (.registerWrite (.bar0 .pf) off val) s (· = pcieWrite 0 0 off (leBytes 4 val.toNat) s)) ∧
    (∀ v, Runs (.registerWrite (.bar0 (.vf v)) off val) s (· = pcieWrite v 0 off (leBytes 4 val.toNat) s)) ∧
    (∀ v bar, s.barHit v bar off 4 = false → pcieWrite v bar off (leBytes 4 val.toNat) s = tlpError .unsupportedRequest s) ∧
    (∀ v, s.barHit v 0 off 4 = true → off % 4 = 0 → pcieWrite v 0 off (leBytes 4 val.toNat) s = bar0WriteWords v off (leBytes 4 val.toNat) s) ∧
    (∀ v, s.barHit v 0 off 4 = true → off % 4 ≠ 0 → pcieWrite v 0 off (leBytes 4 val.toNat) s = hostAbort v true (bar0Addr v off) s) ∧
    (Runs (.registerWrite .cfgPtmEnable off val) s (· = { s with link := { s.link with ptmEn := val.getLsbD 0 } })) ∧
    (Runs (.registerWrite (.cfgVfs 0) off val) s (· = vfsClear s)) ∧
    (∀ n, 0 < n → (n ≤ 7 ∨ n ≤ 63 ∧ s.link.ari = true) → s.link.numVfs = 0 → Runs (.registerWrite (.cfgVfs n) off val) s (· = { s with link := { s.link with numVfs := n } })) ∧
    (∀ n, 0 < n → (64 ≤ n ∨ 8 ≤ n ∧ s.link.ari = false ∨ s.link.numVfs ≠ 0) → Runs (.registerWrite (.cfgVfs n) off val) s (· = s)) ∧
    (Runs (.registerWrite .cfgAri off val) s (· = { s with link := { s.link with ari := val.getLsbD 4 } })) ∧
    (Runs (.registerWrite .cfgAerCtl off val) s (· = { s with link := { s.link with ecrcGen := val.getLsbD 6, ecrcChk := val.getLsbD 8 } })) ∧
    (∀ uncor, Runs (.registerWrite (if uncor then .cfgAerUncor else .cfgAerCor) off val) s fun t => t = { s with link := t.link } ∧
      (∀ e, e ∈ t.link.aer ↔ e ∈ s.link.aer ∧ ¬((aerBit e).1 = uncor ∧ val.getLsbD (aerBit e).2 = true)) ∧
      (∀ e a b, s.link.hdrLog = some (e, a, b) → t.link.hdrLog = if (aerBit e).1 = uncor ∧ val.getLsbD (aerBit e).2 = true then none else some (e, a, b))) ∧
    (∀ v bar, barSize v (bar / 2 * 2) = 0 → Runs (.registerWrite (.cfgBar v bar) off val) s (· = s)) ∧
    (∀ v bar key x, barSize v (bar / 2 * 2) ≠ 0 → key = 8 * v + bar / 2 * 2 → x = (if bar % 2 = 1 then setHi (tabGet s.link.bars key 0) val else setLo (tabGet s.link.bars key 0) val) →
      Runs (.registerWrite (.cfgBar v bar) off val) s fun t => t = { s with link := t.link } ∧
        (tabGet t.link.bars key 0).toNat = x.toNat / barSize v (bar / 2 * 2) * barSize v (bar / 2 * 2) ∧ (∀ j, j ≠ key → tabFind t.link.bars j = tabFind s.link.bars j))) ∧
  (∀ v, s.bar2Up v = true →
    (Runs (.registerWrite (.cfgMsixEnable v) off val) s (· = releaseMsix v (s.setFn v fun a => { a with msixEn := val.getLsbD 0 }))) ∧
    (Runs (.registerWrite (.cfgMsixFnMask v) off val) s (· = releaseMsix v (s.setFn v fun a => { a with msixMask := val.getLsbD 0 }))) ∧
    (Runs (.registerWrite (.cfgPowerD0 v) off val) s (· = toD0 v s)) ∧
    (Runs (.registerWrite (.cfgDevCtl v) off val) s fun t => (∀ j, j ≠ v → t.fn j = s.fn j) ∧ t = { s with link := t.link } ∧
      t.fn v = { s.fn v with relaxed := val.getLsbD 4, mps := if bitsAt val.toNat 5 3 ≤ 2 then bitsAt val.toNat 5 3 else (s.fn v).mps,
                             mrrs := if bitsAt val.toNat 12 3 ≤ 5 then bitsAt val.toNat 12 3 else (s.fn v).mrrs }) ∧
    (Runs (.registerWrite (.cfgDevCtl2 v) off val) s fun t => (∀ j, j ≠ v → t.fn j = s.fn j) ∧ t = { s with link := t.link } ∧ (t.fn v).ctoOff = val.getLsbD 4 ∧
      (t.fn v).tags10 = val.getLsbD 12 ∧ (val.toNat % 16 ∈ [0, 1, 2, 5, 6] → (t.fn v).ctoRange = val.toNat % 16) ∧ (val.toNat % 16 ∉ [0, 1, 2, 5, 6] → (t.fn v).ctoRange = (s.fn v).ctoRange)))

/-- For every command and state: a step with that command at the front of the queue is exec of it on the state with the rest
of the queue. It rests on the model's choices of log 129. -/
def Obligations.QueueStep : Prop :=
  ∀ (c : Instr) (rest : List Instr) (s : State), s.pending = c :: rest → step s = exec c { s with pending := rest }

/-- A step on an empty queue moves the monotonic time by one and a counting VT64 by one vt at its rate, which TE_FREQ
adjusts, and leaves the queue, the output, the fault collection, the host link, the boot state and the eMRAM alone; a device
in reset stays as it is. It rests on the model's choices of log 4. -/
def Obligations.EmptyQueueTick : Prop :=
  ∀ s : State, s.pending = [] →
  (s.alive = false → step s = .next s) ∧
  (s.alive = true → ∃ t, step s = .next t ∧ t.time.mono = s.time.mono + 1 ∧ t.time.vt64 = s.time.vt64 + (if s.time.counting then w64 (1 + (s.time.rateFrac + s.time.freq) / rateUnit).toNat else 0) ∧
    t.pending = [] ∧ t.out = s.out ∧ t.fcu = s.fcu ∧ t.link = s.link ∧ t.boot = s.boot ∧ t.em = s.em)

/-- After reset no function is ready and no course, no plan is active and the stroke period is 100,000 ns, the device is
neither in the safe state nor degraded, the era is 0, no lead is known, no QP and no binding exists, FAULT_N is low, nothing
waits, and every memory is in its canonical form. It rests on the model's choices of logs 2, 9. -/
def Obligations.ResetState : Prop :=
  State.reset.pending = [] ∧ State.reset.boot.readyMap = 0 ∧ State.reset.boot.courseReady = 0 ∧ State.reset.stroke.period = 100000 ∧ State.reset.stroke.active = none ∧
  State.reset.fcu.safe = false ∧ State.reset.fcu.degraded = false ∧ State.reset.time.era = 0 ∧ State.reset.brl.leadKnown = false ∧ State.reset.link.qps = [] ∧ State.reset.link.binds = [] ∧
  State.reset.pins.faultN = false ∧ State.reset.memsWf

/-- For every state a step answers a next state: the spec gives every command of the table an effect or an answer, so no
step ends in a fault or a refusal. It rests on the model's choices of log 3. -/
def Obligations.NoStop : Prop := ∀ s : State, Safe s

/-- For every state and every step that answers a next state, no security-version floor is lower after it and no revoked key
slot is free again. (R53, R124) -/
def Obligations.FusesOnlyGrow : Prop := ∀ s t : State, step s = .next t → s.fuses.le t.fuses

/-- For every state whose front command is not a rising PORST_N, a step leaves the straps as they were; a warm reset, a
power fail and every host command among them. (R18) -/
def Obligations.StrapsHeld : Prop :=
  ∀ s t : State, (∀ x r, s.pending.head? ≠ some (.porstNRise x r)) → step s = .next t → t.boot.straps = s.boot.straps

/-- For every state and every step that answers a next state, the queue after it is the queue before it without its front:
no command adds, drops or reorders another. -/
def Obligations.QueueOrder : Prop := ∀ s t : State, step s = .next t → t.pending = s.pending.tail

/-- For every opcode and body: a command taken in its turn that fails a common check is completed with the status of its
first failing check, the tag, the privilege and the safe state among them, and its body does not run. (R114, R555) -/
def Obligations.FailedCheckAnswers : Prop :=
  ∀ (op q cid : Nat) (sub : Sub) (body : Body) (s u : State), basutUp q s = true → claim q op sub s = some (cid, u) → checkCmd op q sub u ≠ 0 →
  runBasut op q sub body s = .next (finish q cid (checkCmd op q sub u) 0 u) ∧
  (sub.tag = 0xFFFF → checkCmd op q sub u = Stat.invalidField) ∧
  (∀ f, sub.tag ≠ 0xFFFF → opInfo op = some f → mayIssue f op q sub u = false → checkCmd op q sub u = Stat.accessDenied) ∧
  (∀ f, sub.tag ≠ 0xFFFF → opInfo op = some f → mayIssue f op q sub u = true → formOk f op sub = true → u.fcu.safe = true → f.safeOk = false → checkCmd op q sub u = Stat.safeState)

/-- Where the command is the device's own, its completion changes the named command of its QP alone: the phase holds status,
result, quality, VT64 and the tag of its submission; no QP, no other command and no other part of the state changes. (R115,
R116) -/
def Obligations.FinishRecords : Prop :=
  ∀ (q cid st : Nat) (r : W32) (s : State), q ≠ cubeQp → (∀ c ∈ s.brl.cmds, c.qp ≠ q ∨ c.cid ≠ cid) →
  (∀ p, p ≠ q → (finish q cid st r s).qp p = s.qp p) ∧ finish q cid st r s = { s with link := (finish q cid st r s).link } ∧
  ((finish q cid st r s).qp q).cmds.length = (s.qp q).cmds.length ∧
  (∀ m ∈ ((finish q cid st r s).qp q).cmds, m.cid = cid → m.phase = .done { tag := m.sub.tag, status := st, kind := 0, quality := s.quality, result := r, vt := s.now })

/-- The SQ that the arbiter names can be fetched, and if any SQ that can be fetched is an admin queue the one named is an
admin queue. (R89) -/
def Obligations.AdminQueuesFirst : Prop :=
  ∀ (s : State) (q : Nat), nextSq s = some q →
  (∃ c, (q, c) ∈ s.link.qps ∧ canFetch s q c = true) ∧
  ((∃ a c, (a, c) ∈ s.link.qps ∧ canFetch s a c = true ∧ s.isAdmin a = true) → s.isAdmin q = true)

/-- The verification of an image of type t against a state's fuses gives no error if and only if its header, stepping, type,
reserved bytes and payload length are those asked for, its key slot is not revoked and the hash of its keys is the fused
one, its security version is at or above the fused floor, the SHA-384 of its stored payload is its digest, its ECDSA and HSS
signatures verify over its first 256 bytes, its tag verifies where it is encrypted, and a microcode body passes its own
checks. It rests on the model's choices of logs 10, 133, 135. (R53) -/
def Obligations.ImageAccepted : Prop :=
  ∀ (s : State) (t : Nat) (i : List Byte), verifyImage s t i = 0 ↔
  (imgNat i 0 4 = 0x494D4C5A ∧ imgNat i 4 2 = 1 ∧ imgNat i 0x18 2 = 0xA1 ∧ imgRsvdZero i = true ∧ imgFlags i < 2 ∧ imgType i = t ∧ imgLen i % 16 = 0 ∧ imgLen i ≤ payloadLimit t) ∧
  (imgKeySlot i < 4 ∧ s.fuses.revoked.getLsbD (imgKeySlot i) = false ∧ imgKeyHash i = fusedHash s.fuses (imgKeySlot i)) ∧ svnFloor s.fuses t ≤ imgSvn i ∧
  ((imgStored i).length = imgLen i ∧ Crypto.h48 (natBytes (imgStored i)) = natBytes (imgBytes i 0x20 48)) ∧
  Crypto.ecdsaOk (natBytes (imgBytes i 0x160 97)) (natBytes (imgBytes i 0x100 96)) (natBytes (imgBytes i 0 0x100)) = true ∧
  Crypto.hssOk (natBytes (imgBytes i 0x1C4 60)) (natBytes (imgBytes i 0x200 5236)) (natBytes (imgBytes i 0 0x100)) = true ∧
  (imgFlags i % 2 = 1 → Crypto.gcmTag imgKey (natBytes (imgBytes i 0x50 12)) (natBytes (imgBytes i 0 0x100)) (natBytes (imgStored i)) = natBytes (imgBytes i 0x60 16)) ∧
  (t = 2 → patchBad (patchOf (imgPayload i)) (imgLen i) = false)

/-- A raise of an open source whose severity is below 3 counts once more, to at most 65,535, and stamps the last time; no
other record, no journal entry, no completion queue, no proposal and no mode changes. (R511) -/
def Obligations.MergedRaise : Prop :=
  ∀ (s : State) (id : Nat) (info : W64) (unit : W16), s.fcu.running = true → srcImpl id = true → (s.frec id).isOpen = true → s.sevOf id ≠ 3 → ∃ t, t = raiseFault id info unit s ∧
  t.frec id = { s.frec id with merges := min 65535 ((s.frec id).merges + 1), last := s.now } ∧ (∀ j, j ≠ id → t.frec j = s.frec j) ∧
  t.fcu.ring = s.fcu.ring ∧ t.fcu.head = s.fcu.head ∧ t.health = s.health ∧ t.link = s.link ∧ t.fcu.safe = s.fcu.safe ∧ t.fcu.degraded = s.fcu.degraded

/-- A record of a stream with no ring is not offered. Else it is admitted if the fill plus its largest length is within the
threshold of its class, with the next sequence number of its stream and a gap record before it if records have been refused
since; otherwise the queue and the fill stay, the refusal is kept for the gap record, the sequence number is used, and the
stroke is overloaded. (R195, R430, R431) -/
def Obligations.IngressAdmission : Prop :=
  ∀ (s : State) (ty port n : Nat) (r : IngRecord),
  ((s.stream r.stream).ring = none → offer ty port n r s = s) ∧
  (∀ c, (s.stream r.stream).ring ≠ none → c = (s.stream r.stream).cls.getD r.cls → c < 8 →
    (s.ports.fill + n ≤ 1024 * min 8192 ((s.ports.thr.toList[c]?).getD 0) → ∃ t, t = offer ty port n r s ∧ t.ports.fill = s.ports.fill + r.payload.length ∧
      t.ports.queue.getLast? = some { r with cls := c, seq := (s.stream r.stream).seq } ∧ (t.stream r.stream).refused = none ∧ (t.stream r.stream).seq = (s.stream r.stream).seq + 1 ∧
      t.ports.queue.length = s.ports.queue.length + (if (s.stream r.stream).refused.isSome then 2 else 1) ∧ t = { s with ports := t.ports }) ∧
    (1024 * min 8192 ((s.ports.thr.toList[c]?).getD 0) < s.ports.fill + n → ∃ t, t = offer ty port n r s ∧ t.ports.queue = s.ports.queue ∧ t.ports.fill = s.ports.fill ∧
      (t.stream r.stream).refused.isSome = true ∧ (t.stream r.stream).seq = (s.stream r.stream).seq + 1 ∧ t.stroke.loaded = true))

/-- A store of a byte list to an LSP, a CSM or DRAM that is not refused, where each codeword it touches is written whole or
its instance holds no error and no injection, leaves exactly those bytes at the address and on, every other byte of that
memory as before, and the memory in its canonical form. (R366, R370) -/
def Obligations.MemoryStores : Prop :=
  ∀ (m : MemRef) (a : Nat) (b : List Byte) (s t : State), s.memsWf → memStore m a b s = (true, t) →
  (∀ c ∈ cwsOf m a b.length, (a ≤ c.start ∧ c.start + c.k ≤ a + b.length) ∨ ((s.ecc c.key).bad = [] ∧ (s.ecc c.key).armed = none)) →
  (∀ i, i < b.length → t.memByte m (a + i) = (b[i]?).getD 0) ∧ (∀ x, x < a ∨ a + b.length ≤ x → t.memByte m x = s.memByte m x) ∧ memWf (t.memOf m) = true

/-- For every offset below 0x10000: with remap at 1 the low window holds the ROM and 0x08000000 on holds LSP bank 0; with
remap at 0 the other way round; banks 1 to 3 are at the same addresses in both. (R59) -/
def Obligations.BootRemap : Prop :=
  ∀ a : Nat, a < 0x10000 →
  regionOf true a = .rom a ∧ regionOf true (0x08000000 + a) = .lsp a ∧ regionOf false a = .lsp a ∧ regionOf false (0x08000000 + a) = .rom a ∧
  (∀ remap b, 0x10000 ≤ b → b < 0x40000 → regionOf remap b = .lsp b)

/-- CLZ of 0 is 32 and POPC of 0 is 0; BREV moves bit i to bit 31 - i; BSWAP exchanges bytes 0 and 3 and bytes 1 and 2; a
rotation by 0, which ROTR and ROTRI share as operation 9, is the operand; MIN and MAX compare as signed and MINU and MAXU as
unsigned values. (R247) -/
def Obligations.BitOperations : Prop :=
  ∀ a b : W32,
  bitOp 0 0 = 32 ∧ bitOp 1 0 = 0 ∧ (∀ i, i < 32 → (bitOp 2 a).getLsbD i = a.getLsbD (31 - i)) ∧
  (∀ i, i < 8 → (bitOp 3 a).getLsbD i = a.getLsbD (24 + i) ∧ (bitOp 3 a).getLsbD (8 + i) = a.getLsbD (16 + i) ∧ (bitOp 3 a).getLsbD (16 + i) = a.getLsbD (8 + i) ∧ (bitOp 3 a).getLsbD (24 + i) = a.getLsbD i) ∧
  (b.toNat % 32 = 0 → aluOp 9 a b = a) ∧
  ((aluOp 10 a b).toInt = min a.toInt b.toInt) ∧ ((aluOp 11 a b).toInt = max a.toInt b.toInt) ∧ ((aluOp 12 a b).toNat = min a.toNat b.toNat) ∧ ((aluOp 13 a b).toNat = max a.toNat b.toNat)

/-- A data-ready event during a transaction starts none, asserts producer 500 + p, posts to bound events with its stamp,
counts one overlap and keeps its stamp; the record of the transaction that ends holds the count and the latest stamp, which
are then 0 again. (R445, R446) -/
def Obligations.SpiOverlap : Prop :=
  ∀ (p : Nat) (stamp : W64) (ql : Quality) (s : State), p < 4 →
  ((s.sport 3 p).spiRun.isSome = true → ∃ v : State, v = postBound 4 (fun src => src == 0x4000 + 256 * p) none stamp ql (assertProducer (500 + p) s) ∧
    dataReady p stamp ql s = raiseFault Src.spiOverlap (w64 p) unitNone (v.setSport 3 p fun x => { (x.tick 2) with overlaps := x.overlaps + 1, lastOverlap := stamp }) ∧
    (dataReady p stamp ql s).sport 3 p = { ((s.sport 3 p).tick 2) with overlaps := (s.sport 3 p).overlaps + 1, lastOverlap := stamp }) ∧
  (∀ at' q data, s.alive = true → (s.sport 3 p).spiRun = some (at', q) → data.length = (s.sport 3 p).spiLen → Runs (.spiTransactionComplete p data) s fun t => ∃ r v : _, r = ({ stream := streamId 3 p 0, vt := at', stamp := at', ql := q, seq := 0, cls := 4, info := qualCode q, aux32 := w32 (s.sport 3 p).overlaps, aux64 := (s.sport 3 p).lastOverlap, payload := data } : IngRecord) ∧
    v.sport 3 p = { ((s.sport 3 p).tick 1) with spiRun := none, overlaps := 0, lastOverlap := 0 } ∧ t = offer 3 p (s.sport 3 p).spiLen r v)

/-- At the boundary that begins stroke n, with one capo command waiting: it waits on if the boundary is not in time for it;
in the safe state it completes with SAFE_STATE; a strict one that names an earlier stroke completes with CAPO_MISSED; a
PROFILE_SET that powers courses too soon waits on, or completes with CAPO_MISSED where it is strict; else its change is made
and it completes with the VT64 of the capo. It rests on the model's choices of logs 88, 90. (R117) -/
def Obligations.CapoBoundary : Prop :=
  ∀ (n : Nat) (first : Bool) (s u : State) (i : CapoItem), s.basut.capo = [i] → u = { s with basut := { s.basut with capo := [] } } →
  (i.due n first = false → capo n first s = { u with basut := { u.basut with capo := [rebase n i] } }) ∧
  (i.due n first = true → s.fcu.safe = true → capo n first s = finishAt i.qp i.cid Stat.safeState 0 s.stroke.vt s.quality u) ∧
  (i.due n first = true → s.fcu.safe = false → i.strict = true → i.target < n → capo n first s = finishAt i.qp i.cid Stat.capoMissed 0 s.stroke.vt s.quality u) ∧
  (i.due n first = true → s.fcu.safe = false → (i.strict = true → n ≤ i.target) → tooEarly i u = true →
    (i.strict = true → capo n first s = finishAt i.qp i.cid Stat.capoMissed 0 s.stroke.vt s.quality u) ∧
    (i.strict = false → capo n first s = { u with basut := { u.basut with capo := [rebase n i] } })) ∧
  (i.due n first = true → s.fcu.safe = false → (i.strict = true → n ≤ i.target) → tooEarly i u = false → ∀ r v, applyItem i u = (r, v) →
    (∀ st res, r = .done st res → capo n first s = finishAt i.qp i.cid st (w32 res) v.stroke.vt v.quality { v with basut := { v.basut with capo := [] } }) ∧
    (r = .wait → capo n first s = { v with basut := { v.basut with capo := [] } }))

/-- For each of the 25 capo commands: the state and the status it leaves when its change is made at a boundary, and the
status where the spec refuses it there and nothing changes. It rests on the model's choices of logs 77, 78, 81, 82, 94, 99,
154. (R117, R118, R123, R139, R140, R143, R159, R161, R173, R179, R185, R191, R196, R408, R418, R426, R429, R433, R438,
R441, R453, R457, R490, R499, R530, R538, R540) -/
def Obligations.CapoChanges : Prop :=
  ∀ (s : State) (i : CapoItem) (q : Nat) (sub : Sub),
  (i.cmd = .timeSource q sub → (arg 0x0101 1 sub ≠ 1 ∨ s.time.ref10 = true) → applyItem i s = (.done 0 0, setSources (prioList sub) s)) ∧
  (i.cmd = .servoConfig q sub → applyItem i s = (.done 0 0, { s with time := setServo (arg 0x0102 0 sub) (arg 0x0102 1 sub) (arg 0x0102 2 sub) s.time })) ∧
  (i.cmd = .gptpConfig q sub → (3 ∈ rolesOf sub → 1 ∈ s.sources) → applyItem i s = (.done 0 0, applyRoles { s with time := setGptp sub s.time })) ∧
  (i.cmd = .ppsConfig q sub → applyItem i s = (.done 0 0, { s with time := setPps sub s.time })) ∧
  (i.cmd = .planActivate q sub → (tabFind s.stroke.plans (arg 0x0201 0 sub) = none → applyItem i s = (.done Stat.noObject 0, s)) ∧
    (∀ p, tabFind s.stroke.plans (arg 0x0201 0 sub) = some p → p.profile = s.stroke.profile → p.period = s.stroke.period → p.mask &&& ~~~ s.inForce = 0 →
      applyItem i s = (.done 0 0, { s with stroke := { s.stroke with active := some (arg 0x0201 0 sub) } }))) ∧
  (i.cmd = .profileSet q sub → (profileReady s (arg 0x0202 0 sub) = false → applyItem i s = (.done Stat.exhausted 0, s)) ∧
    (profileReady s (arg 0x0202 0 sub) = true → s.stroke.period < profileMin (arg 0x0202 0 sub) → applyItem i s = (.done Stat.accessDenied 0, s)) ∧
    (profileReady s (arg 0x0202 0 sub) = true → profileMin (arg 0x0202 0 sub) ≤ s.stroke.period → applyItem i s = (.done 0 0, setProfile (arg 0x0202 0 sub) s))) ∧
  (i.cmd = .strokeSet q sub → (arg 0x0203 0 sub < profileMin s.stroke.profile → applyItem i s = (.done Stat.accessDenied 0, s)) ∧
    (profileMin s.stroke.profile ≤ arg 0x0203 0 sub → arg 0x0203 0 sub ≠ s.stroke.period →
      applyItem i s = (.done 0 0, { s with stroke := { s.stroke with period := arg 0x0203 0 sub, anchorN := s.stroke.num, anchorVt := s.stroke.vt } }))) ∧
  (i.cmd = .overrunPolicy q sub → applyItem i s =
    (.done 0 0, setCause Src.overload (decide ((if arg 0x0204 1 sub = 0 then 10000 else arg 0x0204 1 sub) ≤ s.stroke.ovl)) 0
      { s with stroke := { s.stroke with policy := arg 0x0204 0 sub, overloadStrokes := arg 0x0204 1 sub } })) ∧
  (i.cmd = .streamBind q sub → (∀ st, streamStatus q sub s = .error st → applyItem i s = (.done st 0, s)) ∧
    (∀ g, streamStatus q sub s = .ok g → ∃ h t, applyItem i s = (.done 0 h, t) ∧ (t.stream (arg 0x0301 0 sub)).ring = some (arg 0x0301 2 sub, arg 0x0301 3 sub, g) ∧
      (t.stream (arg 0x0301 0 sub)).handle = h ∧ (t.stream (arg 0x0301 0 sub)).owner = s.fnOf q ∧ t = { s with ports := t.ports })) ∧
  (∀ img, i.cmd = .ucodeLoad q sub img → ((∃ e ∈ allEngines, freePatchBank (s.engine e).su = none) → applyItem i s = (.done Stat.busy 0, s)) ∧
    ((∀ e ∈ allEngines, freePatchBank (s.engine e).su ≠ none) → ∃ n v, applyItem i s = (.done 0 n, setReady Rdy.plan (setReady Rdy.ucode v)) ∧ v.boot.patch = img.map (fun i => patchOf (imgPayload i)) ∧ v.boot.patchOk = true)) ∧
  (i.cmd = .lgsMode q sub → (arg 0x0400 0 sub = 1 → applyItem i s = (.done 0 0, setLgsMode 1 s.lgs.ringMib sub s)) ∧
    (arg 0x0400 0 sub = 0 → ringClash (arg 0x0400 1 sub) s = true → applyItem i s = (.done Stat.invalidField 0, s)) ∧
    (arg 0x0400 0 sub = 0 → ringClash (arg 0x0400 1 sub) s = false → applyItem i s = (.done 0 0, setLgsMode 0 (arg 0x0400 1 sub) sub s))) ∧
  (i.cmd = .lgsClass q sub → applyItem i s = (.done 0 0, configRecord 0x0403 sub { s with lgs := { s.lgs with classes := tabSet s.lgs.classes (arg 0x0403 0 sub) (arg 0x0403 1 sub, arg 0x0403 2 sub) } })) ∧
  (∀ d, i.cmd = .portConfig q sub (some d) → ∃ t, applyItem i s = (.done 0 0, t) ∧ t.sport (arg 0x0500 0 sub) (arg 0x0500 1 sub) = { (s.sport (arg 0x0500 0 sub) (arg 0x0500 1 sub)) with cfg := d } ∧ t = { s with ports := t.ports }) ∧
  (i.cmd = .trigSchedule q sub → applyItem i s = (.done 0 0, setSchedule (arg 0x0501 0 sub) (arg 0x0501 1 sub) (arg 0x0501 2 sub) (arg 0x0501 3 sub) (arg 0x0501 4 sub) s)) ∧
  (i.cmd = .ingressClass q sub → ∃ t, applyItem i s = (.done 0 0, t) ∧ (t.stream (classStream sub)).cls = some (arg 0x0502 3 sub) ∧ t = { s with ports := t.ports }) ∧
  (∀ d, i.cmd = .lidarRules q sub (some d) → ∃ t, applyItem i s = (.done 0 (rulesOf d).length, t) ∧ (t.sport 1 (arg 0x0503 0 sub)).rules = rulesOf d ∧ t = { s with ports := t.ports }) ∧
  (∀ d, i.cmd = .senConfig q sub (some d) → applyItem i s = (.done 0 0, (senEntries d).foldl (fun v e => (writeReg .pegbox e.1 e.2 none v).2) s)) ∧
  (∀ d, i.cmd = .tmrConfig q sub (some d) → applyItem i s = (.done 0 0, loadTimer (arg 0x0603 0 sub) d s)) ∧
  (i.cmd = .tmrStart q sub → ∃ t, applyItem i s = (.done 0 0, t) ∧ ∀ k, k < 160 → startsTimer sub k = true → (t.timer k).run = true) ∧
  (i.cmd = .tuneSet q sub → ((tabFind s.em.tune (arg 0x0800 0 sub)).isSome = true ∨ s.em.tune.length < 256 → applyItem i s =
      (.done 0 0, tuned (arg 0x0800 0 sub) { s with em := { s.em with tune := tabSet s.em.tune (arg 0x0800 0 sub) (w32 (arg 0x0800 1 sub)) } })) ∧
    (tabFind s.em.tune (arg 0x0800 0 sub) = none → 256 ≤ s.em.tune.length → applyItem i s = (.done Stat.exhausted 0, s))) ∧
  (i.cmd = .tuneClear q sub → (tabFind s.em.tune (arg 0x0801 0 sub) = none → applyItem i s = (.done Stat.noObject 0, s)) ∧
    (tabFind s.em.tune (arg 0x0801 0 sub) ≠ none → applyItem i s = (.done 0 0, tuned (arg 0x0801 0 sub) { s with em := { s.em with tune := tabDel s.em.tune (arg 0x0801 0 sub) } }))) ∧
  (∀ n, i.cmd = .retire q sub → arg 0x0803 0 sub = 0 → arg 0x0803 1 sub = n → n < 208 → s.unitOut 0 n = false → seqHolds s 0 n = false → coursePowered s (engOf n).course = true → s.slotOf (engOf n) = none → proposalOf s 0 n = none →
    ∃ t, applyItem i s = (.done 0 0, t) ∧ (t.engine (engOf n)).st = .retired ∧ unitKey 0 n ∈ t.em.retired) ∧
  (i.cmd = .reinstate q sub → (s.unitOut (arg 0x0804 0 sub) (arg 0x0804 1 sub) = false → applyItem i s = (.done Stat.busy 0, s)) ∧
    (arg 0x0804 0 sub = 3 → s.unitOut 3 (arg 0x0804 1 sub) = true → seqHolds s 3 (arg 0x0804 1 sub) = false → ∃ x t, applyItem i s = (.wait, t) ∧ x ∈ t.health.seqs ∧ x.reinst = true ∧ x.inc = arg 0x0804 1 sub ∧ x.waiter = some (i.qp, i.cid))) ∧
  (i.cmd = .leadSet q sub → (s.brl.present.getLsbD (arg 0x0A01 0 sub) = false → applyItem i s = (.done Stat.noObject 0, s)) ∧
    (s.brl.present.getLsbD (arg 0x0A01 0 sub) = true → applyItem i s = (.done 0 0, setLead (arg 0x0A01 0 sub) s))) ∧
  (i.cmd = .remoteWindow q sub → applyItem i s = (.done 0 0, { s with brl := { s.brl with wins := if arg 0x0A02 3 sub = 0 then tabDel s.brl.wins (arg 0x0A02 1 sub) else tabSet s.brl.wins (arg 0x0A02 1 sub) { cube := arg 0x0A02 0 sub, base := arg 0x0A02 2 sub, size := arg 0x0A02 3 sub } } }))
end

