-- ==== Sys2Proof/Laws/Tables.lean ====
section
/-! SUPPORT. Tables: what an entry reads as after one is set, and that setting keeps the keys rising. -/
namespace Sys2Proof.Machine

theorem tabFind_tabSet_same {α : Type} (t : Tab α) (i : Nat) (v : α) : tabFind (tabSet t i v) i = some v := by
  induction t with
  | nil => simp [tabSet, tabFind]
  | cons p t ih =>
    obtain ⟨k, w⟩ := p
    unfold tabSet
    split
    · simp [tabFind]
    · split
      · simp_all [tabFind]
      · rename_i h
        have ne : i ≠ k := by simpa using h
        simp [tabFind, ne.symm, ih]

theorem tabFind_tabSet_ne {α : Type} (t : Tab α) {i j : Nat} (v : α) (h : j ≠ i) : tabFind (tabSet t i v) j = tabFind t j := by
  induction t with
  | nil => simp [tabSet, tabFind, h.symm]
  | cons p t ih =>
    obtain ⟨k, w⟩ := p
    unfold tabSet
    split
    · simp [tabFind, h.symm]
    · split
      · rename_i e
        have ne : k ≠ j := by
          have : i = k := by simpa using e
          omega
        simp [tabFind, ne]
      · simp [tabFind, ih]

@[simp] theorem tabGet_tabSet_same {α : Type} (t : Tab α) (i : Nat) (v d : α) : tabGet (tabSet t i v) i d = v := by
  simp [tabGet, tabFind_tabSet_same]

theorem tabGet_tabSet_ne {α : Type} (t : Tab α) {i j : Nat} (v d : α) (h : j ≠ i) : tabGet (tabSet t i v) j d = tabGet t j d := by
  simp [tabGet, tabFind_tabSet_ne t v h]

@[simp] theorem tabGet_tabMod_same {α : Type} (t : Tab α) (i : Nat) (d : α) (f : α → α) :
    tabGet (tabMod t i d f) i d = f (tabGet t i d) := by
  simp [tabMod]

theorem tabGet_tabMod_ne {α : Type} (t : Tab α) {i j : Nat} (d d2 : α) (f : α → α) (h : j ≠ i) :
    tabGet (tabMod t i d f) j d2 = tabGet t j d2 := by
  simp [tabMod, tabGet_tabSet_ne t _ d2 h]

theorem tabWf_tail {α : Type} {p : Nat × α} {t : Tab α} (h : tabWf (p :: t) = true) : tabWf t = true := by
  cases t with
  | nil => rfl
  | cons q t => obtain ⟨k, v⟩ := p; obtain ⟨j, w⟩ := q; simp [tabWf] at h; exact h.2

/-- A table is well formed when its head lies below the head of a well-formed tail. -/
theorem tabWf_cons {α : Type} {k : Nat} {v : α} {t : Tab α} (h : tabWf t = true) (hk : ∀ p ∈ t.head?, k < p.1) :
    tabWf ((k, v) :: t) = true := by
  cases t with
  | nil => rfl
  | cons q t => obtain ⟨j, w⟩ := q; simp at hk; simp [tabWf, hk, h]

theorem tabSet_head {α : Type} (t : Tab α) (i : Nat) (v : α) (k : Nat) (hi : k < i) (hk : ∀ p ∈ t.head?, k < p.1) :
    ∀ p ∈ (tabSet t i v).head?, k < p.1 := by
  cases t with
  | nil => simpa [tabSet] using hi
  | cons q t =>
    obtain ⟨j, w⟩ := q
    simp at hk
    unfold tabSet
    split
    · simpa using hi
    · split <;> simpa using hk

theorem tabWf_tabSet {α : Type} (t : Tab α) (i : Nat) (v : α) (h : tabWf t = true) : tabWf (tabSet t i v) = true := by
  induction t with
  | nil => rfl
  | cons p t ih =>
    obtain ⟨k, w⟩ := p
    have ht := tabWf_tail h
    have hk : ∀ q ∈ t.head?, k < q.1 := by
      cases t with
      | nil => simp
      | cons q t => obtain ⟨j, x⟩ := q; simp [tabWf] at h; simpa using h.1
    unfold tabSet
    split
    · exact tabWf_cons h (by simpa)
    · split
      · exact tabWf_cons ht hk
      · rename_i h1 h2
        refine tabWf_cons (ih ht) (tabSet_head t i v k ?_ hk)
        have : i ≠ k := by simpa using h2
        omega

/-! ### Engines -/

@[simp] theorem State.engine_setEngine_same (s : State) (e : Eng) (f : Engine → Engine) :
    (s.setEngine e f).engine e = f (s.engine e) := by
  simp [State.setEngine, State.engine, State.modEng]

theorem State.engine_setEngine_ne (s : State) {e d : Eng} (f : Engine → Engine) (h : engKey d.course d.phys ≠ engKey e.course e.phys) :
    (s.setEngine e f).engine d = s.engine d := by
  simp only [State.setEngine, State.engine, State.modEng]
  exact tabGet_tabMod_ne _ _ _ _ h

end Sys2Proof.Machine
end

