-- ==== Sys2Proof/Laws/Access.lean ====
section
/-! SUPPORT. Reading an entry after it was set, in each table of the state: the entry set, and every other one. -/
namespace Sys2Proof.Machine

@[simp] theorem State.qp_setQp_same (s : State) (q : Nat) (f : Qp → Qp) : (s.setQp q f).qp q = f (s.qp q) :=
  tabGet_tabSet_same _ _ _ _

theorem State.qp_setQp_ne (s : State) {q j : Nat} (f : Qp → Qp) (h : j ≠ q) : (s.setQp q f).qp j = s.qp j :=
  tabGet_tabSet_ne _ _ _ h

@[simp] theorem State.fn_setFn_same (s : State) (v : Nat) (f : AdminRegs → AdminRegs) : (s.setFn v f).fn v = f (s.fn v) :=
  tabGet_tabSet_same _ _ _ _

theorem State.fn_setFn_ne (s : State) {v j : Nat} (f : AdminRegs → AdminRegs) (h : j ≠ v) : (s.setFn v f).fn j = s.fn j :=
  tabGet_tabSet_ne _ _ _ h

@[simp] theorem State.gate_setGate_same (s : State) (k : Nat) (f : Gate → Gate) : (s.setGate k f).gate k = f (s.gate k) :=
  tabGet_tabSet_same _ _ _ _

theorem State.gate_setGate_ne (s : State) {k j : Nat} (f : Gate → Gate) (h : j ≠ k) : (s.setGate k f).gate j = s.gate j :=
  tabGet_tabSet_ne _ _ _ h

@[simp] theorem State.dmaCh_setDma_same (s : State) (k : Nat) (f : DmaCh → DmaCh) : (s.setDma k f).dmaCh k = f (s.dmaCh k) :=
  tabGet_tabSet_same _ _ _ _

theorem State.dmaCh_setDma_ne (s : State) {k j : Nat} (f : DmaCh → DmaCh) (h : j ≠ k) : (s.setDma k f).dmaCh j = s.dmaCh j :=
  tabGet_tabSet_ne _ _ _ h

@[simp] theorem State.track_setTrack_same (s : State) (c : Nat) (f : Track → Track) : (s.setTrack c f).track c = f (s.track c) :=
  tabGet_tabSet_same _ _ _ _

theorem State.track_setTrack_ne (s : State) {c j : Nat} (f : Track → Track) (h : j ≠ c) : (s.setTrack c f).track j = s.track j :=
  tabGet_tabSet_ne _ _ _ h

@[simp] theorem State.port_setPort_same (s : State) (p : Nat) (f : GptpPort → GptpPort) : (s.setPort p f).port p = f (s.port p) :=
  tabGet_tabSet_same _ _ _ _

theorem State.port_setPort_ne (s : State) {p j : Nat} (f : GptpPort → GptpPort) (h : j ≠ p) : (s.setPort p f).port j = s.port j :=
  tabGet_tabSet_ne _ _ _ h

@[simp] theorem State.ecc_setEcc_same (s : State) (k : Nat) (f : EccRec → EccRec) : (s.setEcc k f).ecc k = f (s.ecc k) :=
  tabGet_tabSet_same _ _ _ _

theorem State.ecc_setEcc_ne (s : State) {k j : Nat} (f : EccRec → EccRec) (h : j ≠ k) : (s.setEcc k f).ecc j = s.ecc j :=
  tabGet_tabSet_ne _ _ _ h

@[simp] theorem State.stream_setStream_same (s : State) (i : Nat) (f : IngStream → IngStream) : (s.setStream i f).stream i = f (s.stream i) :=
  tabGet_tabSet_same _ _ _ _

theorem State.stream_setStream_ne (s : State) {i j : Nat} (f : IngStream → IngStream) (h : j ≠ i) : (s.setStream i f).stream j = s.stream j :=
  tabGet_tabSet_ne _ _ _ h

@[simp] theorem State.trig_setTrig_same (s : State) (i : Nat) (f : Trigger → Trigger) : (s.setTrig i f).trig i = f (s.trig i) :=
  tabGet_tabSet_same _ _ _ _

theorem State.trig_setTrig_ne (s : State) {i j : Nat} (f : Trigger → Trigger) (h : j ≠ i) : (s.setTrig i f).trig j = s.trig j :=
  tabGet_tabSet_ne _ _ _ h

@[simp] theorem State.timer_setTimer_same (s : State) (i : Nat) (f : Timer → Timer) : (s.setTimer i f).timer i = f (s.timer i) :=
  tabGet_tabSet_same _ _ _ _

theorem State.timer_setTimer_ne (s : State) {i j : Nat} (f : Timer → Timer) (h : j ≠ i) : (s.setTimer i f).timer j = s.timer j :=
  tabGet_tabSet_ne _ _ _ h

@[simp] theorem State.sport_setSport_same (s : State) (ty p : Nat) (f : Port → Port) : (s.setSport ty p f).sport ty p = f (s.sport ty p) :=
  tabGet_tabSet_same _ _ _ _

theorem State.sport_setSport_ne (s : State) {ty p ty2 p2 : Nat} (f : Port → Port) (h : 8 * ty2 + p2 ≠ 8 * ty + p) :
    (s.setSport ty p f).sport ty2 p2 = s.sport ty2 p2 :=
  tabGet_tabSet_ne _ _ _ h

end Sys2Proof.Machine
end

