-- ==== Sys2Proof/Laws/State.lean ====
section
/-! SUPPORT. Every field after every update of one block, so that no later proof unfolds a record update. -/
namespace Sys2Proof.Machine

/-! ### `State.modPins` -/

@[simp] theorem State.modPins_pins (s : State) (f) : (s.modPins f).pins = f s.pins := rfl
@[simp] theorem State.modPins_boot (s : State) (f) : (s.modPins f).boot = s.boot := rfl
@[simp] theorem State.modPins_fuses (s : State) (f) : (s.modPins f).fuses = s.fuses := rfl
@[simp] theorem State.modPins_em (s : State) (f) : (s.modPins f).em = s.em := rfl
@[simp] theorem State.modPins_link (s : State) (f) : (s.modPins f).link = s.link := rfl
@[simp] theorem State.modPins_basut (s : State) (f) : (s.modPins f).basut = s.basut := rfl
@[simp] theorem State.modPins_time (s : State) (f) : (s.modPins f).time = s.time := rfl
@[simp] theorem State.modPins_stroke (s : State) (f) : (s.modPins f).stroke = s.stroke := rfl
@[simp] theorem State.modPins_snap (s : State) (f) : (s.modPins f).snap = s.snap := rfl
@[simp] theorem State.modPins_fcu (s : State) (f) : (s.modPins f).fcu = s.fcu := rfl
@[simp] theorem State.modPins_health (s : State) (f) : (s.modPins f).health = s.health := rfl
@[simp] theorem State.modPins_sen (s : State) (f) : (s.modPins f).sen = s.sen := rfl
@[simp] theorem State.modPins_ports (s : State) (f) : (s.modPins f).ports = s.ports := rfl
@[simp] theorem State.modPins_eng (s : State) (f) : (s.modPins f).eng = s.eng := rfl
@[simp] theorem State.modPins_fab (s : State) (f) : (s.modPins f).fab = s.fab := rfl
@[simp] theorem State.modPins_dma (s : State) (f) : (s.modPins f).dma = s.dma := rfl
@[simp] theorem State.modPins_lgs (s : State) (f) : (s.modPins f).lgs = s.lgs := rfl
@[simp] theorem State.modPins_brl (s : State) (f) : (s.modPins f).brl = s.brl := rfl
@[simp] theorem State.modPins_out (s : State) (f) : (s.modPins f).out = s.out := rfl
@[simp] theorem State.modPins_free (s : State) (f) : (s.modPins f).free = s.free := rfl
@[simp] theorem State.modPins_pending (s : State) (f) : (s.modPins f).pending = s.pending := rfl

/-! ### `State.modBoot` -/

@[simp] theorem State.modBoot_pins (s : State) (f) : (s.modBoot f).pins = s.pins := rfl
@[simp] theorem State.modBoot_boot (s : State) (f) : (s.modBoot f).boot = f s.boot := rfl
@[simp] theorem State.modBoot_fuses (s : State) (f) : (s.modBoot f).fuses = s.fuses := rfl
@[simp] theorem State.modBoot_em (s : State) (f) : (s.modBoot f).em = s.em := rfl
@[simp] theorem State.modBoot_link (s : State) (f) : (s.modBoot f).link = s.link := rfl
@[simp] theorem State.modBoot_basut (s : State) (f) : (s.modBoot f).basut = s.basut := rfl
@[simp] theorem State.modBoot_time (s : State) (f) : (s.modBoot f).time = s.time := rfl
@[simp] theorem State.modBoot_stroke (s : State) (f) : (s.modBoot f).stroke = s.stroke := rfl
@[simp] theorem State.modBoot_snap (s : State) (f) : (s.modBoot f).snap = s.snap := rfl
@[simp] theorem State.modBoot_fcu (s : State) (f) : (s.modBoot f).fcu = s.fcu := rfl
@[simp] theorem State.modBoot_health (s : State) (f) : (s.modBoot f).health = s.health := rfl
@[simp] theorem State.modBoot_sen (s : State) (f) : (s.modBoot f).sen = s.sen := rfl
@[simp] theorem State.modBoot_ports (s : State) (f) : (s.modBoot f).ports = s.ports := rfl
@[simp] theorem State.modBoot_eng (s : State) (f) : (s.modBoot f).eng = s.eng := rfl
@[simp] theorem State.modBoot_fab (s : State) (f) : (s.modBoot f).fab = s.fab := rfl
@[simp] theorem State.modBoot_dma (s : State) (f) : (s.modBoot f).dma = s.dma := rfl
@[simp] theorem State.modBoot_lgs (s : State) (f) : (s.modBoot f).lgs = s.lgs := rfl
@[simp] theorem State.modBoot_brl (s : State) (f) : (s.modBoot f).brl = s.brl := rfl
@[simp] theorem State.modBoot_out (s : State) (f) : (s.modBoot f).out = s.out := rfl
@[simp] theorem State.modBoot_free (s : State) (f) : (s.modBoot f).free = s.free := rfl
@[simp] theorem State.modBoot_pending (s : State) (f) : (s.modBoot f).pending = s.pending := rfl

/-! ### `State.modFuses` -/

@[simp] theorem State.modFuses_pins (s : State) (f) : (s.modFuses f).pins = s.pins := rfl
@[simp] theorem State.modFuses_boot (s : State) (f) : (s.modFuses f).boot = s.boot := rfl
@[simp] theorem State.modFuses_fuses (s : State) (f) : (s.modFuses f).fuses = f s.fuses := rfl
@[simp] theorem State.modFuses_em (s : State) (f) : (s.modFuses f).em = s.em := rfl
@[simp] theorem State.modFuses_link (s : State) (f) : (s.modFuses f).link = s.link := rfl
@[simp] theorem State.modFuses_basut (s : State) (f) : (s.modFuses f).basut = s.basut := rfl
@[simp] theorem State.modFuses_time (s : State) (f) : (s.modFuses f).time = s.time := rfl
@[simp] theorem State.modFuses_stroke (s : State) (f) : (s.modFuses f).stroke = s.stroke := rfl
@[simp] theorem State.modFuses_snap (s : State) (f) : (s.modFuses f).snap = s.snap := rfl
@[simp] theorem State.modFuses_fcu (s : State) (f) : (s.modFuses f).fcu = s.fcu := rfl
@[simp] theorem State.modFuses_health (s : State) (f) : (s.modFuses f).health = s.health := rfl
@[simp] theorem State.modFuses_sen (s : State) (f) : (s.modFuses f).sen = s.sen := rfl
@[simp] theorem State.modFuses_ports (s : State) (f) : (s.modFuses f).ports = s.ports := rfl
@[simp] theorem State.modFuses_eng (s : State) (f) : (s.modFuses f).eng = s.eng := rfl
@[simp] theorem State.modFuses_fab (s : State) (f) : (s.modFuses f).fab = s.fab := rfl
@[simp] theorem State.modFuses_dma (s : State) (f) : (s.modFuses f).dma = s.dma := rfl
@[simp] theorem State.modFuses_lgs (s : State) (f) : (s.modFuses f).lgs = s.lgs := rfl
@[simp] theorem State.modFuses_brl (s : State) (f) : (s.modFuses f).brl = s.brl := rfl
@[simp] theorem State.modFuses_out (s : State) (f) : (s.modFuses f).out = s.out := rfl
@[simp] theorem State.modFuses_free (s : State) (f) : (s.modFuses f).free = s.free := rfl
@[simp] theorem State.modFuses_pending (s : State) (f) : (s.modFuses f).pending = s.pending := rfl

/-! ### `State.modEm` -/

@[simp] theorem State.modEm_pins (s : State) (f) : (s.modEm f).pins = s.pins := rfl
@[simp] theorem State.modEm_boot (s : State) (f) : (s.modEm f).boot = s.boot := rfl
@[simp] theorem State.modEm_fuses (s : State) (f) : (s.modEm f).fuses = s.fuses := rfl
@[simp] theorem State.modEm_em (s : State) (f) : (s.modEm f).em = f s.em := rfl
@[simp] theorem State.modEm_link (s : State) (f) : (s.modEm f).link = s.link := rfl
@[simp] theorem State.modEm_basut (s : State) (f) : (s.modEm f).basut = s.basut := rfl
@[simp] theorem State.modEm_time (s : State) (f) : (s.modEm f).time = s.time := rfl
@[simp] theorem State.modEm_stroke (s : State) (f) : (s.modEm f).stroke = s.stroke := rfl
@[simp] theorem State.modEm_snap (s : State) (f) : (s.modEm f).snap = s.snap := rfl
@[simp] theorem State.modEm_fcu (s : State) (f) : (s.modEm f).fcu = s.fcu := rfl
@[simp] theorem State.modEm_health (s : State) (f) : (s.modEm f).health = s.health := rfl
@[simp] theorem State.modEm_sen (s : State) (f) : (s.modEm f).sen = s.sen := rfl
@[simp] theorem State.modEm_ports (s : State) (f) : (s.modEm f).ports = s.ports := rfl
@[simp] theorem State.modEm_eng (s : State) (f) : (s.modEm f).eng = s.eng := rfl
@[simp] theorem State.modEm_fab (s : State) (f) : (s.modEm f).fab = s.fab := rfl
@[simp] theorem State.modEm_dma (s : State) (f) : (s.modEm f).dma = s.dma := rfl
@[simp] theorem State.modEm_lgs (s : State) (f) : (s.modEm f).lgs = s.lgs := rfl
@[simp] theorem State.modEm_brl (s : State) (f) : (s.modEm f).brl = s.brl := rfl
@[simp] theorem State.modEm_out (s : State) (f) : (s.modEm f).out = s.out := rfl
@[simp] theorem State.modEm_free (s : State) (f) : (s.modEm f).free = s.free := rfl
@[simp] theorem State.modEm_pending (s : State) (f) : (s.modEm f).pending = s.pending := rfl

/-! ### `State.modLink` -/

@[simp] theorem State.modLink_pins (s : State) (f) : (s.modLink f).pins = s.pins := rfl
@[simp] theorem State.modLink_boot (s : State) (f) : (s.modLink f).boot = s.boot := rfl
@[simp] theorem State.modLink_fuses (s : State) (f) : (s.modLink f).fuses = s.fuses := rfl
@[simp] theorem State.modLink_em (s : State) (f) : (s.modLink f).em = s.em := rfl
@[simp] theorem State.modLink_link (s : State) (f) : (s.modLink f).link = f s.link := rfl
@[simp] theorem State.modLink_basut (s : State) (f) : (s.modLink f).basut = s.basut := rfl
@[simp] theorem State.modLink_time (s : State) (f) : (s.modLink f).time = s.time := rfl
@[simp] theorem State.modLink_stroke (s : State) (f) : (s.modLink f).stroke = s.stroke := rfl
@[simp] theorem State.modLink_snap (s : State) (f) : (s.modLink f).snap = s.snap := rfl
@[simp] theorem State.modLink_fcu (s : State) (f) : (s.modLink f).fcu = s.fcu := rfl
@[simp] theorem State.modLink_health (s : State) (f) : (s.modLink f).health = s.health := rfl
@[simp] theorem State.modLink_sen (s : State) (f) : (s.modLink f).sen = s.sen := rfl
@[simp] theorem State.modLink_ports (s : State) (f) : (s.modLink f).ports = s.ports := rfl
@[simp] theorem State.modLink_eng (s : State) (f) : (s.modLink f).eng = s.eng := rfl
@[simp] theorem State.modLink_fab (s : State) (f) : (s.modLink f).fab = s.fab := rfl
@[simp] theorem State.modLink_dma (s : State) (f) : (s.modLink f).dma = s.dma := rfl
@[simp] theorem State.modLink_lgs (s : State) (f) : (s.modLink f).lgs = s.lgs := rfl
@[simp] theorem State.modLink_brl (s : State) (f) : (s.modLink f).brl = s.brl := rfl
@[simp] theorem State.modLink_out (s : State) (f) : (s.modLink f).out = s.out := rfl
@[simp] theorem State.modLink_free (s : State) (f) : (s.modLink f).free = s.free := rfl
@[simp] theorem State.modLink_pending (s : State) (f) : (s.modLink f).pending = s.pending := rfl

/-! ### `State.modBasut` -/

@[simp] theorem State.modBasut_pins (s : State) (f) : (s.modBasut f).pins = s.pins := rfl
@[simp] theorem State.modBasut_boot (s : State) (f) : (s.modBasut f).boot = s.boot := rfl
@[simp] theorem State.modBasut_fuses (s : State) (f) : (s.modBasut f).fuses = s.fuses := rfl
@[simp] theorem State.modBasut_em (s : State) (f) : (s.modBasut f).em = s.em := rfl
@[simp] theorem State.modBasut_link (s : State) (f) : (s.modBasut f).link = s.link := rfl
@[simp] theorem State.modBasut_basut (s : State) (f) : (s.modBasut f).basut = f s.basut := rfl
@[simp] theorem State.modBasut_time (s : State) (f) : (s.modBasut f).time = s.time := rfl
@[simp] theorem State.modBasut_stroke (s : State) (f) : (s.modBasut f).stroke = s.stroke := rfl
@[simp] theorem State.modBasut_snap (s : State) (f) : (s.modBasut f).snap = s.snap := rfl
@[simp] theorem State.modBasut_fcu (s : State) (f) : (s.modBasut f).fcu = s.fcu := rfl
@[simp] theorem State.modBasut_health (s : State) (f) : (s.modBasut f).health = s.health := rfl
@[simp] theorem State.modBasut_sen (s : State) (f) : (s.modBasut f).sen = s.sen := rfl
@[simp] theorem State.modBasut_ports (s : State) (f) : (s.modBasut f).ports = s.ports := rfl
@[simp] theorem State.modBasut_eng (s : State) (f) : (s.modBasut f).eng = s.eng := rfl
@[simp] theorem State.modBasut_fab (s : State) (f) : (s.modBasut f).fab = s.fab := rfl
@[simp] theorem State.modBasut_dma (s : State) (f) : (s.modBasut f).dma = s.dma := rfl
@[simp] theorem State.modBasut_lgs (s : State) (f) : (s.modBasut f).lgs = s.lgs := rfl
@[simp] theorem State.modBasut_brl (s : State) (f) : (s.modBasut f).brl = s.brl := rfl
@[simp] theorem State.modBasut_out (s : State) (f) : (s.modBasut f).out = s.out := rfl
@[simp] theorem State.modBasut_free (s : State) (f) : (s.modBasut f).free = s.free := rfl
@[simp] theorem State.modBasut_pending (s : State) (f) : (s.modBasut f).pending = s.pending := rfl

/-! ### `State.modTime` -/

@[simp] theorem State.modTime_pins (s : State) (f) : (s.modTime f).pins = s.pins := rfl
@[simp] theorem State.modTime_boot (s : State) (f) : (s.modTime f).boot = s.boot := rfl
@[simp] theorem State.modTime_fuses (s : State) (f) : (s.modTime f).fuses = s.fuses := rfl
@[simp] theorem State.modTime_em (s : State) (f) : (s.modTime f).em = s.em := rfl
@[simp] theorem State.modTime_link (s : State) (f) : (s.modTime f).link = s.link := rfl
@[simp] theorem State.modTime_basut (s : State) (f) : (s.modTime f).basut = s.basut := rfl
@[simp] theorem State.modTime_time (s : State) (f) : (s.modTime f).time = f s.time := rfl
@[simp] theorem State.modTime_stroke (s : State) (f) : (s.modTime f).stroke = s.stroke := rfl
@[simp] theorem State.modTime_snap (s : State) (f) : (s.modTime f).snap = s.snap := rfl
@[simp] theorem State.modTime_fcu (s : State) (f) : (s.modTime f).fcu = s.fcu := rfl
@[simp] theorem State.modTime_health (s : State) (f) : (s.modTime f).health = s.health := rfl
@[simp] theorem State.modTime_sen (s : State) (f) : (s.modTime f).sen = s.sen := rfl
@[simp] theorem State.modTime_ports (s : State) (f) : (s.modTime f).ports = s.ports := rfl
@[simp] theorem State.modTime_eng (s : State) (f) : (s.modTime f).eng = s.eng := rfl
@[simp] theorem State.modTime_fab (s : State) (f) : (s.modTime f).fab = s.fab := rfl
@[simp] theorem State.modTime_dma (s : State) (f) : (s.modTime f).dma = s.dma := rfl
@[simp] theorem State.modTime_lgs (s : State) (f) : (s.modTime f).lgs = s.lgs := rfl
@[simp] theorem State.modTime_brl (s : State) (f) : (s.modTime f).brl = s.brl := rfl
@[simp] theorem State.modTime_out (s : State) (f) : (s.modTime f).out = s.out := rfl
@[simp] theorem State.modTime_free (s : State) (f) : (s.modTime f).free = s.free := rfl
@[simp] theorem State.modTime_pending (s : State) (f) : (s.modTime f).pending = s.pending := rfl

/-! ### `State.modStroke` -/

@[simp] theorem State.modStroke_pins (s : State) (f) : (s.modStroke f).pins = s.pins := rfl
@[simp] theorem State.modStroke_boot (s : State) (f) : (s.modStroke f).boot = s.boot := rfl
@[simp] theorem State.modStroke_fuses (s : State) (f) : (s.modStroke f).fuses = s.fuses := rfl
@[simp] theorem State.modStroke_em (s : State) (f) : (s.modStroke f).em = s.em := rfl
@[simp] theorem State.modStroke_link (s : State) (f) : (s.modStroke f).link = s.link := rfl
@[simp] theorem State.modStroke_basut (s : State) (f) : (s.modStroke f).basut = s.basut := rfl
@[simp] theorem State.modStroke_time (s : State) (f) : (s.modStroke f).time = s.time := rfl
@[simp] theorem State.modStroke_stroke (s : State) (f) : (s.modStroke f).stroke = f s.stroke := rfl
@[simp] theorem State.modStroke_snap (s : State) (f) : (s.modStroke f).snap = s.snap := rfl
@[simp] theorem State.modStroke_fcu (s : State) (f) : (s.modStroke f).fcu = s.fcu := rfl
@[simp] theorem State.modStroke_health (s : State) (f) : (s.modStroke f).health = s.health := rfl
@[simp] theorem State.modStroke_sen (s : State) (f) : (s.modStroke f).sen = s.sen := rfl
@[simp] theorem State.modStroke_ports (s : State) (f) : (s.modStroke f).ports = s.ports := rfl
@[simp] theorem State.modStroke_eng (s : State) (f) : (s.modStroke f).eng = s.eng := rfl
@[simp] theorem State.modStroke_fab (s : State) (f) : (s.modStroke f).fab = s.fab := rfl
@[simp] theorem State.modStroke_dma (s : State) (f) : (s.modStroke f).dma = s.dma := rfl
@[simp] theorem State.modStroke_lgs (s : State) (f) : (s.modStroke f).lgs = s.lgs := rfl
@[simp] theorem State.modStroke_brl (s : State) (f) : (s.modStroke f).brl = s.brl := rfl
@[simp] theorem State.modStroke_out (s : State) (f) : (s.modStroke f).out = s.out := rfl
@[simp] theorem State.modStroke_free (s : State) (f) : (s.modStroke f).free = s.free := rfl
@[simp] theorem State.modStroke_pending (s : State) (f) : (s.modStroke f).pending = s.pending := rfl

/-! ### `State.modSnap` -/

@[simp] theorem State.modSnap_pins (s : State) (f) : (s.modSnap f).pins = s.pins := rfl
@[simp] theorem State.modSnap_boot (s : State) (f) : (s.modSnap f).boot = s.boot := rfl
@[simp] theorem State.modSnap_fuses (s : State) (f) : (s.modSnap f).fuses = s.fuses := rfl
@[simp] theorem State.modSnap_em (s : State) (f) : (s.modSnap f).em = s.em := rfl
@[simp] theorem State.modSnap_link (s : State) (f) : (s.modSnap f).link = s.link := rfl
@[simp] theorem State.modSnap_basut (s : State) (f) : (s.modSnap f).basut = s.basut := rfl
@[simp] theorem State.modSnap_time (s : State) (f) : (s.modSnap f).time = s.time := rfl
@[simp] theorem State.modSnap_stroke (s : State) (f) : (s.modSnap f).stroke = s.stroke := rfl
@[simp] theorem State.modSnap_snap (s : State) (f) : (s.modSnap f).snap = f s.snap := rfl
@[simp] theorem State.modSnap_fcu (s : State) (f) : (s.modSnap f).fcu = s.fcu := rfl
@[simp] theorem State.modSnap_health (s : State) (f) : (s.modSnap f).health = s.health := rfl
@[simp] theorem State.modSnap_sen (s : State) (f) : (s.modSnap f).sen = s.sen := rfl
@[simp] theorem State.modSnap_ports (s : State) (f) : (s.modSnap f).ports = s.ports := rfl
@[simp] theorem State.modSnap_eng (s : State) (f) : (s.modSnap f).eng = s.eng := rfl
@[simp] theorem State.modSnap_fab (s : State) (f) : (s.modSnap f).fab = s.fab := rfl
@[simp] theorem State.modSnap_dma (s : State) (f) : (s.modSnap f).dma = s.dma := rfl
@[simp] theorem State.modSnap_lgs (s : State) (f) : (s.modSnap f).lgs = s.lgs := rfl
@[simp] theorem State.modSnap_brl (s : State) (f) : (s.modSnap f).brl = s.brl := rfl
@[simp] theorem State.modSnap_out (s : State) (f) : (s.modSnap f).out = s.out := rfl
@[simp] theorem State.modSnap_free (s : State) (f) : (s.modSnap f).free = s.free := rfl
@[simp] theorem State.modSnap_pending (s : State) (f) : (s.modSnap f).pending = s.pending := rfl

/-! ### `State.modFcu` -/

@[simp] theorem State.modFcu_pins (s : State) (f) : (s.modFcu f).pins = s.pins := rfl
@[simp] theorem State.modFcu_boot (s : State) (f) : (s.modFcu f).boot = s.boot := rfl
@[simp] theorem State.modFcu_fuses (s : State) (f) : (s.modFcu f).fuses = s.fuses := rfl
@[simp] theorem State.modFcu_em (s : State) (f) : (s.modFcu f).em = s.em := rfl
@[simp] theorem State.modFcu_link (s : State) (f) : (s.modFcu f).link = s.link := rfl
@[simp] theorem State.modFcu_basut (s : State) (f) : (s.modFcu f).basut = s.basut := rfl
@[simp] theorem State.modFcu_time (s : State) (f) : (s.modFcu f).time = s.time := rfl
@[simp] theorem State.modFcu_stroke (s : State) (f) : (s.modFcu f).stroke = s.stroke := rfl
@[simp] theorem State.modFcu_snap (s : State) (f) : (s.modFcu f).snap = s.snap := rfl
@[simp] theorem State.modFcu_fcu (s : State) (f) : (s.modFcu f).fcu = f s.fcu := rfl
@[simp] theorem State.modFcu_health (s : State) (f) : (s.modFcu f).health = s.health := rfl
@[simp] theorem State.modFcu_sen (s : State) (f) : (s.modFcu f).sen = s.sen := rfl
@[simp] theorem State.modFcu_ports (s : State) (f) : (s.modFcu f).ports = s.ports := rfl
@[simp] theorem State.modFcu_eng (s : State) (f) : (s.modFcu f).eng = s.eng := rfl
@[simp] theorem State.modFcu_fab (s : State) (f) : (s.modFcu f).fab = s.fab := rfl
@[simp] theorem State.modFcu_dma (s : State) (f) : (s.modFcu f).dma = s.dma := rfl
@[simp] theorem State.modFcu_lgs (s : State) (f) : (s.modFcu f).lgs = s.lgs := rfl
@[simp] theorem State.modFcu_brl (s : State) (f) : (s.modFcu f).brl = s.brl := rfl
@[simp] theorem State.modFcu_out (s : State) (f) : (s.modFcu f).out = s.out := rfl
@[simp] theorem State.modFcu_free (s : State) (f) : (s.modFcu f).free = s.free := rfl
@[simp] theorem State.modFcu_pending (s : State) (f) : (s.modFcu f).pending = s.pending := rfl

/-! ### `State.modHealth` -/

@[simp] theorem State.modHealth_pins (s : State) (f) : (s.modHealth f).pins = s.pins := rfl
@[simp] theorem State.modHealth_boot (s : State) (f) : (s.modHealth f).boot = s.boot := rfl
@[simp] theorem State.modHealth_fuses (s : State) (f) : (s.modHealth f).fuses = s.fuses := rfl
@[simp] theorem State.modHealth_em (s : State) (f) : (s.modHealth f).em = s.em := rfl
@[simp] theorem State.modHealth_link (s : State) (f) : (s.modHealth f).link = s.link := rfl
@[simp] theorem State.modHealth_basut (s : State) (f) : (s.modHealth f).basut = s.basut := rfl
@[simp] theorem State.modHealth_time (s : State) (f) : (s.modHealth f).time = s.time := rfl
@[simp] theorem State.modHealth_stroke (s : State) (f) : (s.modHealth f).stroke = s.stroke := rfl
@[simp] theorem State.modHealth_snap (s : State) (f) : (s.modHealth f).snap = s.snap := rfl
@[simp] theorem State.modHealth_fcu (s : State) (f) : (s.modHealth f).fcu = s.fcu := rfl
@[simp] theorem State.modHealth_health (s : State) (f) : (s.modHealth f).health = f s.health := rfl
@[simp] theorem State.modHealth_sen (s : State) (f) : (s.modHealth f).sen = s.sen := rfl
@[simp] theorem State.modHealth_ports (s : State) (f) : (s.modHealth f).ports = s.ports := rfl
@[simp] theorem State.modHealth_eng (s : State) (f) : (s.modHealth f).eng = s.eng := rfl
@[simp] theorem State.modHealth_fab (s : State) (f) : (s.modHealth f).fab = s.fab := rfl
@[simp] theorem State.modHealth_dma (s : State) (f) : (s.modHealth f).dma = s.dma := rfl
@[simp] theorem State.modHealth_lgs (s : State) (f) : (s.modHealth f).lgs = s.lgs := rfl
@[simp] theorem State.modHealth_brl (s : State) (f) : (s.modHealth f).brl = s.brl := rfl
@[simp] theorem State.modHealth_out (s : State) (f) : (s.modHealth f).out = s.out := rfl
@[simp] theorem State.modHealth_free (s : State) (f) : (s.modHealth f).free = s.free := rfl
@[simp] theorem State.modHealth_pending (s : State) (f) : (s.modHealth f).pending = s.pending := rfl

/-! ### `State.modSen` -/

@[simp] theorem State.modSen_pins (s : State) (f) : (s.modSen f).pins = s.pins := rfl
@[simp] theorem State.modSen_boot (s : State) (f) : (s.modSen f).boot = s.boot := rfl
@[simp] theorem State.modSen_fuses (s : State) (f) : (s.modSen f).fuses = s.fuses := rfl
@[simp] theorem State.modSen_em (s : State) (f) : (s.modSen f).em = s.em := rfl
@[simp] theorem State.modSen_link (s : State) (f) : (s.modSen f).link = s.link := rfl
@[simp] theorem State.modSen_basut (s : State) (f) : (s.modSen f).basut = s.basut := rfl
@[simp] theorem State.modSen_time (s : State) (f) : (s.modSen f).time = s.time := rfl
@[simp] theorem State.modSen_stroke (s : State) (f) : (s.modSen f).stroke = s.stroke := rfl
@[simp] theorem State.modSen_snap (s : State) (f) : (s.modSen f).snap = s.snap := rfl
@[simp] theorem State.modSen_fcu (s : State) (f) : (s.modSen f).fcu = s.fcu := rfl
@[simp] theorem State.modSen_health (s : State) (f) : (s.modSen f).health = s.health := rfl
@[simp] theorem State.modSen_sen (s : State) (f) : (s.modSen f).sen = f s.sen := rfl
@[simp] theorem State.modSen_ports (s : State) (f) : (s.modSen f).ports = s.ports := rfl
@[simp] theorem State.modSen_eng (s : State) (f) : (s.modSen f).eng = s.eng := rfl
@[simp] theorem State.modSen_fab (s : State) (f) : (s.modSen f).fab = s.fab := rfl
@[simp] theorem State.modSen_dma (s : State) (f) : (s.modSen f).dma = s.dma := rfl
@[simp] theorem State.modSen_lgs (s : State) (f) : (s.modSen f).lgs = s.lgs := rfl
@[simp] theorem State.modSen_brl (s : State) (f) : (s.modSen f).brl = s.brl := rfl
@[simp] theorem State.modSen_out (s : State) (f) : (s.modSen f).out = s.out := rfl
@[simp] theorem State.modSen_free (s : State) (f) : (s.modSen f).free = s.free := rfl
@[simp] theorem State.modSen_pending (s : State) (f) : (s.modSen f).pending = s.pending := rfl

/-! ### `State.modPorts` -/

@[simp] theorem State.modPorts_pins (s : State) (f) : (s.modPorts f).pins = s.pins := rfl
@[simp] theorem State.modPorts_boot (s : State) (f) : (s.modPorts f).boot = s.boot := rfl
@[simp] theorem State.modPorts_fuses (s : State) (f) : (s.modPorts f).fuses = s.fuses := rfl
@[simp] theorem State.modPorts_em (s : State) (f) : (s.modPorts f).em = s.em := rfl
@[simp] theorem State.modPorts_link (s : State) (f) : (s.modPorts f).link = s.link := rfl
@[simp] theorem State.modPorts_basut (s : State) (f) : (s.modPorts f).basut = s.basut := rfl
@[simp] theorem State.modPorts_time (s : State) (f) : (s.modPorts f).time = s.time := rfl
@[simp] theorem State.modPorts_stroke (s : State) (f) : (s.modPorts f).stroke = s.stroke := rfl
@[simp] theorem State.modPorts_snap (s : State) (f) : (s.modPorts f).snap = s.snap := rfl
@[simp] theorem State.modPorts_fcu (s : State) (f) : (s.modPorts f).fcu = s.fcu := rfl
@[simp] theorem State.modPorts_health (s : State) (f) : (s.modPorts f).health = s.health := rfl
@[simp] theorem State.modPorts_sen (s : State) (f) : (s.modPorts f).sen = s.sen := rfl
@[simp] theorem State.modPorts_ports (s : State) (f) : (s.modPorts f).ports = f s.ports := rfl
@[simp] theorem State.modPorts_eng (s : State) (f) : (s.modPorts f).eng = s.eng := rfl
@[simp] theorem State.modPorts_fab (s : State) (f) : (s.modPorts f).fab = s.fab := rfl
@[simp] theorem State.modPorts_dma (s : State) (f) : (s.modPorts f).dma = s.dma := rfl
@[simp] theorem State.modPorts_lgs (s : State) (f) : (s.modPorts f).lgs = s.lgs := rfl
@[simp] theorem State.modPorts_brl (s : State) (f) : (s.modPorts f).brl = s.brl := rfl
@[simp] theorem State.modPorts_out (s : State) (f) : (s.modPorts f).out = s.out := rfl
@[simp] theorem State.modPorts_free (s : State) (f) : (s.modPorts f).free = s.free := rfl
@[simp] theorem State.modPorts_pending (s : State) (f) : (s.modPorts f).pending = s.pending := rfl

/-! ### `State.modEng` -/

@[simp] theorem State.modEng_pins (s : State) (f) : (s.modEng f).pins = s.pins := rfl
@[simp] theorem State.modEng_boot (s : State) (f) : (s.modEng f).boot = s.boot := rfl
@[simp] theorem State.modEng_fuses (s : State) (f) : (s.modEng f).fuses = s.fuses := rfl
@[simp] theorem State.modEng_em (s : State) (f) : (s.modEng f).em = s.em := rfl
@[simp] theorem State.modEng_link (s : State) (f) : (s.modEng f).link = s.link := rfl
@[simp] theorem State.modEng_basut (s : State) (f) : (s.modEng f).basut = s.basut := rfl
@[simp] theorem State.modEng_time (s : State) (f) : (s.modEng f).time = s.time := rfl
@[simp] theorem State.modEng_stroke (s : State) (f) : (s.modEng f).stroke = s.stroke := rfl
@[simp] theorem State.modEng_snap (s : State) (f) : (s.modEng f).snap = s.snap := rfl
@[simp] theorem State.modEng_fcu (s : State) (f) : (s.modEng f).fcu = s.fcu := rfl
@[simp] theorem State.modEng_health (s : State) (f) : (s.modEng f).health = s.health := rfl
@[simp] theorem State.modEng_sen (s : State) (f) : (s.modEng f).sen = s.sen := rfl
@[simp] theorem State.modEng_ports (s : State) (f) : (s.modEng f).ports = s.ports := rfl
@[simp] theorem State.modEng_eng (s : State) (f) : (s.modEng f).eng = f s.eng := rfl
@[simp] theorem State.modEng_fab (s : State) (f) : (s.modEng f).fab = s.fab := rfl
@[simp] theorem State.modEng_dma (s : State) (f) : (s.modEng f).dma = s.dma := rfl
@[simp] theorem State.modEng_lgs (s : State) (f) : (s.modEng f).lgs = s.lgs := rfl
@[simp] theorem State.modEng_brl (s : State) (f) : (s.modEng f).brl = s.brl := rfl
@[simp] theorem State.modEng_out (s : State) (f) : (s.modEng f).out = s.out := rfl
@[simp] theorem State.modEng_free (s : State) (f) : (s.modEng f).free = s.free := rfl
@[simp] theorem State.modEng_pending (s : State) (f) : (s.modEng f).pending = s.pending := rfl

/-! ### `State.modFab` -/

@[simp] theorem State.modFab_pins (s : State) (f) : (s.modFab f).pins = s.pins := rfl
@[simp] theorem State.modFab_boot (s : State) (f) : (s.modFab f).boot = s.boot := rfl
@[simp] theorem State.modFab_fuses (s : State) (f) : (s.modFab f).fuses = s.fuses := rfl
@[simp] theorem State.modFab_em (s : State) (f) : (s.modFab f).em = s.em := rfl
@[simp] theorem State.modFab_link (s : State) (f) : (s.modFab f).link = s.link := rfl
@[simp] theorem State.modFab_basut (s : State) (f) : (s.modFab f).basut = s.basut := rfl
@[simp] theorem State.modFab_time (s : State) (f) : (s.modFab f).time = s.time := rfl
@[simp] theorem State.modFab_stroke (s : State) (f) : (s.modFab f).stroke = s.stroke := rfl
@[simp] theorem State.modFab_snap (s : State) (f) : (s.modFab f).snap = s.snap := rfl
@[simp] theorem State.modFab_fcu (s : State) (f) : (s.modFab f).fcu = s.fcu := rfl
@[simp] theorem State.modFab_health (s : State) (f) : (s.modFab f).health = s.health := rfl
@[simp] theorem State.modFab_sen (s : State) (f) : (s.modFab f).sen = s.sen := rfl
@[simp] theorem State.modFab_ports (s : State) (f) : (s.modFab f).ports = s.ports := rfl
@[simp] theorem State.modFab_eng (s : State) (f) : (s.modFab f).eng = s.eng := rfl
@[simp] theorem State.modFab_fab (s : State) (f) : (s.modFab f).fab = f s.fab := rfl
@[simp] theorem State.modFab_dma (s : State) (f) : (s.modFab f).dma = s.dma := rfl
@[simp] theorem State.modFab_lgs (s : State) (f) : (s.modFab f).lgs = s.lgs := rfl
@[simp] theorem State.modFab_brl (s : State) (f) : (s.modFab f).brl = s.brl := rfl
@[simp] theorem State.modFab_out (s : State) (f) : (s.modFab f).out = s.out := rfl
@[simp] theorem State.modFab_free (s : State) (f) : (s.modFab f).free = s.free := rfl
@[simp] theorem State.modFab_pending (s : State) (f) : (s.modFab f).pending = s.pending := rfl

/-! ### `State.modDma` -/

@[simp] theorem State.modDma_pins (s : State) (f) : (s.modDma f).pins = s.pins := rfl
@[simp] theorem State.modDma_boot (s : State) (f) : (s.modDma f).boot = s.boot := rfl
@[simp] theorem State.modDma_fuses (s : State) (f) : (s.modDma f).fuses = s.fuses := rfl
@[simp] theorem State.modDma_em (s : State) (f) : (s.modDma f).em = s.em := rfl
@[simp] theorem State.modDma_link (s : State) (f) : (s.modDma f).link = s.link := rfl
@[simp] theorem State.modDma_basut (s : State) (f) : (s.modDma f).basut = s.basut := rfl
@[simp] theorem State.modDma_time (s : State) (f) : (s.modDma f).time = s.time := rfl
@[simp] theorem State.modDma_stroke (s : State) (f) : (s.modDma f).stroke = s.stroke := rfl
@[simp] theorem State.modDma_snap (s : State) (f) : (s.modDma f).snap = s.snap := rfl
@[simp] theorem State.modDma_fcu (s : State) (f) : (s.modDma f).fcu = s.fcu := rfl
@[simp] theorem State.modDma_health (s : State) (f) : (s.modDma f).health = s.health := rfl
@[simp] theorem State.modDma_sen (s : State) (f) : (s.modDma f).sen = s.sen := rfl
@[simp] theorem State.modDma_ports (s : State) (f) : (s.modDma f).ports = s.ports := rfl
@[simp] theorem State.modDma_eng (s : State) (f) : (s.modDma f).eng = s.eng := rfl
@[simp] theorem State.modDma_fab (s : State) (f) : (s.modDma f).fab = s.fab := rfl
@[simp] theorem State.modDma_dma (s : State) (f) : (s.modDma f).dma = f s.dma := rfl
@[simp] theorem State.modDma_lgs (s : State) (f) : (s.modDma f).lgs = s.lgs := rfl
@[simp] theorem State.modDma_brl (s : State) (f) : (s.modDma f).brl = s.brl := rfl
@[simp] theorem State.modDma_out (s : State) (f) : (s.modDma f).out = s.out := rfl
@[simp] theorem State.modDma_free (s : State) (f) : (s.modDma f).free = s.free := rfl
@[simp] theorem State.modDma_pending (s : State) (f) : (s.modDma f).pending = s.pending := rfl

/-! ### `State.modLgs` -/

@[simp] theorem State.modLgs_pins (s : State) (f) : (s.modLgs f).pins = s.pins := rfl
@[simp] theorem State.modLgs_boot (s : State) (f) : (s.modLgs f).boot = s.boot := rfl
@[simp] theorem State.modLgs_fuses (s : State) (f) : (s.modLgs f).fuses = s.fuses := rfl
@[simp] theorem State.modLgs_em (s : State) (f) : (s.modLgs f).em = s.em := rfl
@[simp] theorem State.modLgs_link (s : State) (f) : (s.modLgs f).link = s.link := rfl
@[simp] theorem State.modLgs_basut (s : State) (f) : (s.modLgs f).basut = s.basut := rfl
@[simp] theorem State.modLgs_time (s : State) (f) : (s.modLgs f).time = s.time := rfl
@[simp] theorem State.modLgs_stroke (s : State) (f) : (s.modLgs f).stroke = s.stroke := rfl
@[simp] theorem State.modLgs_snap (s : State) (f) : (s.modLgs f).snap = s.snap := rfl
@[simp] theorem State.modLgs_fcu (s : State) (f) : (s.modLgs f).fcu = s.fcu := rfl
@[simp] theorem State.modLgs_health (s : State) (f) : (s.modLgs f).health = s.health := rfl
@[simp] theorem State.modLgs_sen (s : State) (f) : (s.modLgs f).sen = s.sen := rfl
@[simp] theorem State.modLgs_ports (s : State) (f) : (s.modLgs f).ports = s.ports := rfl
@[simp] theorem State.modLgs_eng (s : State) (f) : (s.modLgs f).eng = s.eng := rfl
@[simp] theorem State.modLgs_fab (s : State) (f) : (s.modLgs f).fab = s.fab := rfl
@[simp] theorem State.modLgs_dma (s : State) (f) : (s.modLgs f).dma = s.dma := rfl
@[simp] theorem State.modLgs_lgs (s : State) (f) : (s.modLgs f).lgs = f s.lgs := rfl
@[simp] theorem State.modLgs_brl (s : State) (f) : (s.modLgs f).brl = s.brl := rfl
@[simp] theorem State.modLgs_out (s : State) (f) : (s.modLgs f).out = s.out := rfl
@[simp] theorem State.modLgs_free (s : State) (f) : (s.modLgs f).free = s.free := rfl
@[simp] theorem State.modLgs_pending (s : State) (f) : (s.modLgs f).pending = s.pending := rfl

/-! ### `State.modBrl` -/

@[simp] theorem State.modBrl_pins (s : State) (f) : (s.modBrl f).pins = s.pins := rfl
@[simp] theorem State.modBrl_boot (s : State) (f) : (s.modBrl f).boot = s.boot := rfl
@[simp] theorem State.modBrl_fuses (s : State) (f) : (s.modBrl f).fuses = s.fuses := rfl
@[simp] theorem State.modBrl_em (s : State) (f) : (s.modBrl f).em = s.em := rfl
@[simp] theorem State.modBrl_link (s : State) (f) : (s.modBrl f).link = s.link := rfl
@[simp] theorem State.modBrl_basut (s : State) (f) : (s.modBrl f).basut = s.basut := rfl
@[simp] theorem State.modBrl_time (s : State) (f) : (s.modBrl f).time = s.time := rfl
@[simp] theorem State.modBrl_stroke (s : State) (f) : (s.modBrl f).stroke = s.stroke := rfl
@[simp] theorem State.modBrl_snap (s : State) (f) : (s.modBrl f).snap = s.snap := rfl
@[simp] theorem State.modBrl_fcu (s : State) (f) : (s.modBrl f).fcu = s.fcu := rfl
@[simp] theorem State.modBrl_health (s : State) (f) : (s.modBrl f).health = s.health := rfl
@[simp] theorem State.modBrl_sen (s : State) (f) : (s.modBrl f).sen = s.sen := rfl
@[simp] theorem State.modBrl_ports (s : State) (f) : (s.modBrl f).ports = s.ports := rfl
@[simp] theorem State.modBrl_eng (s : State) (f) : (s.modBrl f).eng = s.eng := rfl
@[simp] theorem State.modBrl_fab (s : State) (f) : (s.modBrl f).fab = s.fab := rfl
@[simp] theorem State.modBrl_dma (s : State) (f) : (s.modBrl f).dma = s.dma := rfl
@[simp] theorem State.modBrl_lgs (s : State) (f) : (s.modBrl f).lgs = s.lgs := rfl
@[simp] theorem State.modBrl_brl (s : State) (f) : (s.modBrl f).brl = f s.brl := rfl
@[simp] theorem State.modBrl_out (s : State) (f) : (s.modBrl f).out = s.out := rfl
@[simp] theorem State.modBrl_free (s : State) (f) : (s.modBrl f).free = s.free := rfl
@[simp] theorem State.modBrl_pending (s : State) (f) : (s.modBrl f).pending = s.pending := rfl

/-! ### Outputs, free values, engines -/

@[simp] theorem State.emit_pins (s : State) (x : Output) : (s.emit x).pins = s.pins := rfl
@[simp] theorem State.emit_boot (s : State) (x : Output) : (s.emit x).boot = s.boot := rfl
@[simp] theorem State.emit_fuses (s : State) (x : Output) : (s.emit x).fuses = s.fuses := rfl
@[simp] theorem State.emit_em (s : State) (x : Output) : (s.emit x).em = s.em := rfl
@[simp] theorem State.emit_link (s : State) (x : Output) : (s.emit x).link = s.link := rfl
@[simp] theorem State.emit_basut (s : State) (x : Output) : (s.emit x).basut = s.basut := rfl
@[simp] theorem State.emit_time (s : State) (x : Output) : (s.emit x).time = s.time := rfl
@[simp] theorem State.emit_stroke (s : State) (x : Output) : (s.emit x).stroke = s.stroke := rfl
@[simp] theorem State.emit_snap (s : State) (x : Output) : (s.emit x).snap = s.snap := rfl
@[simp] theorem State.emit_fcu (s : State) (x : Output) : (s.emit x).fcu = s.fcu := rfl
@[simp] theorem State.emit_health (s : State) (x : Output) : (s.emit x).health = s.health := rfl
@[simp] theorem State.emit_sen (s : State) (x : Output) : (s.emit x).sen = s.sen := rfl
@[simp] theorem State.emit_ports (s : State) (x : Output) : (s.emit x).ports = s.ports := rfl
@[simp] theorem State.emit_eng (s : State) (x : Output) : (s.emit x).eng = s.eng := rfl
@[simp] theorem State.emit_fab (s : State) (x : Output) : (s.emit x).fab = s.fab := rfl
@[simp] theorem State.emit_dma (s : State) (x : Output) : (s.emit x).dma = s.dma := rfl
@[simp] theorem State.emit_lgs (s : State) (x : Output) : (s.emit x).lgs = s.lgs := rfl
@[simp] theorem State.emit_brl (s : State) (x : Output) : (s.emit x).brl = s.brl := rfl
@[simp] theorem State.emit_out (s : State) (x : Output) : (s.emit x).out = x :: s.out := rfl
@[simp] theorem State.emit_free (s : State) (x : Output) : (s.emit x).free = s.free := rfl
@[simp] theorem State.emit_pending (s : State) (x : Output) : (s.emit x).pending = s.pending := rfl

@[simp] theorem State.draw_pins (s : State) : s.draw.2.pins = s.pins := rfl
@[simp] theorem State.draw_boot (s : State) : s.draw.2.boot = s.boot := rfl
@[simp] theorem State.draw_fuses (s : State) : s.draw.2.fuses = s.fuses := rfl
@[simp] theorem State.draw_em (s : State) : s.draw.2.em = s.em := rfl
@[simp] theorem State.draw_link (s : State) : s.draw.2.link = s.link := rfl
@[simp] theorem State.draw_basut (s : State) : s.draw.2.basut = s.basut := rfl
@[simp] theorem State.draw_time (s : State) : s.draw.2.time = s.time := rfl
@[simp] theorem State.draw_stroke (s : State) : s.draw.2.stroke = s.stroke := rfl
@[simp] theorem State.draw_snap (s : State) : s.draw.2.snap = s.snap := rfl
@[simp] theorem State.draw_fcu (s : State) : s.draw.2.fcu = s.fcu := rfl
@[simp] theorem State.draw_health (s : State) : s.draw.2.health = s.health := rfl
@[simp] theorem State.draw_sen (s : State) : s.draw.2.sen = s.sen := rfl
@[simp] theorem State.draw_ports (s : State) : s.draw.2.ports = s.ports := rfl
@[simp] theorem State.draw_eng (s : State) : s.draw.2.eng = s.eng := rfl
@[simp] theorem State.draw_fab (s : State) : s.draw.2.fab = s.fab := rfl
@[simp] theorem State.draw_dma (s : State) : s.draw.2.dma = s.dma := rfl
@[simp] theorem State.draw_lgs (s : State) : s.draw.2.lgs = s.lgs := rfl
@[simp] theorem State.draw_brl (s : State) : s.draw.2.brl = s.brl := rfl
@[simp] theorem State.draw_out (s : State) : s.draw.2.out = s.out := rfl
@[simp] theorem State.draw_free (s : State) : s.draw.2.free = s.free + 1 := rfl
@[simp] theorem State.draw_pending (s : State) : s.draw.2.pending = s.pending := rfl

@[simp] theorem State.setEngine_pins (s : State) (e : Eng) (f) : (s.setEngine e f).pins = s.pins := rfl
@[simp] theorem State.setEngine_boot (s : State) (e : Eng) (f) : (s.setEngine e f).boot = s.boot := rfl
@[simp] theorem State.setEngine_fuses (s : State) (e : Eng) (f) : (s.setEngine e f).fuses = s.fuses := rfl
@[simp] theorem State.setEngine_em (s : State) (e : Eng) (f) : (s.setEngine e f).em = s.em := rfl
@[simp] theorem State.setEngine_link (s : State) (e : Eng) (f) : (s.setEngine e f).link = s.link := rfl
@[simp] theorem State.setEngine_basut (s : State) (e : Eng) (f) : (s.setEngine e f).basut = s.basut := rfl
@[simp] theorem State.setEngine_time (s : State) (e : Eng) (f) : (s.setEngine e f).time = s.time := rfl
@[simp] theorem State.setEngine_stroke (s : State) (e : Eng) (f) : (s.setEngine e f).stroke = s.stroke := rfl
@[simp] theorem State.setEngine_snap (s : State) (e : Eng) (f) : (s.setEngine e f).snap = s.snap := rfl
@[simp] theorem State.setEngine_fcu (s : State) (e : Eng) (f) : (s.setEngine e f).fcu = s.fcu := rfl
@[simp] theorem State.setEngine_health (s : State) (e : Eng) (f) : (s.setEngine e f).health = s.health := rfl
@[simp] theorem State.setEngine_sen (s : State) (e : Eng) (f) : (s.setEngine e f).sen = s.sen := rfl
@[simp] theorem State.setEngine_ports (s : State) (e : Eng) (f) : (s.setEngine e f).ports = s.ports := rfl
@[simp] theorem State.setEngine_fab (s : State) (e : Eng) (f) : (s.setEngine e f).fab = s.fab := rfl
@[simp] theorem State.setEngine_dma (s : State) (e : Eng) (f) : (s.setEngine e f).dma = s.dma := rfl
@[simp] theorem State.setEngine_lgs (s : State) (e : Eng) (f) : (s.setEngine e f).lgs = s.lgs := rfl
@[simp] theorem State.setEngine_brl (s : State) (e : Eng) (f) : (s.setEngine e f).brl = s.brl := rfl
@[simp] theorem State.setEngine_out (s : State) (e : Eng) (f) : (s.setEngine e f).out = s.out := rfl
@[simp] theorem State.setEngine_free (s : State) (e : Eng) (f) : (s.setEngine e f).free = s.free := rfl
@[simp] theorem State.setEngine_pending (s : State) (e : Eng) (f) : (s.setEngine e f).pending = s.pending := rfl

end Sys2Proof.Machine
end

