-- ==== Sys2Proof/Laws/Act.lean ====
section
/-! SUPPORT. The shared operation of commands that happen where their condition holds. -/
namespace Sys2Proof.Machine

/-- Everything `act` can do: the effect where the condition holds, nothing where it does not. -/
theorem act_next (c : Bool) (f : State → State) (s : State) :
    (c = true ∧ act c f s = .next (f s)) ∨ (c = false ∧ act c f s = .next s) := by
  cases c
  · exact .inr ⟨rfl, rfl⟩
  · exact .inl ⟨rfl, rfl⟩

theorem act_true {c : Bool} (h : c = true) (f : State → State) (s : State) : act c f s = .next (f s) := by
  rw [h]
  rfl

theorem act_false {c : Bool} (h : c = false) (f : State → State) (s : State) : act c f s = .next s := by
  rw [h]
  rfl

/-- `act` never stops. -/
theorem act_total (c : Bool) (f : State → State) (s : State) : ∃ t, act c f s = .next t := by
  rcases act_next c f s with ⟨_, h⟩ | ⟨_, h⟩ <;> exact ⟨_, h⟩

/-- A command whose meaning is `act` of a condition that holds runs to its effect. -/
theorem Runs.of_act {i : Instr} {s : State} {P : State → Prop} {c : Bool} {f : State → State} (e : exec i s = act c f s)
    (h : c = true) (hp : P (f s)) : Runs i s P :=
  ⟨f s, by rw [e, act_true h], hp⟩

end Sys2Proof.Machine
end

