-- ==== Sys2Proof/Laws/Deep.lean ====
section
/-! SUPPORT. What posting an entry and raising a fault leave alone: start-up, fuses, snapshot, event network, ports,
engines, memories, DMA channels, log store and the command queue (R511, R516). -/
namespace Sys2Proof.Machine

theorem foldl_deep {α : Type} {f : State → α → State} (h : ∀ s a, (f s a).deep = s.deep) (l : List α) (s : State) : (l.foldl f s).deep = s.deep := by
  induction l generalizing s with
  | nil => rfl
  | cons a l ih => rw [List.foldl_cons, ih, h]
theorem foldl_deep_snd {α β : Type} {f : β × State → α → β × State} (h : ∀ p a, (f p a).2.deep = p.2.deep) (l : List α) (p : β × State) : (l.foldl f p).2.deep = p.2.deep := by
  induction l generalizing p with
  | nil => rfl
  | cons a l ih => rw [List.foldl_cons, ih, h]
theorem deep_ite {c : Prop} [Decidable c] (a b : State) : (if c then a else b).deep = if c then a.deep else b.deep := apply_ite _ _ _ _
theorem snd_ite {α β : Type} {c : Prop} [Decidable c] (a b : α × β) : (if c then a else b).2 = if c then a.2 else b.2 := apply_ite _ _ _ _
theorem snd_deep {α : Type} {p : α × State} {a : α} {t s : State} (h : p = (a, t)) (k : p.2.deep = s.deep) : t.deep = s.deep := by
  rw [← k, h]

@[simp] theorem State.modPins_deep (s : State) (f) : (s.modPins f).deep = s.deep := rfl

@[simp] theorem State.modEm_deep (s : State) (f) : (s.modEm f).deep = s.deep := rfl

@[simp] theorem State.modLink_deep (s : State) (f) : (s.modLink f).deep = s.deep := rfl

@[simp] theorem State.modBasut_deep (s : State) (f) : (s.modBasut f).deep = s.deep := rfl

@[simp] theorem State.modTime_deep (s : State) (f) : (s.modTime f).deep = s.deep := rfl

@[simp] theorem State.modStroke_deep (s : State) (f) : (s.modStroke f).deep = s.deep := rfl

@[simp] theorem State.modFcu_deep (s : State) (f) : (s.modFcu f).deep = s.deep := rfl

@[simp] theorem State.modHealth_deep (s : State) (f) : (s.modHealth f).deep = s.deep := rfl

@[simp] theorem State.modBrl_deep (s : State) (f) : (s.modBrl f).deep = s.deep := rfl

@[simp] theorem State.emit_deep (s : State) (o : Output) : (State.emit s o).deep = s.deep := rfl

@[simp] theorem State.draw_deep (s : State) : (State.draw s).2.deep = s.deep := rfl
theorem State.draw_deep_of (s : State) {v0} {nxt : State} (h : State.draw s = (v0, nxt)) : nxt.deep = s.deep := snd_deep h (State.draw_deep s)

@[simp] theorem State.setQp_deep (s : State) (q : Nat) (f : Qp → Qp) : (State.setQp s q f).deep = s.deep := rfl

@[simp] theorem State.setFn_deep (s : State) (v : Nat) (f : AdminRegs → AdminRegs) : (State.setFn s v f).deep = s.deep := rfl

@[simp] theorem State.count_deep (s : State) (v : Nat) (f : QCounts → QCounts) : (State.count s v f).deep = s.deep := rfl

@[simp] theorem sendMsix_deep (v vec : Nat) (s : State) : (sendMsix v vec s).deep = s.deep := by
  unfold sendMsix
  simp [deep_ite]

@[simp] theorem releaseMsix_deep (v : Nat) (s : State) : (releaseMsix v s).deep = s.deep := by
  unfold releaseMsix
  simp [deep_ite, foldl_deep]

@[simp] theorem moderate_deep (q : Nat) (success : Bool) (s : State) : (moderate q success s).deep = s.deep := by
  unfold moderate
  simp [deep_ite]

@[simp] theorem writeCqe_deep (q : Nat) (e : Cqe) (s : State) : (writeCqe q e s).deep = s.deep := by
  unfold writeCqe
  simp

@[simp] theorem openOverflow_deep (q : Nat) (e : Cqe) (s : State) : (openOverflow q e s).deep = s.deep := by
  unfold openOverflow
  simp [deep_ite]

@[simp] theorem postUnsol_deep (q : Nat) (e : Cqe) (s : State) : (postUnsol q e s).deep = s.deep := by
  unfold postUnsol
  simp [deep_ite]

@[simp] theorem postCovered_deep (kind src : Nat) (e : Cqe) (s : State) : (postCovered kind src e s).deep = s.deep := by
  unfold postCovered
  (repeat' split) <;> simp [foldl_deep]

@[simp] theorem postBound_deep (kind : Nat) (srcs : Nat → Bool) (result : Option W32) (vt : W64) (ql : Quality) (s : State) : (postBound kind srcs result vt ql s).deep = s.deep := by
  unfold postBound
  simp [deep_ite, foldl_deep]

@[simp] theorem qpFault_deep (q cause : Nat) (s : State) : (qpFault q cause s).deep = s.deep := by
  unfold qpFault
  simp [deep_ite]

@[simp] theorem finishRaw_deep (q cid status : Nat) (result : W32) (vt : W64) (ql : Quality) (s : State) : (finishRaw q cid status result vt ql s).deep = s.deep := rfl

@[simp] theorem finishAt_deep (q cid status : Nat) (result : W32) (vt : W64) (ql : Quality) (s : State) : (finishAt q cid status result vt ql s).deep = s.deep := by
  unfold finishAt
  simp [deep_ite]

@[simp] theorem finish_deep (q cid status : Nat) (result : W32) (s : State) : (finish q cid status result s).deep = s.deep := by
  unfold finish
  simp

@[simp] theorem State.setRec_deep (s : State) (id : Nat) (f : FaultRec → FaultRec) : (State.setRec s id f).deep = s.deep := rfl

@[simp] theorem journal_deep (typ src sev : Nat) (inj : Bool) (merges : Nat) (vt info : W64) (unit : W16) (s : State) : (journal typ src sev inj merges vt info unit s).deep = s.deep := rfl

@[simp] theorem copyCapsule_deep (s : State) : (copyCapsule s).deep = s.deep := rfl

@[simp] theorem safeJobs_deep (s : State) : (safeJobs s).deep = s.deep := by
  unfold safeJobs
  simp [foldl_deep]

@[simp] theorem safeSeqs_deep (s : State) : (safeSeqs s).deep = s.deep := by
  unfold safeSeqs
  simp [foldl_deep]

@[simp] theorem enterSafe_deep (id : Nat) (info : W64) (unit : W16) (s : State) : (enterSafe id info unit s).deep = s.deep := by
  unfold enterSafe
  simp [deep_ite]

@[simp] theorem faultEntry_deep (id merges sev : Nat) (s : State) : (faultEntry id merges sev s).deep = s.deep := by
  unfold faultEntry
  simp

@[simp] theorem openFault_deep (id : Nat) (info : W64) (unit : W16) (s : State) : (openFault id info unit s).deep = s.deep := by
  unfold openFault
  simp [deep_ite]

@[simp] theorem propose_deep (cls index reason src : Nat) (detail : W64) (s : State) : (propose cls index reason src detail s).deep = s.deep := by
  unfold propose
  (repeat' split) <;> simp

@[simp] theorem raiseFault_deep (id : Nat) (info : W64) (unit : W16) (s : State) : (raiseFault id info unit s).deep = s.deep := by
  unfold raiseFault
  grind [openFault_deep, propose_deep]

@[simp] theorem setCause_deep (id : Nat) (present : Bool) (info : W64) (s : State) : (setCause id present info s).deep = s.deep := by
  unfold setCause
  simp [deep_ite]

@[simp] theorem closeFault_deep (id : Nat) (s : State) : (closeFault id s).2.deep = s.deep := by
  unfold closeFault
  simp [deep_ite, snd_ite]
theorem closeFault_deep_of (id : Nat) (s : State) {v0} {nxt : State} (h : closeFault id s = (v0, nxt)) : nxt.deep = s.deep := snd_deep h (closeFault_deep id s)

end Sys2Proof.Machine
end

