-- ==== Sys2Proof/Laws/Post.lean ====
section
/-! SUPPORT. What posting a completion or an unsolicited entry leaves alone: all but the host link, the stroke block, the
cube commands and what was emitted (R94 to R101, R110, R111). -/
namespace Sys2Proof.Machine

theorem foldl_wide {α : Type} {f : State → α → State} (h : ∀ s a, (f s a).wide = s.wide) (l : List α) (s : State) : (l.foldl f s).wide = s.wide := by
  induction l generalizing s with
  | nil => rfl
  | cons a l ih => rw [List.foldl_cons, ih, h]
theorem foldl_wide_snd {α β : Type} {f : β × State → α → β × State} (h : ∀ p a, (f p a).2.wide = p.2.wide) (l : List α) (p : β × State) : (l.foldl f p).2.wide = p.2.wide := by
  induction l generalizing p with
  | nil => rfl
  | cons a l ih => rw [List.foldl_cons, ih, h]
theorem wide_ite {c : Prop} [Decidable c] (a b : State) : (if c then a else b).wide = if c then a.wide else b.wide := apply_ite _ _ _ _
theorem snd_wide {α : Type} {p : α × State} {a : α} {t s : State} (h : p = (a, t)) (k : p.2.wide = s.wide) : t.wide = s.wide := by
  rw [← k, h]

@[simp] theorem State.modLink_wide (s : State) (f) : (s.modLink f).wide = s.wide := rfl



@[simp] theorem State.modStroke_wide (s : State) (f) : (s.modStroke f).wide = s.wide := rfl



@[simp] theorem State.modBrl_wide (s : State) (f) : (s.modBrl f).wide = s.wide := rfl

@[simp] theorem State.emit_wide (s : State) (o : Output) : (State.emit s o).wide = s.wide := rfl

@[simp] theorem State.setQp_wide (s : State) (q : Nat) (f : Qp → Qp) : (State.setQp s q f).wide = s.wide := rfl

@[simp] theorem State.setFn_wide (s : State) (v : Nat) (f : AdminRegs → AdminRegs) : (State.setFn s v f).wide = s.wide := rfl

@[simp] theorem State.count_wide (s : State) (v : Nat) (f : QCounts → QCounts) : (State.count s v f).wide = s.wide := rfl

@[simp] theorem sendMsix_wide (v vec : Nat) (s : State) : (sendMsix v vec s).wide = s.wide := by
  unfold sendMsix
  simp [wide_ite]

@[simp] theorem releaseMsix_wide (v : Nat) (s : State) : (releaseMsix v s).wide = s.wide := by
  unfold releaseMsix
  simp [wide_ite, foldl_wide]

@[simp] theorem moderate_wide (q : Nat) (success : Bool) (s : State) : (moderate q success s).wide = s.wide := by
  unfold moderate
  simp [wide_ite]

@[simp] theorem writeCqe_wide (q : Nat) (e : Cqe) (s : State) : (writeCqe q e s).wide = s.wide := by
  unfold writeCqe
  simp

@[simp] theorem openOverflow_wide (q : Nat) (e : Cqe) (s : State) : (openOverflow q e s).wide = s.wide := by
  unfold openOverflow
  simp [wide_ite]

@[simp] theorem postUnsol_wide (q : Nat) (e : Cqe) (s : State) : (postUnsol q e s).wide = s.wide := by
  unfold postUnsol
  simp [wide_ite]

@[simp] theorem postCovered_wide (kind src : Nat) (e : Cqe) (s : State) : (postCovered kind src e s).wide = s.wide := by
  unfold postCovered
  (repeat' split) <;> simp [foldl_wide]

@[simp] theorem postBound_wide (kind : Nat) (srcs : Nat → Bool) (result : Option W32) (vt : W64) (ql : Quality) (s : State) : (postBound kind srcs result vt ql s).wide = s.wide := by
  unfold postBound
  simp [wide_ite, foldl_wide]

@[simp] theorem qpFault_wide (q cause : Nat) (s : State) : (qpFault q cause s).wide = s.wide := by
  unfold qpFault
  simp [wide_ite]

@[simp] theorem finishRaw_wide (q cid status : Nat) (result : W32) (vt : W64) (ql : Quality) (s : State) : (finishRaw q cid status result vt ql s).wide = s.wide := rfl

@[simp] theorem finishAt_wide (q cid status : Nat) (result : W32) (vt : W64) (ql : Quality) (s : State) : (finishAt q cid status result vt ql s).wide = s.wide := by
  unfold finishAt
  simp [wide_ite]

@[simp] theorem finish_wide (q cid status : Nat) (result : W32) (s : State) : (finish q cid status result s).wide = s.wide := by
  unfold finish
  simp

end Sys2Proof.Machine
end

