-- ==== Sys2Proof/Laws/Faults.lean ====
section
/-! SUPPORT. What raising a fault does to the records (R511), to the safe state (R514) and to nothing else. -/
namespace Sys2Proof.Machine

/-- A function that leaves the wide blocks alone leaves fault collection alone. -/
theorem fcu_of_wide {s t : State} (h : t.wide = s.wide) : t.fcu = s.fcu := by
  simp only [State.wide, Prod.mk.injEq] at h
  exact h.2.2.2.2.2.2.2.1

@[simp] theorem finish_fcu (q cid status : Nat) (result : W32) (s : State) : (finish q cid status result s).fcu = s.fcu :=
  fcu_of_wide (by simp)

@[simp] theorem postCovered_fcu (kind src : Nat) (e : Cqe) (s : State) : (postCovered kind src e s).fcu = s.fcu :=
  fcu_of_wide (by simp)

@[simp] theorem postUnsol_fcu (q : Nat) (e : Cqe) (s : State) : (postUnsol q e s).fcu = s.fcu :=
  fcu_of_wide (by simp)

@[simp] theorem faultEntry_fcu (id merges sev : Nat) (s : State) : (faultEntry id merges sev s).fcu = s.fcu := by
  simp [faultEntry]

@[simp] theorem copyCapsule_fcu (s : State) : (copyCapsule s).fcu = s.fcu := rfl

theorem foldl_fcu {α : Type} {f : State → α → State} (h : ∀ s a, (f s a).fcu = s.fcu) (l : List α) (s : State) :
    (l.foldl f s).fcu = s.fcu := by
  induction l generalizing s with
  | nil => rfl
  | cons a l ih => rw [List.foldl_cons, ih, h]

@[simp] theorem safeJobs_fcu (s : State) : (safeJobs s).fcu = s.fcu := by
  simp [safeJobs, foldl_fcu]

@[simp] theorem safeSeqs_fcu (s : State) : (safeSeqs s).fcu = s.fcu := by
  simp [safeSeqs, foldl_fcu]

@[simp] theorem journal_recs (typ src sev : Nat) (inj : Bool) (merges : Nat) (vt info : W64) (unit : W16) (s : State) :
    (journal typ src sev inj merges vt info unit s).fcu.recs = s.fcu.recs := rfl

@[simp] theorem journal_safe (typ src sev : Nat) (inj : Bool) (merges : Nat) (vt info : W64) (unit : W16) (s : State) :
    (journal typ src sev inj merges vt info unit s).fcu.safe = s.fcu.safe := rfl

/-- Entering the safe state leaves the records as they are. -/
@[simp] theorem enterSafe_recs (id : Nat) (info : W64) (unit : W16) (s : State) :
    (enterSafe id info unit s).fcu.recs = s.fcu.recs := by
  unfold enterSafe
  split <;> simp

/-- After `enterSafe` the device is in the safe state (R514). -/
@[simp] theorem enterSafe_safe (id : Nat) (info : W64) (unit : W16) (s : State) :
    (enterSafe id info unit s).fcu.safe = true := by
  unfold enterSafe
  split <;> simp [*]

/-- The record that a raise opens (R511). -/
def openRec (id : Nat) (info : W64) (unit : W16) (s : State) : FaultRec :=
  { s.frec id with isOpen := true, merges := 0, first := s.now, last := s.now, info := info, sev := s.sevOf id,
                   injected := s.fcu.injecting, unit := unit }

theorem frec_of_recs {s t : State} (h : t.fcu.recs = s.fcu.recs) (id : Nat) : t.frec id = s.frec id := by
  simp [State.frec, h]

@[simp] theorem setRec_frec_same (s : State) (id : Nat) (f : FaultRec → FaultRec) :
    (s.setRec id f).frec id = f (s.frec id) := by
  simp [State.setRec, State.frec]

theorem setRec_frec_ne (s : State) {id j : Nat} (f : FaultRec → FaultRec) (h : j ≠ id) :
    (s.setRec id f).frec j = s.frec j := by
  simp [State.setRec, State.frec, tabGet_tabMod_ne _ _ _ _ h]

@[simp] theorem setRec_fcu_recs (s : State) (id : Nat) (f : FaultRec → FaultRec) :
    (s.setRec id f).fcu.recs = tabMod s.fcu.recs id {} f := rfl

/-- `openFault` on a closed record of an implemented source opens it (R511). -/
theorem openFault_frec_opens {s : State} {id : Nat} (info : W64) (unit : W16) (h : s.fcu.running = true) (hi : srcImpl id = true)
    (ho : (s.frec id).isOpen = false) : (openFault id info unit s).frec id = openRec id info unit s := by
  have key : ∀ t : State, t.fcu.recs = (s.setRec id fun r => { r with
      isOpen := true, merges := 0, first := s.now, last := s.now, info := info, sev := s.sevOf id,
      injected := s.fcu.injecting, unit := unit }).fcu.recs → t.frec id = openRec id info unit s := by
    intro t ht
    rw [frec_of_recs ht, setRec_frec_same]
    rfl
  unfold openFault
  simp only [h, hi, ho, Bool.not_true, Bool.or_self, Bool.false_eq_true, if_false]
  apply key
  split <;> split <;> simp [State.emit]

/-- `openFault` leaves every other record alone. -/
theorem openFault_frec_ne (s : State) {id j : Nat} (info : W64) (unit : W16) (h : j ≠ id) :
    (openFault id info unit s).frec j = s.frec j := by
  have key : ∀ (t : State) (f : FaultRec → FaultRec), t.fcu.recs = (s.setRec id f).fcu.recs → t.frec j = s.frec j := by
    intro t f ht
    rw [frec_of_recs ht, setRec_frec_ne _ _ h]
  unfold openFault
  split
  · rfl
  · simp only
    split
    · apply key _ (fun r => { r with merges := satAdd 16 r.merges 1, last := s.now })
      split <;> simp
    · apply key _ (fun r => { r with
        isOpen := true, merges := 0, first := s.now, last := s.now, info := info, sev := s.sevOf id, injected := s.fcu.injecting,
        unit := unit })
      split <;> split <;> simp [State.emit]

/-- A proposal touches no record but HEALTH_PROP_LOST's. -/
theorem propose_frec (cls index reason src : Nat) (detail : W64) (s : State) {j : Nat} (h : j ≠ Src.healthPropLost) :
    (propose cls index reason src detail s).frec j = s.frec j := by
  unfold propose
  split
  · rfl
  · split
    · rfl
    · exact openFault_frec_ne s 0 unitNone h

/-- HEALTH_PROP_LOST names no unit to propose. -/
theorem unitOfSource_propLost (s : State) (info : W64) (unit : W16) : unitOfSource s Src.healthPropLost info unit = none := rfl

/-- What a raise leaves of its own record: what opening or merging it leaves. -/
theorem raiseFault_frec (id : Nat) (info : W64) (unit : W16) (s : State) :
    (raiseFault id info unit s).frec id = (openFault id info unit s).frec id := by
  unfold raiseFault
  simp only
  split
  · split
    · rename_i c i d hu
      apply propose_frec
      rintro rfl
      simp [unitOfSource_propLost] at hu
    · rfl
  · rfl

/-- A raise of a closed, implemented source opens its record with what R511 names. -/
theorem raiseFault_opens {s : State} {id : Nat} (info : W64) (unit : W16) (h : s.fcu.running = true) (hi : srcImpl id = true)
    (ho : (s.frec id).isOpen = false) : (raiseFault id info unit s).frec id = openRec id info unit s := by
  rw [raiseFault_frec, openFault_frec_opens info unit h hi ho]

/-- A bit that is put reads as put. -/
theorem getLsbD_putBit {w : Nat} (x : BitVec w) (i j : Nat) (b : Bool) (h : i < w) :
    (putBit x i b).getLsbD j = if j = i then b else x.getLsbD j := by
  have e : (BitVec.ofNat w 1 <<< i).getLsbD j = decide (j = i) := by
    simp only [BitVec.getLsbD_shiftLeft, BitVec.getLsbD_ofNat]
    by_cases hj : j = i
    · subst hj
      simp
      omega
    · by_cases hl : j < i
      · simp [hj, hl]
      · have h1 : j - i ≠ 0 := by omega
        have h2 : Nat.testBit 1 (j - i) = false := by
          rw [Bool.eq_false_iff]
          intro hc
          exact h1 (Nat.testBit_one_eq_true_iff_self_eq_zero.mp hc)
        simp [hj, h2]
  unfold putBit
  cases b
  · simp only [Bool.false_eq_true, if_false, BitVec.getLsbD_and, BitVec.getLsbD_not, e]
    by_cases hj : j = i
    · simp [hj]
    · by_cases hw : j < w
      · simp [hj, hw]
      · simp [hj, hw, BitVec.getLsbD_of_ge x j (by omega)]
  · simp only [if_true, BitVec.getLsbD_or, e]
    by_cases hj : j = i <;> simp [hj]

/-- Putting a bit that is set changes nothing. -/
theorem putBit_of_set {w : Nat} (x : BitVec w) {i : Nat} (h : x.getLsbD i = true) : putBit x i true = x := by
  have hi : i < w := by
    by_contra hc
    simp [BitVec.getLsbD_of_ge x i (by omega)] at h
  apply BitVec.eq_of_getLsbD_eq
  intro j hj
  rw [getLsbD_putBit x i j true hi]
  split
  · simp [*]
  · rfl

/-- All that `setReady` does beside its report: one bit of READY_MAP (R62). -/
theorem setReady_wide (b : Nat) (s : State) :
    (setReady b s).wide = ({ s with boot := { s.boot with readyMap := putBit s.boot.readyMap b true } } : State).wide := by
  unfold setReady
  split
  · rename_i h
    rw [putBit_of_set _ h]
  · simp only
    split
    · simp [State.modBoot]
    · rfl

theorem setReady_boot (b : Nat) (s : State) :
    (setReady b s).boot = { s.boot with readyMap := putBit s.boot.readyMap b true } := by
  have h := setReady_wide b s
  simp only [State.wide, Prod.mk.injEq] at h
  exact h.2.1

end Sys2Proof.Machine
end

