-- ==== Sys2Proof/Laws/Kept1.lean ====
section
/-! SUPPORT. What keeps fuses, the waiting commands and the straps: the clock, the event network, memories, queues (R18, R53, R124). -/
namespace Sys2Proof.Machine
/-- What almost every command leaves alone: fuses, the waiting commands, the latched straps (R18, R53). -/
def State.rom (s : State) : Fuses × List Instr × BitVec 7 := (s.fuses, s.pending, s.boot.straps)

theorem foldl_kept {α : Type} {f : State → α → State} (h : ∀ s a, (f s a).rom = s.rom) (l : List α) (s : State) : (l.foldl f s).rom = s.rom := by
  induction l generalizing s with
  | nil => rfl
  | cons a l ih => rw [List.foldl_cons, ih, h]

theorem foldl_kept_snd {α β : Type} {f : β × State → α → β × State} (h : ∀ p a, (f p a).2.rom = p.2.rom) (l : List α) (p : β × State) : (l.foldl f p).2.rom = p.2.rom := by
  induction l generalizing p with
  | nil => rfl
  | cons a l ih => rw [List.foldl_cons, ih, h]

theorem rom_ite {c : Prop} [Decidable c] (a b : State) : (if c then a else b).rom = if c then a.rom else b.rom := apply_ite _ _ _ _

theorem act_kept {c : Bool} {f : State → State} {s t : State} (h : (f s).rom = s.rom) : act c f s = .next t → t.rom = s.rom := by
  unfold act
  intro e
  cases c
  · injection e with e
    rw [← e]
    rfl
  · injection e with e
    rw [← e]
    exact h

theorem snd_kept {α : Type} {p : α × State} {a : α} {t s : State} (h : p = (a, t)) (k : p.2.rom = s.rom) : t.rom = s.rom := by
  rw [← k, h]

/-! ### State -/

@[simp] theorem State.modPins_kept (s : State) (f) : (s.modPins f).rom = s.rom := rfl

@[simp] theorem State.modBoot_kept (s : State) (f) (h : (f s.boot).straps = s.boot.straps) : (s.modBoot f).rom = s.rom := by simp [State.rom, State.modBoot, h]

@[simp] theorem State.modEm_kept (s : State) (f) : (s.modEm f).rom = s.rom := rfl

@[simp] theorem State.modLink_kept (s : State) (f) : (s.modLink f).rom = s.rom := rfl

@[simp] theorem State.modBasut_kept (s : State) (f) : (s.modBasut f).rom = s.rom := rfl

@[simp] theorem State.modTime_kept (s : State) (f) : (s.modTime f).rom = s.rom := rfl

@[simp] theorem State.modStroke_kept (s : State) (f) : (s.modStroke f).rom = s.rom := rfl

@[simp] theorem State.modSnap_kept (s : State) (f) : (s.modSnap f).rom = s.rom := rfl

@[simp] theorem State.modFcu_kept (s : State) (f) : (s.modFcu f).rom = s.rom := rfl

@[simp] theorem State.modHealth_kept (s : State) (f) : (s.modHealth f).rom = s.rom := rfl

@[simp] theorem State.modSen_kept (s : State) (f) : (s.modSen f).rom = s.rom := rfl

@[simp] theorem State.modPorts_kept (s : State) (f) : (s.modPorts f).rom = s.rom := rfl

@[simp] theorem State.modEng_kept (s : State) (f) : (s.modEng f).rom = s.rom := rfl

@[simp] theorem State.modFab_kept (s : State) (f) : (s.modFab f).rom = s.rom := rfl

@[simp] theorem State.modDma_kept (s : State) (f) : (s.modDma f).rom = s.rom := rfl

@[simp] theorem State.modLgs_kept (s : State) (f) : (s.modLgs f).rom = s.rom := rfl

@[simp] theorem State.modBrl_kept (s : State) (f) : (s.modBrl f).rom = s.rom := rfl

/-! ### Ops -/

@[simp] theorem State.emit_kept (s : State) (o : Output) : (State.emit s o).rom = s.rom := rfl

@[simp] theorem State.draw_kept (s : State) : (State.draw s).2.rom = s.rom := rfl
theorem State.draw_kept_of (s : State) {v0} {nxt : State} (h : State.draw s = (v0, nxt)) : nxt.rom = s.rom := snd_kept h (State.draw_kept s)

/-! ### Post -/

@[simp] theorem State.setQp_kept (s : State) (q : Nat) (f : Qp → Qp) : (State.setQp s q f).rom = s.rom := rfl

@[simp] theorem State.setFn_kept (s : State) (v : Nat) (f : AdminRegs → AdminRegs) : (State.setFn s v f).rom = s.rom := rfl

@[simp] theorem State.count_kept (s : State) (v : Nat) (f : QCounts → QCounts) : (State.count s v f).rom = s.rom := rfl

@[simp] theorem sendMsix_kept (v vec : Nat) (s : State) : (sendMsix v vec s).rom = s.rom := by
  unfold sendMsix
  simp [rom_ite]

@[simp] theorem releaseMsix_kept (v : Nat) (s : State) : (releaseMsix v s).rom = s.rom := by
  unfold releaseMsix
  simp [rom_ite, foldl_kept]

@[simp] theorem moderate_kept (q : Nat) (success : Bool) (s : State) : (moderate q success s).rom = s.rom := by
  unfold moderate
  simp [rom_ite]

@[simp] theorem writeCqe_kept (q : Nat) (e : Cqe) (s : State) : (writeCqe q e s).rom = s.rom := by
  unfold writeCqe
  simp

@[simp] theorem openOverflow_kept (q : Nat) (e : Cqe) (s : State) : (openOverflow q e s).rom = s.rom := by
  unfold openOverflow
  simp [rom_ite]

@[simp] theorem postUnsol_kept (q : Nat) (e : Cqe) (s : State) : (postUnsol q e s).rom = s.rom := by
  unfold postUnsol
  simp [rom_ite]

@[simp] theorem postCovered_kept (kind src : Nat) (e : Cqe) (s : State) : (postCovered kind src e s).rom = s.rom := by
  unfold postCovered
  (repeat' split) <;> simp [foldl_kept]

@[simp] theorem postBound_kept (kind : Nat) (srcs : Nat → Bool) (result : Option W32) (vt : W64) (ql : Quality) (s : State) : (postBound kind srcs result vt ql s).rom = s.rom := by
  unfold postBound
  simp [rom_ite, foldl_kept]

@[simp] theorem qpFault_kept (q cause : Nat) (s : State) : (qpFault q cause s).rom = s.rom := by
  unfold qpFault
  simp [rom_ite]

@[simp] theorem finishRaw_kept (q cid status : Nat) (result : W32) (vt : W64) (ql : Quality) (s : State) : (finishRaw q cid status result vt ql s).rom = s.rom := rfl

@[simp] theorem finishAt_kept (q cid status : Nat) (result : W32) (vt : W64) (ql : Quality) (s : State) : (finishAt q cid status result vt ql s).rom = s.rom := by
  unfold finishAt
  simp [rom_ite]

@[simp] theorem finish_kept (q cid status : Nat) (result : W32) (s : State) : (finish q cid status result s).rom = s.rom := by
  unfold finish
  simp

/-! ### Faults -/

@[simp] theorem State.setRec_kept (s : State) (id : Nat) (f : FaultRec → FaultRec) : (State.setRec s id f).rom = s.rom := rfl

@[simp] theorem journal_kept (typ src sev : Nat) (inj : Bool) (merges : Nat) (vt info : W64) (unit : W16) (s : State) : (journal typ src sev inj merges vt info unit s).rom = s.rom := rfl

@[simp] theorem copyCapsule_kept (s : State) : (copyCapsule s).rom = s.rom := rfl

@[simp] theorem safeJobs_kept (s : State) : (safeJobs s).rom = s.rom := by
  unfold safeJobs
  simp [foldl_kept]

@[simp] theorem safeSeqs_kept (s : State) : (safeSeqs s).rom = s.rom := by
  unfold safeSeqs
  simp [foldl_kept]

@[simp] theorem enterSafe_kept (id : Nat) (info : W64) (unit : W16) (s : State) : (enterSafe id info unit s).rom = s.rom := by
  unfold enterSafe
  simp [rom_ite]

@[simp] theorem faultEntry_kept (id merges sev : Nat) (s : State) : (faultEntry id merges sev s).rom = s.rom := by
  unfold faultEntry
  simp

@[simp] theorem openFault_kept (id : Nat) (info : W64) (unit : W16) (s : State) : (openFault id info unit s).rom = s.rom := by
  unfold openFault
  simp [rom_ite]

@[simp] theorem propose_kept (cls index reason src : Nat) (detail : W64) (s : State) : (propose cls index reason src detail s).rom = s.rom := by
  unfold propose
  (repeat' split) <;> simp

@[simp] theorem raiseFault_kept (id : Nat) (info : W64) (unit : W16) (s : State) : (raiseFault id info unit s).rom = s.rom := by
  unfold raiseFault
  grind [openFault_kept, propose_kept]

@[simp] theorem setCause_kept (id : Nat) (present : Bool) (info : W64) (s : State) : (setCause id present info s).rom = s.rom := by
  unfold setCause
  simp [rom_ite]

@[simp] theorem closeFault_kept (id : Nat) (s : State) : (closeFault id s).2.rom = s.rom := by
  unfold closeFault
  simp [rom_ite, snd_ite]
theorem closeFault_kept_of (id : Nat) (s : State) {v0} {nxt : State} (h : closeFault id s = (v0, nxt)) : nxt.rom = s.rom := snd_kept h (closeFault_kept id s)

@[simp] theorem setReady_kept (b : Nat) (s : State) : (setReady b s).rom = s.rom := by
  unfold setReady
  simp [rom_ite]

/-! ### Clock -/

@[simp] theorem State.setEngine_kept (s : State) (e : Eng) (f : Engine → Engine) : (State.setEngine s e f).rom = s.rom := rfl

@[simp] theorem State.elapse_kept (d : Nat) (dv : Nat) (rest : Int) (s : State) : (State.elapse d dv rest s).rom = s.rom := rfl

@[simp] theorem State.advance_kept (d : Nat) (s : State) : (State.advance d s).rom = s.rom := rfl

@[simp] theorem State.advanceVt_kept (n : Nat) (s : State) : (State.advanceVt n s).rom = s.rom := rfl

@[simp] theorem State.bringTo_kept (m : Nat) (s : State) : (State.bringTo m s).rom = s.rom := rfl

@[simp] theorem State.bringVt_kept (v : W64) (s : State) : (State.bringVt v s).rom = s.rom := by
  unfold State.bringVt
  simp [rom_ite]

/-! ### Sen -/

@[simp] theorem State.setTimer_kept (s : State) (t : Nat) (f : Timer → Timer) : (State.setTimer s t f).rom = s.rom := rfl

@[simp] theorem assertProducer_kept (id : Nat) (s : State) : (assertProducer id s).rom = s.rom := rfl

@[simp] theorem eventLine_kept (t : Nat) (s : State) : (eventLine t s).rom = s.rom := rfl

@[simp] theorem followOut_kept (t : Nat) (lvl : Bool) (s : State) : (followOut t lvl s).rom = s.rom := rfl

@[simp] theorem setOut_kept (t : Nat) (lvl : Bool) (s : State) : (setOut t lvl s).rom = s.rom := by
  unfold setOut
  simp [rom_ite]

@[simp] theorem matchOne_kept (t c : Nat) (s : State) : (matchOne t c s).rom = s.rom := by
  unfold matchOne
  grind [State.setTimer_kept, eventLine_kept, postBound_kept, setOut_kept]

@[simp] theorem matchUpTo_kept (t c : Nat) (s : State) : (matchUpTo t c s).rom = s.rom := by
  unfold matchUpTo
  simp [rom_ite, foldl_kept]

@[simp] theorem sendCarry_kept (t : Nat) (s : State) : (sendCarry t s).rom = s.rom := by
  unfold sendCarry
  simp [rom_ite]

@[simp] theorem countOne_kept (t : Nat) (s : State) : (countOne t s).rom = s.rom := by
  unfold countOne
  simp [rom_ite]

@[simp] theorem setRun_kept (t : Nat) (on : Bool) (s : State) : (setRun t on s).rom = s.rom := rfl

@[simp] theorem capture_kept (t k : Nat) (stamp : W64) (ql : Quality) (s : State) : (capture t k stamp ql s).rom = s.rom := rfl

@[simp] theorem landCapture_kept (t k : Nat) (s : State) : (landCapture t k s).rom = s.rom := by
  unfold landCapture
  grind [State.bringTo_kept, State.setTimer_kept, eventLine_kept, postBound_kept]

@[simp] theorem readCapLo_kept (t k : Nat) (s : State) : (readCapLo t k s).2.rom = s.rom := rfl
theorem readCapLo_kept_of (t k : Nat) (s : State) {v0} {nxt : State} (h : readCapLo t k s = (v0, nxt)) : nxt.rom = s.rom := snd_kept h (readCapLo_kept t k s)

@[simp] theorem armCompare_kept (t c : Nat) (v : W64) (s : State) : (armCompare t c v s).rom = s.rom := by
  unfold armCompare
  simp [rom_ite]

@[simp] theorem writeCount_kept (t : Nat) (v : W64) (s : State) : (writeCount t v s).rom = s.rom := by
  unfold writeCount
  simp [rom_ite]

@[simp] theorem coincide_kept (c : SenConsumer) (s : State) : (coincide c s).rom = s.rom := by
  unfold coincide
  (repeat' split) <;> simp

@[simp] theorem consume_kept (c : SenConsumer) (stamp : W64 × Quality) (s : State) : (consume c stamp s).rom = s.rom := by
  unfold consume
  (repeat' split) <;> simp

@[simp] theorem State.setSport_kept (s : State) (ty p : Nat) (f : Port → Port) : (State.setSport s ty p f).rom = s.rom := rfl

@[simp] theorem dataReady_kept (p : Nat) (stamp : W64) (ql : Quality) (s : State) : (dataReady p stamp ql s).rom = s.rom := by
  unfold dataReady
  simp [rom_ite]

@[simp] theorem senReady_kept (ch : Nat) (s : State) : (senReady ch s).rom = s.rom := by
  unfold senReady
  simp [rom_ite, foldl_kept]

@[simp] theorem deliverChannel_kept (ch : Nat) (es : List SenEvent) (s : State) : (deliverChannel ch es s).rom = s.rom := by
  unfold deliverChannel
  grind [State.count_kept, State.modSen_kept, coincide_kept, consume_kept, postBound_kept, senReady_kept, foldl_kept, foldl_kept_snd]

@[simp] theorem deliverNext_kept (s : State) : (deliverNext s).rom = s.rom := by
  unfold deliverNext
  (repeat' split) <;> simp [foldl_kept]

@[simp] theorem markEdge_kept (pin : Nat) (s : State) : (markEdge pin s).rom = s.rom := rfl

@[simp] theorem missEdge_kept (pin : Nat) (s : State) : (missEdge pin s).rom = s.rom := rfl

@[simp] theorem tioBallEdge_kept (p : Nat) (rising : Bool) (s : State) : (tioBallEdge p rising s).rom = s.rom := by
  unfold tioBallEdge
  simp [rom_ite]

@[simp] theorem driveBall_kept (p : Nat) (lvl : Bool) (s : State) : (driveBall p lvl s).rom = s.rom := by
  unfold driveBall
  simp [rom_ite]

@[simp] theorem writeTioCfg_kept (p : Nat) (val : W32) (s : State) : (writeTioCfg p val s).rom = s.rom := by
  unfold writeTioCfg
  simp [rom_ite]

@[simp] theorem writeTmrCtl_kept (t : Nat) (val : W32) (s : State) : (writeTmrCtl t val s).rom = s.rom := rfl

@[simp] theorem writeTimer_kept (t off : Nat) (val : W32) (s : State) : (writeTimer t off val s).rom = s.rom := by
  unfold writeTimer
  (repeat' split) <;> simp

@[simp] theorem readEvctl_kept (t : Nat) (s : State) : (readEvctl t s).2.rom = s.rom := rfl
theorem readEvctl_kept_of (t : Nat) (s : State) {v0} {nxt : State} (h : readEvctl t s = (v0, nxt)) : nxt.rom = s.rom := snd_kept h (readEvctl_kept t s)

@[simp] theorem readCapsel_kept (t : Nat) (s : State) : (readCapsel t s).2.rom = s.rom := rfl
theorem readCapsel_kept_of (t : Nat) (s : State) {v0} {nxt : State} (h : readCapsel t s = (v0, nxt)) : nxt.rom = s.rom := snd_kept h (readCapsel_kept t s)

@[simp] theorem readTioCfg_kept (p : Nat) (s : State) : (readTioCfg p s).2.rom = s.rom := rfl
theorem readTioCfg_kept_of (p : Nat) (s : State) {v0} {nxt : State} (h : readTioCfg p s = (v0, nxt)) : nxt.rom = s.rom := snd_kept h (readTioCfg_kept p s)

@[simp] theorem readSensel_kept (e : Eng) (j : Nat) (s : State) : (readSensel e j s).2.rom = s.rom := rfl
theorem readSensel_kept_of (e : Eng) (j : Nat) (s : State) {v0} {nxt : State} (h : readSensel e j s = (v0, nxt)) : nxt.rom = s.rom := snd_kept h (readSensel_kept e j s)

@[simp] theorem writeSensel_kept (e : Eng) (j : Nat) (val : W32) (s : State) : (writeSensel e j val s).rom = s.rom := rfl

@[simp] theorem readTimer_kept (t off : Nat) (s : State) : (readTimer t off s).2.rom = s.rom := by
  unfold readTimer
  simp [rom_ite, snd_ite]
theorem readTimer_kept_of (t off : Nat) (s : State) {v0} {nxt : State} (h : readTimer t off s = (v0, nxt)) : nxt.rom = s.rom := snd_kept h (readTimer_kept t off s)

@[simp] theorem gstart_kept (on : Bool) (s : State) : (gstart on s).rom = s.rom := by
  unfold gstart
  simp [rom_ite, foldl_kept]

@[simp] theorem swPulse_kept (val : W32) (s : State) : (swPulse val s).rom = s.rom := by
  unfold swPulse
  simp [rom_ite, foldl_kept]

@[simp] theorem stormEnd_kept (s : State) : (stormEnd s).rom = s.rom := by
  unfold stormEnd
  simp [foldl_kept]

/-! ### Time -/

@[simp] theorem State.setTrack_kept (s : State) (c : Nat) (f : Track → Track) : (State.setTrack s c f).rom = s.rom := rfl

@[simp] theorem drawFreq_kept (s : State) : (drawFreq s).2.rom = s.rom := rfl
theorem drawFreq_kept_of (s : State) {v0} {nxt : State} (h : drawFreq s = (v0, nxt)) : nxt.rom = s.rom := snd_kept h (drawFreq_kept s)

@[simp] theorem goServo_kept (st : Quality) (src : Nat) (s : State) : (goServo st src s).rom = s.rom := by
  unfold goServo
  simp [rom_ite]

@[simp] theorem selectedLost_kept (s : State) : (selectedLost s).rom = s.rom := by
  unfold selectedLost
  (repeat' split) <;> simp

@[simp] theorem loseSource_kept (c : Nat) (s : State) : (loseSource c s).rom = s.rom := by
  unfold loseSource
  simp [rom_ite]

@[simp] theorem estimate_kept (s : State) : (estimate s).rom = s.rom := by
  unfold estimate
  simp [rom_ite]

@[simp] theorem lockSample_kept (c : Nat) (ofs : Int) (counts : Bool) (s : State) : (lockSample c ofs counts s).rom = s.rom := by
  unfold lockSample
  simp [rom_ite]

@[simp] theorem entrySample_kept (c : Nat) (ofs : Int) (s : State) : (entrySample c ofs s).rom = s.rom := by
  unfold entrySample
  simp

@[simp] theorem servoSample_kept (c : Nat) (ofs : Int) (counts : Bool) (s : State) : (servoSample c ofs counts s).rom = s.rom := by
  unfold servoSample
  simp

@[simp] theorem sample_kept (c : Nat) (stamp : W64) (ofs : Int) (counts : Bool) (s : State) : (sample c stamp ofs counts s).rom = s.rom := by
  unfold sample
  grind [State.modTime_kept, State.count_kept, State.setTrack_kept, goServo_kept, entrySample_kept, servoSample_kept]

@[simp] theorem applyStep_kept (s : State) : (applyStep s).rom = s.rom := by
  unfold applyStep
  (repeat' split) <;> simp [rom_ite]

@[simp] theorem sourcesChanged_kept (s : State) : (sourcesChanged s).rom = s.rom := by
  unfold sourcesChanged
  simp [rom_ite]

@[simp] theorem reacquire_kept (s : State) : (reacquire s).rom = s.rom := by
  unfold reacquire
  (repeat' split) <;> simp

@[simp] theorem State.setPort_kept (s : State) (p : Nat) (f : GptpPort → GptpPort) : (State.setPort s p f).rom = s.rom := rfl

@[simp] theorem bmca_kept (s : State) : (bmca s).rom = s.rom := by
  unfold bmca
  grind [State.modTime_kept, State.setPort_kept, foldl_kept, foldl_kept_snd]

@[simp] theorem applyRoles_kept (s : State) : (applyRoles s).rom = s.rom := by
  unfold applyRoles
  grind [State.setPort_kept, bmca_kept, foldl_kept, foldl_kept_snd]

@[simp] theorem gptpSample_kept (p : Nat) (arrived : W64) (time : PtpTime) (known : Bool) (s : State) : (gptpSample p arrived time known s).rom = s.rom := by
  unfold gptpSample
  simp [rom_ite]

@[simp] theorem syncReceive_kept (p : Nat) (m : SyncMsg) (s : State) : (syncReceive p m s).rom = s.rom := by
  unfold syncReceive
  simp [rom_ite]

@[simp] theorem followUpReceive_kept (p : Nat) (seq : W16) (time : PtpTime) (s : State) : (followUpReceive p seq time s).rom = s.rom := by
  unfold followUpReceive
  grind [State.setPort_kept, gptpSample_kept]

@[simp] theorem announceReceive_kept (p : Nat) (m : AnnounceMsg) (s : State) : (announceReceive p m s).rom = s.rom := by
  unfold announceReceive
  simp [rom_ite]

@[simp] theorem pdelayReceive_kept (p : Nat) (m : PdelayMsg) (s : State) : (pdelayReceive p m s).rom = s.rom := by
  unfold pdelayReceive
  (repeat' split) <;> simp

@[simp] theorem syncTransmit_kept (p : Nat) (s : State) : (syncTransmit p s).rom = s.rom := by
  unfold syncTransmit
  simp [rom_ite]

@[simp] theorem pdelayReqTransmit_kept (p : Nat) (s : State) : (pdelayReqTransmit p s).rom = s.rom := rfl

@[simp] theorem announceTransmit_kept (p : Nat) (s : State) : (announceTransmit p s).rom = s.rom := by
  unfold announceTransmit
  simp [rom_ite]

@[simp] theorem receiptTimeout_kept (p : Nat) (isSync : Bool) (s : State) : (receiptTimeout p isSync s).rom = s.rom := by
  unfold receiptTimeout
  simp [rom_ite]

@[simp] theorem ppsInput_kept (stamp : W64) (s : State) : (ppsInput stamp s).rom = s.rom := by
  unfold ppsInput
  grind [State.modTime_kept, sample_kept]

@[simp] theorem ppsInEdge_kept (rising : Bool) (s : State) : (ppsInEdge rising s).rom = s.rom := by
  unfold ppsInEdge
  simp [rom_ite]

@[simp] theorem ppsOutEdge_kept (s : State) : (ppsOutEdge s).rom = s.rom := by
  unfold ppsOutEdge
  simp [rom_ite]

@[simp] theorem ppsFall_kept (s : State) : (ppsFall s).rom = s.rom := by
  unfold ppsFall
  (repeat' split) <;> simp

@[simp] theorem ppsRise_kept (s : State) : (ppsRise s).rom = s.rom := by
  unfold ppsRise
  grind [State.modPins_kept, State.modTime_kept, State.advanceVt_kept, assertProducer_kept, ppsOutEdge_kept, ppsFall_kept]

@[simp] theorem ref10InLoss_kept (s : State) : (ref10InLoss s).rom = s.rom := by
  unfold ref10InLoss
  simp [rom_ite]

@[simp] theorem pathFailure_kept (path : Nat) (s : State) : (pathFailure path s).rom = s.rom := by
  unfold pathFailure
  simp [rom_ite]

@[simp] theorem tdcCalibrate_kept (pin residual : Nat) (code : W32) (s : State) : (tdcCalibrate pin residual code s).rom = s.rom := by
  unfold tdcCalibrate
  simp [rom_ite]

@[simp] theorem ptmComplete_kept (t2 : W64) (propNs : W32) (s : State) : (ptmComplete t2 propNs s).rom = s.rom := by
  unfold ptmComplete
  grind [State.modLink_kept, State.modTime_kept, raiseFault_kept, sample_kept]

@[simp] theorem applyPtmOfs_kept (s : State) : (applyPtmOfs s).rom = s.rom := by
  unfold applyPtmOfs
  grind [State.modTime_kept, reacquire_kept]

@[simp] theorem startVt_kept (s : State) : (startVt s).rom = s.rom := by
  unfold startVt
  simp [rom_ite]

/-! ### Gates -/

@[simp] theorem State.setGate_kept (s : State) (k : Nat) (f : Gate → Gate) : (State.setGate s k f).rom = s.rom := rfl

@[simp] theorem release_kept (k : Nat) (s : State) : (release k s).rom = s.rom := by
  unfold release
  grind [State.setGate_kept]

@[simp] theorem overrun_kept (k fret : Nat) (s : State) : (overrun k fret s).rom = s.rom := by
  unfold overrun
  simp

@[simp] theorem skipJob_kept (j : GateJob) (s : State) : (skipJob j s).rom = s.rom := by
  unfold skipJob
  (repeat' split) <;> simp

@[simp] theorem shedLater_kept (k : Nat) (s : State) : (shedLater k s).rom = s.rom := by
  unfold shedLater
  simp [foldl_kept]

@[simp] theorem endJob_kept (k : Nat) (s : State) : (endJob k s).rom = s.rom := by
  unfold endJob
  grind [State.modStroke_kept, State.setGate_kept, finish_kept, release_kept, shedLater_kept]

@[simp] theorem budgetExpire_kept (k : Nat) (s : State) : (budgetExpire k s).rom = s.rom := by
  unfold budgetExpire
  simp [rom_ite]

@[simp] theorem boundaryOverruns_kept (s : State) : (boundaryOverruns s).rom = s.rom := by
  unfold boundaryOverruns
  grind [State.setGate_kept, overrun_kept, foldl_kept, foldl_kept_snd]

@[simp] theorem fillPlanned_kept (s : State) : (fillPlanned s).rom = s.rom := by
  unfold fillPlanned
  grind [State.setGate_kept, foldl_kept, foldl_kept_snd]

@[simp] theorem fillSubmitted_kept (r : JobRec) (s : State) : (fillSubmitted r s).rom = s.rom := by
  unfold fillSubmitted
  simp [rom_ite]

@[simp] theorem fillGates_kept (s : State) : (fillGates s).rom = s.rom := by
  unfold fillGates
  simp [foldl_kept]

@[simp] theorem releaseAll_kept (s : State) : (releaseAll s).rom = s.rom := by
  unfold releaseAll
  simp [foldl_kept]

@[simp] theorem withdrawJobs_kept (course : Nat) (running : Bool) (s : State) : (withdrawJobs course running s).rom = s.rom := by
  unfold withdrawJobs
  simp [rom_ite, foldl_kept]

/-! ### Memory -/

@[simp] theorem State.setEcc_kept (s : State) (key : Nat) (f : EccRec → EccRec) : (State.setEcc s key f).rom = s.rom := rfl

@[simp] theorem eccCe_kept (c : Cw) (j : Nat) (stored : Bool) (s : State) : (eccCe c j stored s).rom = s.rom := by
  unfold eccCe
  simp

@[simp] theorem eccUe_kept (c : Cw) (s : State) : (eccUe c s).rom = s.rom := by
  unfold eccUe
  simp

@[simp] theorem eccMeet_kept (c : Cw) (first : Bool) (s : State) : (eccMeet c first s).2.2.rom = s.rom := by
  unfold eccMeet
  grind [State.setEcc_kept, foldl_kept, foldl_kept_snd]
theorem eccMeet_kept_of (c : Cw) (first : Bool) (s : State) {v0} {v1} {nxt : State} (h : eccMeet c first s = (v0, v1, nxt)) : nxt.rom = s.rom := by
  have k := eccMeet_kept c first s
  rw [h] at k
  exact k

theorem asInjected_kept {inj : Bool} {f : State → State} (h : ∀ s, (f s).rom = s.rom) (s : State) :
    (asInjected inj f s).rom = s.rom := by
  unfold asInjected
  split <;> simp [State.modFcu_kept, h]

@[simp] theorem eccCheck_kept (c : Cw) (first : Bool) (s : State) : (eccCheck c first s).2.rom = s.rom := by
  unfold eccCheck
  have h := eccMeet_kept c first s
  dsimp only
  split
  · rfl
  · split
    · exact h
    · exact (asInjected_kept (eccCe_kept c _ _) _).trans h
    · exact (asInjected_kept (eccUe_kept c) _).trans h
theorem eccCheck_kept_of (c : Cw) (first : Bool) (s : State) {v0} {nxt : State} (h : eccCheck c first s = (v0, nxt)) : nxt.rom = s.rom := snd_kept h (eccCheck_kept c first s)

@[simp] theorem State.setMem_kept (s : State) (m : MemRef) (v : Mem) : (State.setMem s m v).rom = s.rom := by
  unfold State.setMem
  (repeat' split) <;> simp

@[simp] theorem memLoad_kept (m : MemRef) (a n : Nat) (s : State) : (memLoad m a n s).2.rom = s.rom := by
  have h : ∀ (l : List Cw) p, (l.foldl (fun (p : List (Cw × Option (List (Nat × Byte))) × State) c =>
      (p.1 ++ [(c, (eccCheck c p.1.isEmpty p.2).1)], (eccCheck c p.1.isEmpty p.2).2)) p).2.rom = p.2.rom :=
    foldl_kept_snd fun p c => eccCheck_kept c _ p.2
  unfold memLoad
  dsimp only
  split <;> exact h _ ([], s)
theorem memLoad_kept_of (m : MemRef) (a n : Nat) (s : State) {v0} {nxt : State} (h : memLoad m a n s = (v0, nxt)) : nxt.rom = s.rom := snd_kept h (memLoad_kept m a n s)

@[simp] theorem eccWritten_kept (c : Cw) (first : Bool) (s : State) : (eccWritten c first s).rom = s.rom := by
  unfold eccWritten
  grind [State.setEcc_kept]

@[simp] theorem storeResidue_kept (m : MemRef) (c : Cw) (pat : List (Nat × Byte)) (s : State) : (storeResidue m c pat s).rom = s.rom := by
  unfold storeResidue
  simp [rom_ite, foldl_kept]

@[simp] theorem storeCw_kept (m : MemRef) (c : Cw) (first : Bool) (a : Nat) (bytes : List Byte) (s : State) :
    (storeCw m c first a bytes s).2.rom = s.rom := by
  unfold storeCw
  dsimp only
  split
  · simp [snd_ite, rom_ite, eccCheck_kept]
  · split <;> simp [eccCheck_kept, State.setMem_kept]
theorem storeCw_kept_of (m : MemRef) (c : Cw) (first : Bool) (a : Nat) (bytes : List Byte) (s : State) {v0} {nxt : State} (h : storeCw m c first a bytes s = (v0, nxt)) : nxt.rom = s.rom := snd_kept h (storeCw_kept m c first a bytes s)

@[simp] theorem sramCheck_kept (i : Nat) (o : Nat) (s : State) : (sramCheck i o s).2.rom = s.rom := by
  unfold sramCheck
  simp
theorem sramCheck_kept_of (i : Nat) (o : Nat) (s : State) {v0} {nxt : State} (h : sramCheck i o s = (v0, nxt)) : nxt.rom = s.rom := snd_kept h (sramCheck_kept i o s)

@[simp] theorem sramWrite_kept (i : Nat) (o : Nat) (s : State) : (sramWrite i o s).2.rom = s.rom := by
  unfold sramWrite
  simp [rom_ite]
theorem sramWrite_kept_of (i : Nat) (o : Nat) (s : State) {v0} {nxt : State} (h : sramWrite i o s = (v0, nxt)) : nxt.rom = s.rom := snd_kept h (sramWrite_kept i o s)

@[simp] theorem memStore_kept (m : MemRef) (a : Nat) (bytes : List Byte) (s : State) : (memStore m a bytes s).2.rom = s.rom := by
  unfold memStore
  dsimp only
  split
  · rfl
  · rfl
  · refine foldl_kept_snd ?_ _ (true, s)
    exact fun p c => storeCw_kept m c _ a bytes p.2
theorem memStore_kept_of (m : MemRef) (a : Nat) (bytes : List Byte) (s : State) {v0} {nxt : State} (h : memStore m a bytes s = (v0, nxt)) : nxt.rom = s.rom := snd_kept h (memStore_kept m a bytes s)

@[simp] theorem fabError_kept (timeout write : Bool) (master addr : Nat) (s : State) : (fabError timeout write master addr s).rom = s.rom := by
  unfold fabError
  simp [rom_ite]

@[simp] theorem decodeError_kept (write : Bool) (m : Master) (addr : Nat) (s : State) : (decodeError write m addr s).rom = s.rom := by
  unfold decodeError
  simp

/-! ### EngineBase -/

@[simp] theorem engineResetAt_kept (e : Eng) (s : State) : (engineResetAt e s).rom = s.rom := by
  unfold engineResetAt
  grind [State.setEcc_kept, State.setEngine_kept]

@[simp] theorem writeVeCtl_kept (e : Eng) (val : W32) (s : State) : (writeVeCtl e val s).rom = s.rom := by
  unfold writeVeCtl
  simp [rom_ite]

@[simp] theorem pushAsync_kept (e : Eng) (x : AsyncErr) (s : State) : (pushAsync e x s).rom = s.rom := by
  unfold pushAsync
  simp [rom_ite]

/-! ### SenCmds -/

theorem execSenSwpulseWrite_kept (val : W32) (s : State) {nxt : State} : execSenSwpulseWrite val s = .next nxt → nxt.rom = s.rom := by
  intro h
  exact act_kept (by simp) h

theorem execSenEventDelivery_kept (s : State) {nxt : State} : execSenEventDelivery s = .next nxt → nxt.rom = s.rom := by
  intro h
  exact act_kept (by simp) h

@[simp] theorem emitVal_kept (r : W32 × State) : (emitVal r).rom = r.2.rom := rfl

theorem execVeSenselRead_kept (e : Eng) (j : Nat) (s : State) {nxt : State} : execVeSenselRead e j s = .next nxt → nxt.rom = s.rom := by
  intro h
  exact act_kept (by simp) h

@[simp] theorem timerTick_kept (t : Nat) (s : State) : (timerTick t s).rom = s.rom := by
  unfold timerTick
  grind [State.bringTo_kept, State.count_kept, State.setTimer_kept, countOne_kept, deliverNext_kept]

theorem execTimerTick_kept (t : Nat) (s : State) {nxt : State} : execTimerTick t s = .next nxt → nxt.rom = s.rom := by
  intro h
  exact act_kept (by simp) h

@[simp] theorem carryArrive_kept (t : Nat) (s : State) : (carryArrive t s).rom = s.rom := by
  unfold carryArrive
  simp [rom_ite]

theorem execLinkedCarryArrive_kept (t : Nat) (s : State) {nxt : State} : execLinkedCarryArrive t s = .next nxt → nxt.rom = s.rom := by
  intro h
  exact act_kept (by simp) h

theorem execTimerCompareMatch_kept (t c : Nat) (s : State) {nxt : State} : execTimerCompareMatch t c s = .next nxt → nxt.rom = s.rom := by
  intro h
  exact act_kept (by simp) h

@[simp] theorem holdLo_kept (key : Nat) (v : W32) (s : State) : (holdLo key v s).rom = s.rom := rfl

@[simp] theorem withHeldLo_kept (key : Nat) (cur : W64) (hi : W32) (s : State) : (withHeldLo key cur hi s).2.rom = s.rom := rfl
theorem withHeldLo_kept_of (key : Nat) (cur : W64) (hi : W32) (s : State) {v0} {nxt : State} (h : withHeldLo key cur hi s = (v0, nxt)) : nxt.rom = s.rom := snd_kept h (withHeldLo_kept key cur hi s)

@[simp] theorem writeCmpHalf_kept (t c : Nat) (high : Bool) (val : W32) (s : State) : (writeCmpHalf t c high val s).rom = s.rom := by
  unfold writeCmpHalf
  simp [rom_ite]

@[simp] theorem writeCntHalf_kept (t : Nat) (high : Bool) (val : W32) (s : State) : (writeCntHalf t high val s).rom = s.rom := by
  unfold writeCntHalf
  simp [rom_ite]

theorem execTmrCmpWrite_kept (t c : Nat) (high : Bool) (val : W32) (s : State) {nxt : State} : execTmrCmpWrite t c high val s = .next nxt → nxt.rom = s.rom := by
  intro h
  exact act_kept (by simp) h

theorem execTmrCntWrite_kept (t : Nat) (high : Bool) (val : W32) (s : State) {nxt : State} : execTmrCntWrite t high val s = .next nxt → nxt.rom = s.rom := by
  intro h
  exact act_kept (by simp) h

theorem execTmrEvctlRead_kept (t : Nat) (s : State) {nxt : State} : execTmrEvctlRead t s = .next nxt → nxt.rom = s.rom := by
  intro h
  exact act_kept (by simp) h

theorem execTmrCapselRead_kept (t : Nat) (s : State) {nxt : State} : execTmrCapselRead t s = .next nxt → nxt.rom = s.rom := by
  intro h
  exact act_kept (by simp) h

theorem execCaptureLand_kept (t k : Nat) (s : State) {nxt : State} : execCaptureLand t k s = .next nxt → nxt.rom = s.rom := by
  intro h
  exact act_kept (by simp) h

theorem execTmrCapLoRead_kept (t k : Nat) (s : State) {nxt : State} : execTmrCapLoRead t k s = .next nxt → nxt.rom = s.rom := by
  intro h
  exact act_kept (by simp) h

theorem execTmrGstartGo_kept (s : State) {nxt : State} : execTmrGstartGo s = .next nxt → nxt.rom = s.rom := by
  intro h
  exact act_kept (by simp) h

theorem execTmrGstartStop_kept (s : State) {nxt : State} : execTmrGstartStop s = .next nxt → nxt.rom = s.rom := by
  intro h
  exact act_kept (by simp) h

@[simp] theorem ballDrive_kept (p : Nat) (s : State) : (ballDrive p s).rom = s.rom := by
  unfold ballDrive
  grind [State.bringTo_kept, State.modSen_kept, driveBall_kept]

theorem execTioBallDrive_kept (pin : Nat) (s : State) {nxt : State} : execTioBallDrive pin s = .next nxt → nxt.rom = s.rom := by
  intro h
  exact act_kept (by simp) h

theorem execTioCfgRead_kept (pin : Nat) (s : State) {nxt : State} : execTioCfgRead pin s = .next nxt → nxt.rom = s.rom := by
  intro h
  exact act_kept (by simp) h

theorem execStormWindowEnd_kept (s : State) {nxt : State} : execStormWindowEnd s = .next nxt → nxt.rom = s.rom := by
  intro h
  exact act_kept (by simp) h

theorem execTioEdge_kept (pin : Nat) (rising : Bool) (s : State) {nxt : State} : execTioEdge pin rising s = .next nxt → nxt.rom = s.rom := by
  intro h
  exact act_kept (by simp) h

theorem execDebugHalt_kept (core : DebugCore) (s : State) {nxt : State} : execDebugHalt core s = .next nxt → nxt.rom = s.rom := by
  intro h
  exact act_kept (by simp) h

@[simp] theorem debugRelease_kept (core : DebugCore) (s : State) : (debugRelease core s).rom = s.rom := by
  unfold debugRelease
  simp [rom_ite, foldl_kept]

theorem execDebugHaltRelease_kept (core : DebugCore) (s : State) {nxt : State} : execDebugHaltRelease core s = .next nxt → nxt.rom = s.rom := by
  intro h
  exact act_kept (by simp) h

/-! ### DmaBase -/

@[simp] theorem State.setDma_kept (s : State) (k : Nat) (f : DmaCh → DmaCh) : (State.setDma s k f).rom = s.rom := rfl

@[simp] theorem dmaReport_kept (k : Nat) (bad : Bool) (s : State) : (dmaReport k bad s).rom = s.rom := by
  unfold dmaReport
  grind [State.setDma_kept, State.setEngine_kept, pushAsync_kept]

@[simp] theorem dmaIrq_kept (k eng : Nat) (s : State) : (dmaIrq k eng s).rom = s.rom := by
  unfold dmaIrq
  simp [rom_ite]

@[simp] theorem dmaFail_kept (k code cause : Nat) (s : State) : (dmaFail k code cause s).rom = s.rom := by
  unfold dmaFail
  grind [State.setDma_kept, dmaIrq_kept, raiseFault_kept]

@[simp] theorem dmaCheck_kept (k : Nat) (s : State) : (dmaCheck k s).rom = s.rom := by
  unfold dmaCheck
  grind [State.setDma_kept, dmaFail_kept, dmaReport_kept, memLoad_kept, → memLoad_kept_of]

@[simp] theorem dmaGo_kept (k : Nat) (by' : Option (Eng × W32)) (s : State) : (dmaGo k by' s).rom = s.rom := by
  unfold dmaGo
  grind [State.setDma_kept, State.setEngine_kept]

@[simp] theorem dmaStop_kept (k : Nat) (s : State) : (dmaStop k s).rom = s.rom := by
  unfold dmaStop
  simp [rom_ite]

@[simp] theorem dmaCmd_kept (k : Nat) (val : W32) (by' : Option (Eng × W32)) (s : State) : (dmaCmd k val by' s).rom = s.rom := by
  unfold dmaCmd
  simp [rom_ite]

@[simp] theorem writeDma_kept (k off : Nat) (val : W32) (by' : Option (Eng × W32)) (s : State) : (writeDma k off val by' s).rom = s.rom := by
  unfold writeDma
  (repeat' split) <;> simp

@[simp] theorem dmaKill_kept (course : Nat) (s : State) : (dmaKill course s).rom = s.rom := rfl

@[simp] theorem dmaStopCourse_kept (course : Nat) (s : State) : (dmaStopCourse course s).rom = s.rom := rfl

/-! ### Image -/

@[simp] theorem csmBytes_kept (n : Nat) (k : Nat) (s : State) : (csmBytes n k s).2.rom = s.rom := by
  unfold csmBytes
  simp
theorem csmBytes_kept_of (n : Nat) (k : Nat) (s : State) {v0} {nxt : State} (h : csmBytes n k s = (v0, nxt)) : nxt.rom = s.rom := snd_kept h (csmBytes_kept n k s)

@[simp] theorem csmImage_kept (s : State) : (csmImage s).2.rom = s.rom := by
  unfold csmImage
  exact csmBytes_kept _ _ s
theorem csmImage_kept_of (s : State) {v0} {nxt : State} (h : csmImage s = (v0, nxt)) : nxt.rom = s.rom := snd_kept h (csmImage_kept s)

@[simp] theorem beginWrite_kept (q : Nat) (cid : Nat) (key : Nat) (i : List Byte) (s : State) : (beginWrite q cid key i s).rom = s.rom := rfl

@[simp] theorem endWrites_kept (who : Nat → Nat → Bool) (s : State) : (endWrites who s).rom = s.rom := rfl

/-! ### Queue -/

@[simp] theorem touchCtx_kept (q : Nat) (s : State) : (touchCtx q s).rom = s.rom := by
  unfold touchCtx
  simp [rom_ite]

@[simp] theorem startDelete_kept (deleter : Option (Nat × Nat)) (q : Nat) (s : State) : (startDelete deleter q s).rom = s.rom := rfl

@[simp] theorem dropReads_kept (q : Nat) (s : State) : (dropReads q s).rom = s.rom := rfl

@[simp] theorem unbindStreams_kept (q : Nat) (s : State) : (unbindStreams q s).rom = s.rom := rfl

@[simp] theorem dropQp_kept (q : Nat) (s : State) : (dropQp q s).rom = s.rom := rfl

@[simp] theorem deleteFn_kept (v : Nat) (s : State) : (deleteFn v s).rom = s.rom := by
  unfold deleteFn
  grind [startDelete_kept, foldl_kept, foldl_kept_snd]

@[simp] theorem resetFn_kept (v : Nat) (s : State) : (resetFn v s).rom = s.rom := by
  unfold resetFn
  grind [State.modLink_kept, dropReads_kept, deleteFn_kept, foldl_kept, foldl_kept_snd]

@[simp] theorem deleteDone_kept (q : Nat) (s : State) : (deleteDone q s).rom = s.rom := by
  unfold deleteDone
  grind [State.setFn_kept, dropQp_kept, finish_kept]

theorem execQpDeleteComplete_kept (q : Nat) (s : State) {nxt : State} : execQpDeleteComplete q s = .next nxt → nxt.rom = s.rom := by
  intro h
  exact act_kept (by simp) h

@[simp] theorem aqEnable_kept (v : Nat) (s : State) : (aqEnable v s).rom = s.rom := by
  unfold aqEnable
  simp [rom_ite]

theorem execAqCtlEnable_kept (v : Nat) (s : State) {nxt : State} : execAqCtlEnable v s = .next nxt → nxt.rom = s.rom := by
  intro h
  exact act_kept (by simp) h

@[simp] theorem aqDisable_kept (v : Nat) (s : State) : (aqDisable v s).rom = s.rom := by
  unfold aqDisable
  simp [rom_ite]

theorem execAqCtlDisable_kept (v : Nat) (s : State) {nxt : State} : execAqCtlDisable v s = .next nxt → nxt.rom = s.rom := by
  intro h
  exact act_kept (by simp) h

@[simp] theorem writeAq_kept (v off : Nat) (val : W32) (s : State) : (writeAq v off val s).rom = s.rom := by
  unfold writeAq
  grind [State.setFn_kept, aqDisable_kept, aqEnable_kept, holdLo_kept, withHeldLo_kept, → withHeldLo_kept_of]

@[simp] theorem dbDrop_kept (v : Nat) (s : State) : (dbDrop v s).rom = s.rom := rfl

@[simp] theorem sqTail_kept (q tail : Nat) (s : State) : (sqTail q tail s).rom = s.rom := by
  unfold sqTail
  simp [rom_ite]

@[simp] theorem cqHead_kept (q head : Nat) (s : State) : (cqHead q head s).rom = s.rom := by
  unfold cqHead
  simp [rom_ite]

@[simp] theorem doorbell_kept (v l : Nat) (tail : Bool) (bytes : Nat) (val : W32) (s : State) : (doorbell v l tail bytes val s).rom = s.rom := by
  unfold doorbell
  (repeat' split) <;> simp

@[simp] theorem doorbellPair_kept (v l : Nat) (tail head : W32) (s : State) : (doorbellPair v l tail head s).rom = s.rom := by
  unfold doorbellPair
  (repeat' split) <;> simp [rom_ite]

theorem execSqTailDoorbell_kept (v q bytes : Nat) (val : W32) (s : State) {nxt : State} : execSqTailDoorbell v q bytes val s = .next nxt → nxt.rom = s.rom := by
  intro h
  exact act_kept (by simp) h

theorem execCqHeadDoorbell_kept (v q bytes : Nat) (val : W32) (s : State) {nxt : State} : execCqHeadDoorbell v q bytes val s = .next nxt → nxt.rom = s.rom := by
  intro h
  exact act_kept (by simp) h

theorem execDoorbellPairWrite_kept (v q : Nat) (tail head : W32) (s : State) {nxt : State} : execDoorbellPairWrite v q tail head s = .next nxt → nxt.rom = s.rom := by
  intro h
  exact act_kept (by simp) h

@[simp] theorem readDbDrop_kept (v : Nat) (s : State) : (readDbDrop v s).2.rom = s.rom := rfl
theorem readDbDrop_kept_of (v : Nat) (s : State) {v0} {nxt : State} (h : readDbDrop v s = (v0, nxt)) : nxt.rom = s.rom := snd_kept h (readDbDrop_kept v s)

theorem execQcapDbdropRead_kept (v : Nat) (s : State) {nxt : State} : execQcapDbdropRead v s = .next nxt → nxt.rom = s.rom := by
  intro h
  exact act_kept (by simp) h

@[simp] theorem fetchSq_kept (q : Nat) (s : State) : (fetchSq q s).rom = s.rom := by
  unfold fetchSq
  simp

@[simp] theorem fetchNext_kept (s : State) : (fetchNext s).rom = s.rom := by
  unfold fetchNext
  (repeat' split) <;> simp

theorem execSqEntryFetch_kept (s : State) {nxt : State} : execSqEntryFetch s = .next nxt → nxt.rom = s.rom := by
  intro h
  exact act_kept (by simp) h

@[simp] theorem takeEntries_kept (q : Nat) (a : List Entry) (s : State) : (takeEntries q a s).rom = s.rom := by
  induction a generalizing s with
  | nil => rfl
  | cons e es ih => simp [takeEntries, ih]

@[simp] theorem postCompletion_kept (q : Nat) (s : State) : (postCompletion q s).rom = s.rom := by
  unfold postCompletion
  (repeat' split) <;> simp [rom_ite]

theorem execCompletionPost_kept (q : Nat) (s : State) {nxt : State} : execCompletionPost q s = .next nxt → nxt.rom = s.rom := by
  intro h
  exact act_kept (by simp) h

@[simp] theorem moderationExpire_kept (q : Nat) (s : State) : (moderationExpire q s).rom = s.rom := by
  unfold moderationExpire
  grind [State.bringTo_kept, State.setQp_kept, sendMsix_kept]

theorem execModerationTimerExpiry_kept (q : Nat) (s : State) {nxt : State} : execModerationTimerExpiry q s = .next nxt → nxt.rom = s.rom := by
  intro h
  exact act_kept (by simp) h

@[simp] theorem queueFullClose_kept (q : Nat) (s : State) : (queueFullClose q s).rom = s.rom := by
  unfold queueFullClose
  simp

theorem execQueueFullClose_kept (q : Nat) (s : State) {nxt : State} : execQueueFullClose q s = .next nxt → nxt.rom = s.rom := by
  intro h
  exact act_kept (by simp) h

@[simp] theorem writeMsix_kept (v vec word : Nat) (val : W32) (s : State) : (writeMsix v vec word val s).rom = s.rom := by
  unfold writeMsix
  simp

theorem execMsixTableWrite_kept (v vec word : Nat) (val : W32) (s : State) {nxt : State} : execMsixTableWrite v vec word val s = .next nxt → nxt.rom = s.rom := by
  intro h
  exact act_kept (by simp) h

@[simp] theorem vfsClear_kept (s : State) : (vfsClear s).rom = s.rom := by
  unfold vfsClear
  simp [foldl_kept]

@[simp] theorem flr_kept (v : Nat) (s : State) : (flr v s).rom = s.rom := by
  unfold flr
  simp [rom_ite]

theorem execFunctionLevelReset_kept (v : Nat) (s : State) {nxt : State} : execFunctionLevelReset v s = .next nxt → nxt.rom = s.rom := by
  intro h
  exact act_kept (by simp) h

theorem execVfEnableClear_kept (s : State) {nxt : State} : execVfEnableClear s = .next nxt → nxt.rom = s.rom := by
  intro h
  exact act_kept (by simp) h

theorem execD3hotTransition_kept (v : Nat) (s : State) {nxt : State} : execD3hotTransition v s = .next nxt → nxt.rom = s.rom := by
  intro h
  exact act_kept (by simp) h

@[simp] theorem toD0_kept (v : Nat) (s : State) : (toD0 v s).rom = s.rom := by
  unfold toD0
  simp [rom_ite, foldl_kept]

@[simp] theorem logError_kept (e : TlpError) (header : W64 × W64) (s : State) : (logError e header s).rom = s.rom := by
  unfold logError
  (repeat' split) <;> simp

@[simp] theorem tlpError_kept (e : TlpError) (s : State) : (tlpError e s).rom = s.rom := by
  unfold tlpError
  (repeat' split) <;> simp

theorem execPcieTlpError_kept (e : TlpError) (header : BitVec 128) (s : State) {nxt : State} : execPcieTlpError e header s = .next nxt → nxt.rom = s.rom := by
  intro h
  exact act_kept (by simp) h

@[simp] theorem fetchFailed_kept (q : Nat) (cause : Nat) (s : State) : (fetchFailed q cause s).rom = s.rom := by
  unfold fetchFailed
  simp [rom_ite]

@[simp] theorem readDone_kept (q : Nat) (d : SqData) (s : State) : (readDone q d s).rom = s.rom := by
  unfold readDone
  (repeat' split) <;> simp

theorem execSqReadTimeout_kept (q : Nat) (s : State) {nxt : State} : execSqReadTimeout q s = .next nxt → nxt.rom = s.rom := by
  intro h
  exact act_kept (by simp) h

end Sys2Proof.Machine
end

