-- ==== Sys2Proof/Laws/Kept2.lean ====
section
/-! SUPPORT. What keeps fuses, the waiting commands and the straps: time, the log store, start-up, registers and buses (R18, R53, R124). -/
namespace Sys2Proof.Machine

/-! ### TimeCmds -/

theorem execGptpSyncReceive_kept (p : Nat) (m : SyncMsg) (s : State) {nxt : State} : execGptpSyncReceive p m s = .next nxt → nxt.rom = s.rom := by
  intro h
  exact act_kept (by simp) h

theorem execGptpFollowUpReceive_kept (p : Nat) (seq : W16) (time : PtpTime) (s : State) {nxt : State} : execGptpFollowUpReceive p seq time s = .next nxt → nxt.rom = s.rom := by
  intro h
  exact act_kept (by simp) h

theorem execGptpAnnounceReceive_kept (p : Nat) (m : AnnounceMsg) (s : State) {nxt : State} : execGptpAnnounceReceive p m s = .next nxt → nxt.rom = s.rom := by
  intro h
  exact act_kept (by simp) h

theorem execGptpPdelayReceive_kept (p : Nat) (m : PdelayMsg) (s : State) {nxt : State} : execGptpPdelayReceive p m s = .next nxt → nxt.rom = s.rom := by
  intro h
  exact act_kept (by simp) h

theorem execGptpSyncTransmit_kept (p : Nat) (s : State) {nxt : State} : execGptpSyncTransmit p s = .next nxt → nxt.rom = s.rom := by
  intro h
  exact act_kept (by simp) h

theorem execGptpPdelayReqTransmit_kept (p : Nat) (s : State) {nxt : State} : execGptpPdelayReqTransmit p s = .next nxt → nxt.rom = s.rom := by
  intro h
  exact act_kept (by simp) h

theorem execGptpAnnounceTransmit_kept (p : Nat) (s : State) {nxt : State} : execGptpAnnounceTransmit p s = .next nxt → nxt.rom = s.rom := by
  intro h
  exact act_kept (by simp) h

theorem execGptpReceiptTimeout_kept (p : Nat) (isSync : Bool) (s : State) {nxt : State} : execGptpReceiptTimeout p isSync s = .next nxt → nxt.rom = s.rom := by
  intro h
  exact act_kept (by simp) h

theorem execPpsInEdge_kept (rising : Bool) (s : State) {nxt : State} : execPpsInEdge rising s = .next nxt → nxt.rom = s.rom := by
  intro h
  exact act_kept (by simp) h

@[simp] theorem sourceTimeout_kept (c : Nat) (s : State) : (sourceTimeout c s).rom = s.rom := by
  unfold sourceTimeout
  simp [rom_ite]

theorem execSourceTimeout_kept (code : Nat) (s : State) {nxt : State} : execSourceTimeout code s = .next nxt → nxt.rom = s.rom := by
  intro h
  exact act_kept (by simp) h

@[simp] theorem holdoverExpiry_kept (s : State) : (holdoverExpiry s).rom = s.rom := by
  unfold holdoverExpiry
  simp

theorem execHoldoverLimitExpiry_kept (s : State) {nxt : State} : execHoldoverLimitExpiry s = .next nxt → nxt.rom = s.rom := by
  intro h
  exact act_kept (by simp) h

theorem execRef10InLoss_kept (s : State) {nxt : State} : execRef10InLoss s = .next nxt → nxt.rom = s.rom := by
  intro h
  exact act_kept (by simp) h

theorem execCrystalPathFailure_kept (path : Nat) (s : State) {nxt : State} : execCrystalPathFailure path s = .next nxt → nxt.rom = s.rom := by
  intro h
  exact act_kept (by simp) h

theorem execTdcRecalibration_kept (pin residualVt : Nat) (code : W32) (s : State) {nxt : State} : execTdcRecalibration pin residualVt code s = .next nxt → nxt.rom = s.rom := by
  intro h
  exact act_kept (by simp) h

@[simp] theorem saveVt_kept (s : State) : (saveVt s).rom = s.rom := rfl

theorem execVt64Save_kept (s : State) {nxt : State} : execVt64Save s = .next nxt → nxt.rom = s.rom := by
  intro h
  exact act_kept (by simp) h

theorem execPpsOutRise_kept (s : State) {nxt : State} : execPpsOutRise s = .next nxt → nxt.rom = s.rom := by
  intro h
  exact act_kept (by simp) h

theorem execPpsOutFall_kept (s : State) {nxt : State} : execPpsOutFall s = .next nxt → nxt.rom = s.rom := by
  intro h
  exact act_kept (by simp) h

@[simp] theorem writePtmOfs_kept (v : W64) (s : State) : (writePtmOfs v s).rom = s.rom := rfl

theorem execTePtmOfsWrite_kept (val : W64) (s : State) {nxt : State} : execTePtmOfsWrite val s = .next nxt → nxt.rom = s.rom := by
  intro h
  exact act_kept (by simp) h

@[simp] theorem ptmRequest_kept (s : State) : (ptmRequest s).rom = s.rom := rfl

theorem execPtmRequestIssue_kept (responds : Bool) (s : State) {nxt : State} : execPtmRequestIssue responds s = .next nxt → nxt.rom = s.rom := by
  intro h
  exact act_kept (by simp) h

theorem execPtmDialogComplete_kept (t2 : W64) (propNs : W32) (s : State) {nxt : State} : execPtmDialogComplete t2 propNs s = .next nxt → nxt.rom = s.rom := by
  intro h
  exact act_kept (by simp) h

/-! ### PcieCfg -/

@[simp] theorem writeBar_kept (v : Nat) (bar : Nat) (val : W32) (s : State) : (writeBar v bar val s).rom = s.rom := by
  unfold writeBar
  simp [rom_ite]

@[simp] theorem writeDevCtl_kept (v : Nat) (val : W32) (s : State) : (writeDevCtl v val s).rom = s.rom := rfl

@[simp] theorem writeDevCtl2_kept (v : Nat) (val : W32) (s : State) : (writeDevCtl2 v val s).rom = s.rom := rfl

@[simp] theorem clearAer_kept (uncor : Bool) (val : W32) (s : State) : (clearAer uncor val s).rom = s.rom := rfl

@[simp] theorem trainPcie_kept (width : Nat) (speed : Nat) (s : State) : (trainPcie width speed s).rom = s.rom := by
  unfold trainPcie
  simp [rom_ite]

@[simp] theorem setNumVfs_kept (n : Nat) (s : State) : (setNumVfs n s).rom = s.rom := by
  unfold setNumVfs
  simp [rom_ite]

/-! ### Log -/

@[simp] theorem trackPeak_kept (s : State) : (trackPeak s).rom = s.rom := rfl

@[simp] theorem queueSys_kept (r : LogRec) (s : State) : (queueSys r s).rom = s.rom := rfl

@[simp] theorem enterSys_kept (r : LogRec) (s : State) : (enterSys r s).rom = s.rom := by
  unfold enterSys
  simp [rom_ite]

@[simp] theorem enterWaiting_kept (n : Nat) (s : State) : (enterWaiting n s).rom = s.rom := by
  induction n generalizing s with
  | zero => rfl
  | succ k ih => unfold enterWaiting; (repeat' split) <;> simp [ih]

@[simp] theorem enterSystem_kept (kind : Nat) (vt : W64) (stream : Nat) (body : List Byte) (s : State) : (enterSystem kind vt stream body s).rom = s.rom := by
  unfold enterSystem
  simp

@[simp] theorem enterGap_kept (g : LogGap) (s : State) : (enterGap g s).rom = s.rom := by
  unfold enterGap
  simp

@[simp] theorem flushGap_kept (p : LogGap → Bool) (s : State) : (flushGap p s).rom = s.rom := by
  unfold flushGap
  grind [State.modLgs_kept, enterGap_kept, foldl_kept, foldl_kept_snd]

@[simp] theorem addGap_kept (cause : Nat) (r : LogRec) (s : State) : (addGap cause r s).rom = s.rom := rfl

@[simp] theorem refuseRec_kept (r : LogRec) (s : State) : (refuseRec r s).rom = s.rom := rfl

@[simp] theorem wantRing_kept (r : LogRec) (s : State) : (wantRing r s).2.rom = s.rom := by
  unfold wantRing
  (repeat' split) <;> simp
theorem wantRing_kept_of (r : LogRec) (s : State) {v0} {nxt : State} (h : wantRing r s = (v0, nxt)) : nxt.rom = s.rom := snd_kept h (wantRing_kept r s)

@[simp] theorem trimRing_kept (n : Nat) (s : State) : (trimRing n s).rom = s.rom := by
  induction n generalizing s with
  | zero => rfl
  | succ k ih => unfold trimRing; (repeat' split) <;> simp [ih, rom_ite]

@[simp] theorem enterRing_kept (r : LogRec) (s : State) : (enterRing r s).rom = s.rom := by
  unfold enterRing
  simp

@[simp] theorem openTrigger_kept (t : W64) (pre post cls src : Nat) (s : State) : (openTrigger t pre post cls src s).2.rom = s.rom := by
  unfold openTrigger
  simp [foldl_kept_snd]
theorem openTrigger_kept_of (t : W64) (pre post cls src : Nat) (s : State) {v0} {nxt : State} (h : openTrigger t pre post cls src s = (v0, nxt)) : nxt.rom = s.rom := snd_kept h (openTrigger_kept t pre post cls src s)

@[simp] theorem enterRecord_kept (r : LogRec) (s : State) : (enterRecord r s).2.rom = s.rom := by
  unfold enterRecord
  simp [rom_ite, snd_ite]
theorem enterRecord_kept_of (r : LogRec) (s : State) {v0} {nxt : State} (h : enterRecord r s = (v0, nxt)) : nxt.rom = s.rom := snd_kept h (enterRecord_kept r s)

@[simp] theorem shedBoundary_kept (s : State) : (shedBoundary s).rom = s.rom := by
  unfold shedBoundary
  grind [State.modLgs_kept, State.modStroke_kept, flushGap_kept, raiseFault_kept]

theorem openSeg_kept {slc : Bool} {n k : Nat} {s nxt : State} : openSeg slc n s = some (k, nxt) → nxt.rom = s.rom := by
  unfold openSeg
  grind [State.modLgs_kept, State.emit_kept]

@[simp] theorem growBad_kept (b : Nat) (s : State) : (growBad b s).rom = s.rom := by
  unfold growBad
  simp [rom_ite]

@[simp] theorem programPage_kept (pass : Bool) (s : State) : (programPage pass s).rom = s.rom := by
  unfold programPage
  grind [State.modLgs_kept, State.emit_kept, enterWaiting_kept, openSeg_kept, growBad_kept]

@[simp] theorem commitOne_kept (r : LogRec) (s : State) : (commitOne r s).rom = s.rom := by
  unfold commitOne
  (repeat' split) <;> simp

@[simp] theorem openPlace_kept (seg : Option Nat) (s : State) : (openPlace seg s).2.rom = s.rom := by
  unfold openPlace
  grind [State.draw_kept, → State.draw_kept_of]
theorem openPlace_kept_of (seg : Option Nat) (s : State) {v0} {nxt : State} (h : openPlace seg s = (v0, nxt)) : nxt.rom = s.rom := snd_kept h (openPlace_kept seg s)

@[simp] theorem writeHead_kept (seq : Nat) (gen : Nat) (s : State) : (writeHead seq gen s).rom = s.rom := by
  unfold writeHead
  simp

@[simp] theorem commitPoint_kept (s : State) : (commitPoint s).rom = s.rom := by
  unfold commitPoint
  simp [foldl_kept]

@[simp] theorem doSeal_kept (waiter : Option (Nat × Nat)) (s : State) : (doSeal waiter s).rom = s.rom := by
  unfold doSeal
  simp

@[simp] theorem configRecord_kept (opcode : Nat) (sub : Sub) (s : State) : (configRecord opcode sub s).rom = s.rom := by
  unfold configRecord
  simp

@[simp] theorem takeIndex_kept (f : NandFit) (s : State) : (takeIndex f s).rom = s.rom := by
  unfold takeIndex
  (repeat' split) <;> simp

@[simp] theorem logReady_kept (f : NandFit) (s : State) : (logReady f s).rom = s.rom := by
  unfold logReady
  simp [rom_ite]

@[simp] theorem beginFlush_kept (s : State) : (beginFlush s).rom = s.rom := rfl

@[simp] theorem drainAll_kept (n : Nat) (s : State) : (drainAll n s).rom = s.rom := by
  induction n generalizing s with
  | zero => rfl
  | succ k ih => unfold drainAll; split <;> simp [ih]

@[simp] theorem flushAll_kept (s : State) : (flushAll s).rom = s.rom := by
  unfold flushAll
  grind [State.count_kept, State.modLgs_kept, commitPoint_kept, doSeal_kept, drainAll_kept, enterGap_kept, foldl_kept, foldl_kept_snd]

@[simp] theorem lifeCheck_kept (s : State) : (lifeCheck s).rom = s.rom := by
  unfold lifeCheck
  simp

@[simp] theorem readQfill_kept (s : State) : (readQfill s).2.rom = s.rom := rfl
theorem readQfill_kept_of (s : State) {v0} {nxt : State} (h : readQfill s = (v0, nxt)) : nxt.rom = s.rom := snd_kept h (readQfill_kept s)

@[simp] theorem appendResult_kept (n : Nat) (val : W32) (res : Nat) (s : State) : (appendResult n val res s).rom = s.rom := by
  unfold appendResult
  grind [memStore_kept, raiseFault_kept, → memStore_kept_of]

@[simp] theorem appendWrite_kept (n : Nat) (val : W32) (s : State) : (appendWrite n val s).rom = s.rom := by
  unfold appendWrite
  simp [rom_ite]

@[simp] theorem readLgs_kept (off : Nat) (s : State) : (readLgs off s).2.rom = s.rom := by
  unfold readLgs
  (repeat' split) <;> simp
theorem readLgs_kept_of (off : Nat) (s : State) {v0} {nxt : State} (h : readLgs off s = (v0, nxt)) : nxt.rom = s.rom := snd_kept h (readLgs_kept off s)

@[simp] theorem writeLgs_kept (off : Nat) (val : W32) (s : State) : (writeLgs off val s).rom = s.rom := by
  unfold writeLgs
  grind [State.modLgs_kept, appendWrite_kept, holdLo_kept, withHeldLo_kept, → withHeldLo_kept_of]

/-! ### Boot -/

@[simp] theorem powerOnReset_kept (cause : Nat) (s : State) : (powerOnReset cause s).rom = s.rom := rfl

@[simp] theorem warmReset_kept (cause : Nat) (s : State) : (warmReset cause s).rom = s.rom := rfl

@[simp] theorem askWarm_kept (cause : Nat) (s : State) : (askWarm cause s).rom = s.rom := rfl

theorem execPorstNLow_kept (s : State) {nxt : State} : execPorstNLow s = .next nxt → nxt.rom = s.rom := by
  intro h
  exact act_kept (by simp) h

theorem porstRise_fuses (straps : BitVec 7) (rails : BitVec 3) (s : State) : (porstRise straps rails s).fuses = s.fuses := rfl

theorem porstRise_pending (straps : BitVec 7) (rails : BitVec 3) (s : State) : (porstRise straps rails s).pending = s.pending := rfl

@[simp] theorem supplyTrip_kept (rail : Rail) (s : State) : (supplyTrip rail s).rom = s.rom := rfl

theorem execSupplyMonitorTrip_kept (rail : Rail) (s : State) {nxt : State} : execSupplyMonitorTrip rail s = .next nxt → nxt.rom = s.rom := by
  intro h
  exact act_kept (by simp) h

theorem execWrstNAssert_kept (s : State) {nxt : State} : execWrstNAssert s = .next nxt → nxt.rom = s.rom := by
  intro h
  exact act_kept (by simp) h

theorem execWarmResetPerform_kept (s : State) {nxt : State} : execWarmResetPerform s = .next nxt → nxt.rom = s.rom := by
  intro h
  exact act_kept (by simp) h

theorem execPegboxWatchdog_kept (s : State) {nxt : State} : execPegboxWatchdog s = .next nxt → nxt.rom = s.rom := by
  intro h
  exact act_kept (by simp) h

@[simp] theorem perst_kept (width : Nat) (speed : Nat) (s : State) : (perst width speed s).rom = s.rom := by
  unfold perst
  dsimp only
  split
  · rw [State.modBoot_kept _ _ rfl]
    simp
  · simp

theorem execPerstNAssert_kept (width : Nat) (speed : Nat) (s : State) {nxt : State} : execPerstNAssert width speed s = .next nxt → nxt.rom = s.rom := by
  intro h
  exact act_kept (by simp) h

theorem execRstoutNRise_kept (width : Nat) (speed : Nat) (s : State) {nxt : State} : execRstoutNRise width speed s = .next nxt → nxt.rom = s.rom := by
  intro h
  exact act_kept (by simp) h

@[simp] theorem selectXspi_kept (s : State) : (selectXspi s).rom = s.rom := rfl

@[simp] theorem beginVerify_kept (v : VerifyFor) (i : List Byte) (s : State) : (beginVerify v i s).rom = s.rom := rfl

@[simp] theorem bootFail_kept (s : State) : (bootFail s).rom = s.rom := by
  unfold bootFail
  simp

@[simp] theorem tryRecovery_kept (s : State) : (tryRecovery s).rom = s.rom := by
  unfold tryRecovery
  (repeat' split) <;> simp

@[simp] theorem trainLinks_kept (s : State) : (trainLinks s).rom = s.rom := rfl

@[simp] theorem raiseStanding_kept (s : State) : (raiseStanding s).rom = s.rom := by
  unfold raiseStanding
  simp [rom_ite, foldl_kept]

@[simp] theorem selftestDone_kept (s : State) : (selftestDone s).rom = s.rom := by
  unfold selftestDone
  simp [rom_ite]

theorem execSelftestComplete_kept (s : State) {nxt : State} : execSelftestComplete s = .next nxt → nxt.rom = s.rom := by
  intro h
  exact act_kept (by simp) h

@[simp] theorem firmwareFailed_kept (s : State) : (firmwareFailed s).rom = s.rom := by
  unfold firmwareFailed
  simp [rom_ite]

@[simp] theorem patchFailed_kept (s : State) : (patchFailed s).rom = s.rom := by
  unfold patchFailed
  simp [rom_ite]

@[simp] theorem noteError_kept (e : Nat) (s : State) : (noteError e s).rom = s.rom := rfl

@[simp] theorem noteFail_kept (e : Nat) (s : State) : (noteFail e s).rom = s.rom := rfl

@[simp] theorem startRecovery_kept (source : Nat) (i : List Byte) (s : State) : (startRecovery source i s).rom = s.rom := by
  unfold startRecovery
  simp [rom_ite]

@[simp] theorem startFirmware_kept (i : List Byte) (s : State) : (startFirmware i s).rom = s.rom := rfl

@[simp] theorem startPatch_kept (i : List Byte) (s : State) : (startPatch i s).rom = s.rom := rfl

@[simp] theorem verifyDone_kept (s : State) : (verifyDone s).rom = s.rom := by
  unfold verifyDone
  grind [State.modBoot_kept, bootFail_kept, firmwareFailed_kept, patchFailed_kept, noteFail_kept, startRecovery_kept, startFirmware_kept, startPatch_kept]

theorem execImageVerifyDone_kept (s : State) {nxt : State} : execImageVerifyDone s = .next nxt → nxt.rom = s.rom := by
  intro h
  exact act_kept (by simp) h

@[simp] theorem xspiDone_kept (s : State) : (xspiDone s).rom = s.rom := by
  unfold xspiDone
  simp [rom_ite]

theorem execXspiReadComplete_kept (s : State) {nxt : State} : execXspiReadComplete s = .next nxt → nxt.rom = s.rom := by
  intro h
  exact act_kept (by simp) h

@[simp] theorem xspiTimeout_kept (s : State) : (xspiTimeout s).rom = s.rom := by
  unfold xspiTimeout
  simp [rom_ite]

theorem execXspiReadTimeout_kept (s : State) {nxt : State} : execXspiReadTimeout s = .next nxt → nxt.rom = s.rom := by
  intro h
  exact act_kept (by simp) h

theorem execPatchDeliveryTimeout_kept (s : State) {nxt : State} : execPatchDeliveryTimeout s = .next nxt → nxt.rom = s.rom := by
  intro h
  exact act_kept (by simp) h

@[simp] theorem takeDelivered_kept (v : VerifyFor) (s : State) : (takeDelivered v s).rom = s.rom := by
  unfold takeDelivered
  grind [csmImage_kept, → csmImage_kept_of, beginVerify_kept]

@[simp] theorem bootGo_kept (s : State) : (bootGo s).rom = s.rom := by
  unfold bootGo
  dsimp only
  (repeat' split) <;> simp

@[simp] theorem writeBootCtl_kept (val : W32) (s : State) : (writeBootCtl val s).rom = s.rom := by
  unfold writeBootCtl
  simp [rom_ite]

theorem execBootCtlGo_kept (val : W32) (s : State) {nxt : State} : execBootCtlGo val s = .next nxt → nxt.rom = s.rom := by
  intro h
  exact act_kept (by simp) h

theorem execBootCtlWarm_kept (val : W32) (s : State) {nxt : State} : execBootCtlWarm val s = .next nxt → nxt.rom = s.rom := by
  intro h
  exact act_kept (by simp) h

theorem execBootCtlRecovery_kept (val : W32) (s : State) {nxt : State} : execBootCtlRecovery val s = .next nxt → nxt.rom = s.rom := by
  intro h
  exact act_kept (by simp) h

@[simp] theorem imageDelivery_kept (peer : Nat) (t : W16) (data : List Byte) (s : State) : (imageDelivery peer t data s).rom = s.rom := by
  unfold imageDelivery
  simp [rom_ite]

theorem execBrlImageDelivery_kept (peer : Nat) (imageType : W16) (data : List Byte) (s : State) {nxt : State} : execBrlImageDelivery peer imageType data s = .next nxt → nxt.rom = s.rom := by
  intro h
  exact act_kept (by simp) h

@[simp] theorem becomesUsable_kept (b : Nat) (s : State) : (becomesUsable b s).rom = s.rom := by
  unfold becomesUsable
  simp [rom_ite]

theorem execFunctionBecomesUsable_kept (b : Nat) (s : State) {nxt : State} : execFunctionBecomesUsable b s = .next nxt → nxt.rom = s.rom := by
  intro h
  exact act_kept (by simp) h

@[simp] theorem bistReplace_kept (course slot : Nat) (s : State) : (bistReplace course slot s).rom = s.rom := by
  unfold bistReplace
  (repeat' split) <;> simp

@[simp] theorem courseInit_kept (fail : List Eng) (n : Nat) (s : State) : (courseInit fail n s).rom = s.rom := by
  unfold courseInit
  grind [State.modBoot_kept, State.modEm_kept, State.setEngine_kept, bistReplace_kept, raiseFault_kept, foldl_kept, foldl_kept_snd]

@[simp] theorem ucodeReady_kept (s : State) : (ucodeReady s).rom = s.rom := by
  unfold ucodeReady
  simp [rom_ite]

@[simp] theorem engineInitDone_kept (fail : List Eng) (s : State) : (engineInitDone fail s).rom = s.rom := by
  unfold engineInitDone
  simp [foldl_kept]

@[simp] theorem dramTrained_kept (f : DramFit) (s : State) : (dramTrained f s).rom = s.rom := by
  unfold dramTrained
  (repeat' split) <;> simp

theorem execDramTrainingComplete_kept (f : DramFit) (s : State) {nxt : State} : execDramTrainingComplete f s = .next nxt → nxt.rom = s.rom := by
  intro h
  exact act_kept (by simp) h

theorem execLogStoreReady_kept (f : NandFit) (s : State) {nxt : State} : execLogStoreReady f s = .next nxt → nxt.rom = s.rom := by
  intro h
  exact act_kept (by simp) h

@[simp] theorem powerDown_kept (n : Nat) (s : State) : (powerDown n s).rom = s.rom := by
  unfold powerDown
  grind [State.modFab_kept, State.modStroke_kept, State.setEngine_kept, foldl_kept, foldl_kept_snd]

@[simp] theorem stopCourse_kept (n : Nat) (s : State) : (stopCourse n s).rom = s.rom := by
  unfold stopCourse
  simp

@[simp] theorem archiveEntry_kept (s : State) : (archiveEntry s).rom = s.rom := by
  unfold archiveEntry
  simp [foldl_kept]

@[simp] theorem pfail_kept (s : State) : (pfail s).rom = s.rom := by
  unfold pfail
  simp [rom_ite]

theorem execPfailNRecognised_kept (s : State) {nxt : State} : execPfailNRecognised s = .next nxt → nxt.rom = s.rom := by
  intro h
  exact act_kept (by simp) h

@[simp] theorem flushDone_kept (s : State) : (flushDone s).rom = s.rom := by
  unfold flushDone
  simp [rom_ite]

theorem execPowerFailFlushComplete_kept (s : State) {nxt : State} : execPowerFailFlushComplete s = .next nxt → nxt.rom = s.rom := by
  intro h
  exact act_kept (by simp []) h

theorem execPfailNHighExpiry_kept (s : State) {nxt : State} : execPfailNHighExpiry s = .next nxt → nxt.rom = s.rom := by
  intro h
  exact act_kept (by simp) h

@[simp] theorem programsEnd_kept (s : State) : (programsEnd s).rom = s.rom := rfl

theorem execInflightProgramsEnd_kept (s : State) {nxt : State} : execInflightProgramsEnd s = .next nxt → nxt.rom = s.rom := by
  intro h
  exact act_kept (by simp) h

theorem execTjWarnCrossing_kept (s : State) {nxt : State} : execTjWarnCrossing s = .next nxt → nxt.rom = s.rom := by
  intro h
  exact act_kept (by simp) h

theorem execTjCritCrossing_kept (s : State) {nxt : State} : execTjCritCrossing s = .next nxt → nxt.rom = s.rom := by
  intro h
  exact act_kept (by simp) h

theorem execThermtripNAssert_kept (s : State) {nxt : State} : execThermtripNAssert s = .next nxt → nxt.rom = s.rom := by
  intro h
  exact act_kept (by simp) h

@[simp] theorem tjFall_kept (below : Nat) (s : State) : (tjFall below s).rom = s.rom := by
  unfold tjFall
  simp [rom_ite]

theorem execJunctionTemperatureFall_kept (below : Nat) (s : State) {nxt : State} : execJunctionTemperatureFall below s = .next nxt → nxt.rom = s.rom := by
  intro h
  exact act_kept (by simp) h

/-! ### Registers -/

@[simp] theorem readIdent_kept (v off : Nat) (s : State) : (readIdent v off s).2.rom = s.rom := by
  unfold readIdent
  simp [rom_ite, snd_ite]
theorem readIdent_kept_of (v off : Nat) (s : State) {v0} {nxt : State} (h : readIdent v off s = (v0, nxt)) : nxt.rom = s.rom := snd_kept h (readIdent_kept v off s)

@[simp] theorem snapSwitch_kept (s : State) : (snapSwitch s).rom = s.rom := by
  unfold snapSwitch
  (repeat' split) <;> simp

@[simp] theorem snapHold_kept (val : W32) (s : State) : (snapHold val s).rom = s.rom := by
  unfold snapHold
  simp [rom_ite]

@[simp] theorem writeCmd_kept (o : Nat) (val : W32) (s : State) : (writeCmd o val s).rom = s.rom := by
  unfold writeCmd
  simp [rom_ite]

@[simp] theorem writeTe_kept (o : Nat) (val : W32) (s : State) : (writeTe o val s).rom = s.rom := by
  unfold writeTe
  simp [rom_ite]

@[simp] theorem writeSen_kept (o : Nat) (val : W32) (s : State) : (writeSen o val s).rom = s.rom := by
  unfold writeSen
  simp [rom_ite]

@[simp] theorem writeTimerWord_kept (t o : Nat) (val : W32) (s : State) : (writeTimerWord t o val s).rom = s.rom := by
  unfold writeTimerWord
  simp [rom_ite]

@[simp] theorem readTmrs_kept (o : Nat) (s : State) : (readTmrs o s).2.rom = s.rom := by
  unfold readTmrs
  simp [rom_ite, snd_ite]
theorem readTmrs_kept_of (o : Nat) (s : State) {v0} {nxt : State} (h : readTmrs o s = (v0, nxt)) : nxt.rom = s.rom := snd_kept h (readTmrs_kept o s)

@[simp] theorem writeTmrs_kept (o : Nat) (val : W32) (s : State) : (writeTmrs o val s).rom = s.rom := by
  unfold writeTmrs
  simp [rom_ite]

@[simp] theorem srcWrite_kept (id : Nat) (val : W32) (s : State) : (srcWrite id val s).rom = s.rom := by
  unfold srcWrite
  simp [rom_ite]

@[simp] theorem writeFcu_kept (o : Nat) (val : W32) (s : State) : (writeFcu o val s).rom = s.rom := by
  unfold writeFcu
  simp [rom_ite]

@[simp] theorem fabErrClear_kept (val : W32) (s : State) : (fabErrClear val s).rom = s.rom := by
  unfold fabErrClear
  simp [rom_ite]

@[simp] theorem readIngFill_kept (s : State) : (readIngFill s).2.rom = s.rom := rfl
theorem readIngFill_kept_of (s : State) {v0} {nxt : State} (h : readIngFill s = (v0, nxt)) : nxt.rom = s.rom := snd_kept h (readIngFill_kept s)

@[simp] theorem readIng_kept (o : Nat) (s : State) : (readIng o s).2.rom = s.rom := by
  unfold readIng
  simp [rom_ite, snd_ite]
theorem readIng_kept_of (o : Nat) (s : State) {v0} {nxt : State} (h : readIng o s = (v0, nxt)) : nxt.rom = s.rom := snd_kept h (readIng_kept o s)

@[simp] theorem writeIng_kept (o : Nat) (val : W32) (s : State) : (writeIng o val s).rom = s.rom := by
  unfold writeIng
  simp [rom_ite]

@[simp] theorem State.setLink_kept (s : State) (k : Nat) (f : BrLink → BrLink) : (State.setLink s k f).rom = s.rom := rfl

@[simp] theorem fgDone_kept (m : Master) (k : Nat) (val : W32) (s : State) : (fgDone m k val s).rom = s.rom := by
  unfold fgDone
  (repeat' split) <;> simp

@[simp] theorem readCourse_kept (n o : Nat) (s : State) : (readCourse n o s).2.rom = s.rom := by
  unfold readCourse
  grind [memLoad_kept, readSensel_kept, readTimer_kept, → memLoad_kept_of, → readSensel_kept_of, → readTimer_kept_of]
theorem readCourse_kept_of (n o : Nat) (s : State) {v0} {nxt : State} (h : readCourse n o s = (v0, nxt)) : nxt.rom = s.rom := snd_kept h (readCourse_kept n o s)

@[simp] theorem writeCourse_kept (m : Master) (n o : Nat) (val : W32) (by' : Option (Eng × W32)) (s : State) : (writeCourse m n o val by' s).2.rom = s.rom := by
  unfold writeCourse
  grind [State.modFab_kept, State.setEngine_kept, fgDone_kept, memStore_kept, writeDma_kept, writeSensel_kept, writeTimerWord_kept, writeVeCtl_kept, → memStore_kept_of]
theorem writeCourse_kept_of (m : Master) (n o : Nat) (val : W32) (by' : Option (Eng × W32)) (s : State) {v0} {nxt : State} (h : writeCourse m n o val by' s = (v0, nxt)) : nxt.rom = s.rom := snd_kept h (writeCourse_kept m n o val by' s)

@[simp] theorem ite_kept {c : Prop} [Decidable c] {a b : Rsp × State} {s : State} (ha : a.2.rom = s.rom) (hb : b.2.rom = s.rom) : (if c then a else b).2.rom = s.rom := by
  split <;> assumption

theorem gate_kept {ok : Bool} {x : W32} {t s : State} (h : t.rom = s.rom) : (if ok = true then (Rsp.ok x, t) else (.decode, s)).2.rom = s.rom := by
  split
  · exact h
  · rfl

@[simp] theorem readReg_kept (off : Nat) (s : State) : (readReg off s).2.rom = s.rom := by
  rw [readReg]
  dsimp only
  refine ite_kept rfl ?_
  refine ite_kept (gate_kept (readIdent_kept ..)) ?_
  refine ite_kept (gate_kept (Eq.refl s.rom)) ?_
  refine ite_kept (gate_kept (Eq.refl s.rom)) ?_
  refine ite_kept (gate_kept (Eq.refl s.rom)) ?_
  refine ite_kept (gate_kept (Eq.refl s.rom)) ?_
  refine ite_kept (gate_kept (readTmrs_kept ..)) ?_
  refine ite_kept (ite_kept rfl (sramCheck_kept ..)) ?_
  refine ite_kept (gate_kept (Eq.refl s.rom)) ?_
  refine ite_kept (gate_kept (readLgs_kept ..)) ?_
  refine ite_kept (gate_kept (readIng_kept ..)) ?_
  refine ite_kept (gate_kept (Eq.refl s.rom)) ?_
  refine ite_kept (gate_kept (Eq.refl s.rom)) ?_
  refine ite_kept (readCourse_kept ..) ?_
  refine ite_kept (gate_kept (Eq.refl s.rom)) ?_
  exact ite_kept (memLoad_kept .emram _ 4 s) rfl
theorem readReg_kept_of (off : Nat) (s : State) {v0} {nxt : State} (h : readReg off s = (v0, nxt)) : nxt.rom = s.rom := snd_kept h (readReg_kept off s)

@[simp] theorem writeReg_kept (m : Master) (off : Nat) (val : W32) (by' : Option (Eng × W32)) (s : State) : (writeReg m off val by' s).2.rom = s.rom := by
  unfold writeReg
  simp [rom_ite, snd_ite]
theorem writeReg_kept_of (m : Master) (off : Nat) (val : W32) (by' : Option (Eng × W32)) (s : State) {v0} {nxt : State} (h : writeReg m off val by' s = (v0, nxt)) : nxt.rom = s.rom := snd_kept h (writeReg_kept m off val by' s)

@[simp] theorem readVf_kept (v off : Nat) (s : State) : (readVf v off s).2.rom = s.rom := by
  unfold readVf
  simp [rom_ite, snd_ite]
theorem readVf_kept_of (v off : Nat) (s : State) {v0} {nxt : State} (h : readVf v off s = (v0, nxt)) : nxt.rom = s.rom := snd_kept h (readVf_kept v off s)

@[simp] theorem writeVf_kept (v off : Nat) (val : W32) (s : State) : (writeVf v off val s).2.rom = s.rom := by
  unfold writeVf
  simp [rom_ite, snd_ite]
theorem writeVf_kept_of (v off : Nat) (val : W32) (s : State) {v0} {nxt : State} (h : writeVf v off val s = (v0, nxt)) : nxt.rom = s.rom := snd_kept h (writeVf_kept v off val s)

/-! ### Bus -/

@[simp] theorem drawBytes_kept (n : Nat) (s : State) : (drawBytes n s).2.rom = s.rom := by
  induction n generalizing s with
  | zero => rfl
  | succ k ih => simp [drawBytes, ih]
theorem drawBytes_kept_of (n : Nat) (s : State) {v0} {nxt : State} (h : drawBytes n s = (v0, nxt)) : nxt.rom = s.rom := snd_kept h (drawBytes_kept n s)

@[simp] theorem decodeRd_kept (m : Master) (addr : Nat) (s : State) : (decodeRd m addr s).2.rom = s.rom := by
  unfold decodeRd
  simp
theorem decodeRd_kept_of (m : Master) (addr : Nat) (s : State) {v0} {nxt : State} (h : decodeRd m addr s = (v0, nxt)) : nxt.rom = s.rom := snd_kept h (decodeRd_kept m addr s)

@[simp] theorem decodeWr_kept (m : Master) (addr : Nat) (s : State) : (decodeWr m addr s).2.rom = s.rom := by
  unfold decodeWr
  simp
theorem decodeWr_kept_of (m : Master) (addr : Nat) (s : State) {v0} {nxt : State} (h : decodeWr m addr s = (v0, nxt)) : nxt.rom = s.rom := snd_kept h (decodeWr_kept m addr s)

@[simp] theorem remoteAccess_kept (m : Master) (w off n : Nat) (data : Option (List Byte)) (s : State) : (remoteAccess m w off n data s).2.rom = s.rom := by
  unfold remoteAccess
  grind [State.draw_kept, State.emit_kept, decodeError_kept, drawBytes_kept, → State.draw_kept_of, → drawBytes_kept_of]
theorem remoteAccess_kept_of (m : Master) (w off n : Nat) (data : Option (List Byte)) (s : State) {v0} {nxt : State} (h : remoteAccess m w off n data s = (v0, nxt)) : nxt.rom = s.rom := snd_kept h (remoteAccess_kept m w off n data s)

@[simp] theorem remoteRd_kept (m : Master) (w off n : Nat) (s : State) : (remoteRd m w off n s).2.rom = s.rom := by
  unfold remoteRd
  grind [remoteAccess_kept, → remoteAccess_kept_of]
theorem remoteRd_kept_of (m : Master) (w off n : Nat) (s : State) {v0} {nxt : State} (h : remoteRd m w off n s = (v0, nxt)) : nxt.rom = s.rom := snd_kept h (remoteRd_kept m w off n s)

@[simp] theorem remoteWr_kept (m : Master) (w off : Nat) (data : List Byte) (s : State) : (remoteWr m w off data s).2.rom = s.rom := by
  unfold remoteWr
  simp
theorem remoteWr_kept_of (m : Master) (w off : Nat) (data : List Byte) (s : State) {v0} {nxt : State} (h : remoteWr m w off data s = (v0, nxt)) : nxt.rom = s.rom := snd_kept h (remoteWr_kept m w off data s)

@[simp] theorem regRd_kept (m : Master) (off : Nat) (s : State) : (regRd m off s).2.rom = s.rom := by
  unfold regRd
  grind [decodeRd_kept, readReg_kept, → decodeRd_kept_of, → readReg_kept_of]
theorem regRd_kept_of (m : Master) (off : Nat) (s : State) {v0} {nxt : State} (h : regRd m off s = (v0, nxt)) : nxt.rom = s.rom := snd_kept h (regRd_kept m off s)

@[simp] theorem regWr_kept (m : Master) (off : Nat) (val : W32) (by' : Option (Eng × W32)) (s : State) : (regWr m off val by' s).2.rom = s.rom := by
  unfold regWr
  grind [decodeWr_kept, writeReg_kept, → decodeWr_kept_of, → writeReg_kept_of]
theorem regWr_kept_of (m : Master) (off : Nat) (val : W32) (by' : Option (Eng × W32)) (s : State) {v0} {nxt : State} (h : regWr m off val by' s = (v0, nxt)) : nxt.rom = s.rom := snd_kept h (regWr_kept m off val by' s)

@[simp] theorem memRd_kept (m : MemRef) (a n : Nat) (s : State) : (memRd m a n s).2.rom = s.rom := by
  unfold memRd
  simp
theorem memRd_kept_of (m : MemRef) (a n : Nat) (s : State) {v0} {nxt : State} (h : memRd m a n s = (v0, nxt)) : nxt.rom = s.rom := snd_kept h (memRd_kept m a n s)

@[simp] theorem read40_kept (m : Master) (own a n : Nat) (s : State) : (read40 m own a n s).2.rom = s.rom := by
  unfold read40
  (repeat' split) <;> simp
theorem read40_kept_of (m : Master) (own a n : Nat) (s : State) {v0} {nxt : State} (h : read40 m own a n s = (v0, nxt)) : nxt.rom = s.rom := snd_kept h (read40_kept m own a n s)

@[simp] theorem write40_kept (m : Master) (own a : Nat) (data : List Byte) (s : State) : (write40 m own a data s).2.rom = s.rom := by
  unfold write40
  (repeat' split) <;> simp
theorem write40_kept_of (m : Master) (own a : Nat) (data : List Byte) (s : State) {v0} {nxt : State} (h : write40 m own a data s = (v0, nxt)) : nxt.rom = s.rom := snd_kept h (write40_kept m own a data s)

@[simp] theorem engRead_kept (e : Eng) (a n : Nat) (s : State) : (engRead e a n s).2.rom = s.rom := by
  unfold engRead
  grind [decodeRd_kept, memRd_kept, regRd_kept, remoteRd_kept, → decodeRd_kept_of, → memRd_kept_of, → regRd_kept_of, → remoteRd_kept_of]
theorem engRead_kept_of (e : Eng) (a n : Nat) (s : State) {v0} {nxt : State} (h : engRead e a n s = (v0, nxt)) : nxt.rom = s.rom := snd_kept h (engRead_kept e a n s)

@[simp] theorem engWrite_kept (e : Eng) (a : Nat) (data : List Byte) (instr : W32) (s : State) : (engWrite e a data instr s).2.rom = s.rom := by
  unfold engWrite
  grind [decodeWr_kept, memStore_kept, regWr_kept, remoteWr_kept, → decodeWr_kept_of, → memStore_kept_of, → regWr_kept_of, → remoteWr_kept_of]
theorem engWrite_kept_of (e : Eng) (a : Nat) (data : List Byte) (instr : W32) (s : State) {v0} {nxt : State} (h : engWrite e a data instr s = (v0, nxt)) : nxt.rom = s.rom := snd_kept h (engWrite_kept e a data instr s)

@[simp] theorem bar0Rd_kept (v off : Nat) (s : State) : (bar0Rd v off s).2.rom = s.rom := by
  unfold bar0Rd
  simp [rom_ite, snd_ite]
theorem bar0Rd_kept_of (v off : Nat) (s : State) {v0} {nxt : State} (h : bar0Rd v off s = (v0, nxt)) : nxt.rom = s.rom := snd_kept h (bar0Rd_kept v off s)

@[simp] theorem bar0Wr_kept (v off : Nat) (val : W32) (s : State) : (bar0Wr v off val s).2.rom = s.rom := by
  unfold bar0Wr
  simp [rom_ite, snd_ite]
theorem bar0Wr_kept_of (v off : Nat) (val : W32) (s : State) {v0} {nxt : State} (h : bar0Wr v off val s = (v0, nxt)) : nxt.rom = s.rom := snd_kept h (bar0Wr_kept v off val s)

@[simp] theorem hostAbort_kept (v : Nat) (write : Bool) (addr : Option Nat) (s : State) : (hostAbort v write addr s).rom = s.rom := by
  unfold hostAbort
  (repeat' split) <;> simp

@[simp] theorem bar0ReadWords_kept (v : Nat) (n : Nat) (n' : Nat) (s : State) : (bar0ReadWords v n n' s).2.rom = s.rom := by
  induction n generalizing n' s with
  | zero => rfl
  | succ n ih =>
    unfold bar0ReadWords
    have h := bar0Rd_kept v n' s
    split
    · have k := ih (n' + 4) ‹State›
      split <;> simp_all
    · simp_all
    · simp_all
theorem bar0ReadWords_kept_of (v : Nat) (n : Nat) (n' : Nat) (s : State) {v0} {nxt : State} (h : bar0ReadWords v n n' s = (v0, nxt)) : nxt.rom = s.rom := snd_kept h (bar0ReadWords_kept v n n' s)

@[simp] theorem bar0WriteWords_kept (v : Nat) (n : Nat) (b : List Byte) (s : State) : (bar0WriteWords v n b s).rom = s.rom := by
  induction n, b, s using bar0WriteWords.induct v with
  | case1 => simp [bar0WriteWords]
  | case2 off b0 b1 b2 b3 l s t ih =>
    unfold bar0WriteWords
    rw [ih]
    have h := bar0Wr_kept v off (w32 (leNat [b0, b1, b2, b3])) s
    simp only [t]
    split <;> simp_all
  | case3 => simp [bar0WriteWords]

@[simp] theorem hostRead4_kept (off n : Nat) (s : State) : (hostRead4 off n s).rom = s.rom := by
  unfold hostRead4
  grind [State.emit_kept, hostAbort_kept, memLoad_kept, → memLoad_kept_of]

@[simp] theorem hostWrite4_kept (off : Nat) (data : List Byte) (s : State) : (hostWrite4 off data s).rom = s.rom := by
  unfold hostWrite4
  grind [hostAbort_kept, memStore_kept, → memStore_kept_of]

@[simp] theorem hostRead2_kept (v off n : Nat) (s : State) : (hostRead2 v off n s).rom = s.rom := by
  unfold hostRead2
  (repeat' split) <;> simp

@[simp] theorem hostWrite2_kept (v off : Nat) (data : List Byte) (s : State) : (hostWrite2 v off data s).rom = s.rom := by
  unfold hostWrite2
  simp [rom_ite]

@[simp] theorem pcieRead_kept (v bar off n : Nat) (s : State) : (pcieRead v bar off n s).rom = s.rom := by
  unfold pcieRead
  grind [State.emit_kept, bar0ReadWords_kept, hostAbort_kept, hostRead2_kept, hostRead4_kept, tlpError_kept, → bar0ReadWords_kept_of]

theorem execPcieMemRead_kept (v bar off n : Nat) (s : State) {nxt : State} : execPcieMemRead v bar off n s = .next nxt → nxt.rom = s.rom := by
  intro h
  exact act_kept (by simp) h

@[simp] theorem pcieWrite_kept (v bar off : Nat) (data : List Byte) (s : State) : (pcieWrite v bar off data s).rom = s.rom := by
  unfold pcieWrite
  (repeat' split) <;> simp

theorem execPcieMemWrite_kept (v bar off : Nat) (data : List Byte) (s : State) {nxt : State} : execPcieMemWrite v bar off data s = .next nxt → nxt.rom = s.rom := by
  intro h
  exact act_kept (by simp) h

/-! ### RegCmds -/

theorem execVeCtlRun_kept (e : Eng) (val : W32) (s : State) {nxt : State} : execVeCtlRun e val s = .next nxt → nxt.rom = s.rom := by
  intro h
  exact act_kept (by simp) h

theorem execVeCtlRst_kept (e : Eng) (val : W32) (s : State) {nxt : State} : execVeCtlRst e val s = .next nxt → nxt.rom = s.rom := by
  intro h
  exact act_kept (by simp) h

theorem execVeCtlRemap_kept (e : Eng) (val : W32) (s : State) {nxt : State} : execVeCtlRemap e val s = .next nxt → nxt.rom = s.rom := by
  intro h
  exact act_kept (by simp) h

theorem execIrqSourceEdge_kept (e : Eng) (n : Nat) (s : State) {nxt : State} : execIrqSourceEdge e n s = .next nxt → nxt.rom = s.rom := by
  intro h
  exact act_kept (by simp) h

theorem execIrqSetWrite_kept (e : Eng) (val : W32) (s : State) {nxt : State} : execIrqSetWrite e val s = .next nxt → nxt.rom = s.rom := by
  intro h
  exact act_kept (by simp) h

theorem execIrqPendWrite_kept (e : Eng) (val edges : W32) (s : State) {nxt : State} : execIrqPendWrite e val edges s = .next nxt → nxt.rom = s.rom := by
  intro h
  exact act_kept (by simp) h

theorem execPegboxMailbox_kept (e : Eng) (s : State) {nxt : State} : execPegboxMailbox e s = .next nxt → nxt.rom = s.rom := by
  intro h
  exact act_kept (by simp) h

theorem execSnapBankSwitch_kept (s : State) {nxt : State} : execSnapBankSwitch s = .next nxt → nxt.rom = s.rom := by
  intro h
  exact act_kept (by simp) h

theorem execSnapCtlHold_kept (val : W32) (s : State) {nxt : State} : execSnapCtlHold val s = .next nxt → nxt.rom = s.rom := by
  intro h
  exact act_kept (by simp) h

theorem execFcuSrcOpenWrite_kept (m : Master) (id : Nat) (val : W32) (s : State) {nxt : State} : execFcuSrcOpenWrite m id val s = .next nxt → nxt.rom = s.rom := by
  intro h
  exact act_kept (by simp) h

theorem execFabErrValidWrite_kept (val : W32) (s : State) {nxt : State} : execFabErrValidWrite val s = .next nxt → nxt.rom = s.rom := by
  intro h
  exact act_kept (by simp) h

theorem execIngFillRead_kept (s : State) {nxt : State} : execIngFillRead s = .next nxt → nxt.rom = s.rom := by
  intro h
  exact act_kept (by simp) h

theorem execLgsQfillRead_kept (s : State) {nxt : State} : execLgsQfillRead s = .next nxt → nxt.rom = s.rom := by
  intro h
  exact act_kept (by simp) h

theorem execLgsAppendWrite_kept (n : Nat) (val : W32) (s : State) {nxt : State} : execLgsAppendWrite n val s = .next nxt → nxt.rom = s.rom := by
  intro h
  exact act_kept (by simp) h

theorem execFgDoneWrite_kept (m : Master) (course slot : Nat) (val : W32) (s : State) {nxt : State} : execFgDoneWrite m course slot val s = .next nxt → nxt.rom = s.rom := by
  intro h
  exact act_kept (by simp) h

theorem execDmaCmdStop_kept (m : Master) (course ch : Nat) (s : State) {nxt : State} : execDmaCmdStop m course ch s = .next nxt → nxt.rom = s.rom := by
  intro h
  exact act_kept (by simp) h

@[simp] theorem doeAnswer_kept (index dwords : Nat) (s : State) : (doeAnswer index dwords s).rom = s.rom := by
  unfold doeAnswer
  (repeat' split) <;> simp

theorem execDoeDiscovery_kept (index dwords : Nat) (s : State) {nxt : State} : execDoeDiscovery index dwords s = .next nxt → nxt.rom = s.rom := by
  intro h
  exact act_kept (by simp) h

@[simp] theorem spdm_kept (dwords : Nat) (r : SpdmRsp) (s : State) : (spdm dwords r s).rom = s.rom := by
  unfold spdm
  simp [rom_ite]

theorem execSpdmGetVersion_kept (dwords : Nat) (s : State) {nxt : State} : execSpdmGetVersion dwords s = .next nxt → nxt.rom = s.rom := by
  intro h
  exact act_kept (by simp) h

theorem execSpdmGetCapabilities_kept (dwords : Nat) (s : State) {nxt : State} : execSpdmGetCapabilities dwords s = .next nxt → nxt.rom = s.rom := by
  intro h
  exact act_kept (by simp) h

theorem execSpdmNegotiateAlgorithms_kept (dwords : Nat) (asym : W32) (hash : W32) (s : State) {nxt : State} : execSpdmNegotiateAlgorithms dwords asym hash s = .next nxt → nxt.rom = s.rom := by
  intro h
  exact act_kept (by simp) h

theorem execSpdmGetDigests_kept (dwords : Nat) (s : State) {nxt : State} : execSpdmGetDigests dwords s = .next nxt → nxt.rom = s.rom := by
  intro h
  exact act_kept (by simp) h

theorem execSpdmGetCertificate_kept (dwords : Nat) (slot : Nat) (offset : Nat) (length : Nat) (s : State) {nxt : State} : execSpdmGetCertificate dwords slot offset length s = .next nxt → nxt.rom = s.rom := by
  intro h
  exact act_kept (by simp) h

theorem execSpdmChallenge_kept (dwords : Nat) (slot : Nat) (nonce : List Byte) (s : State) {nxt : State} : execSpdmChallenge dwords slot nonce s = .next nxt → nxt.rom = s.rom := by
  intro h
  exact act_kept (by simp) h

theorem execSpdmGetMeasurements_kept (dwords : Nat) (index : Nat) (nonce : List Byte) (s : State) {nxt : State} : execSpdmGetMeasurements dwords index nonce s = .next nxt → nxt.rom = s.rom := by
  intro h
  exact act_kept (by simp) h

theorem execSpdmOtherRequest_kept (dwords : Nat) (code : Byte) (s : State) {nxt : State} : execSpdmOtherRequest dwords code s = .next nxt → nxt.rom = s.rom := by
  intro h
  exact act_kept (by simp) h

@[simp] theorem regWrite_kept (sp : RegSpace) (off : Nat) (val : W32) (s : State) : (regWrite sp off val s).rom = s.rom := by
  unfold regWrite
  (repeat' split) <;> simp

theorem execRegisterWrite_kept (sp : RegSpace) (off : Nat) (val : W32) (s : State) {nxt : State} : execRegisterWrite sp off val s = .next nxt → nxt.rom = s.rom := by
  intro h
  exact act_kept (by simp) h

end Sys2Proof.Machine
end

