-- ==== Sys2Proof/Laws/Kept3.lean ====
section
/-! SUPPORT. What keeps fuses, the waiting commands and the straps: the engines and the DMA channels (R18, R53, R124). -/
namespace Sys2Proof.Machine

/-! ### CoreBase -/

@[simp] theorem fetchWord_kept (e : Eng) (a : W32) (s : State) : (fetchWord e a s).2.rom = s.rom := by
  unfold fetchWord
  grind [memLoad_kept, → memLoad_kept_of]
theorem fetchWord_kept_of (e : Eng) (a : W32) (s : State) {v0} {nxt : State} (h : fetchWord e a s = (v0, nxt)) : nxt.rom = s.rom := snd_kept h (fetchWord_kept e a s)

@[simp] theorem pathWord_kept (e : Eng) (a : W32) (s : State) : (pathWord e a s).2.rom = s.rom := by
  unfold pathWord
  (repeat' split) <;> simp
theorem pathWord_kept_of (e : Eng) (a : W32) (s : State) {v0} {nxt : State} (h : pathWord e a s = (v0, nxt)) : nxt.rom = s.rom := snd_kept h (pathWord_kept e a s)

@[simp] theorem refill_kept (e : Eng) (a : List W32) (a' : List (W32 × Option W32)) (s : State) : (refill e a a' s).2.rom = s.rom := by
  induction a generalizing a' s with
  | nil => rfl
  | cons x p ih => cases a' with
    | nil => simp [refill, ih]
    | cons b q => unfold refill; split <;> simp [ih]
theorem refill_kept_of (e : Eng) (a : List W32) (a' : List (W32 × Option W32)) (s : State) {v0} {nxt : State} (h : refill e a a' s = (v0, nxt)) : nxt.rom = s.rom := snd_kept h (refill_kept e a a' s)

@[simp] theorem fetchCurrent_kept (e : Eng) (s : State) : (fetchCurrent e s).2.rom = s.rom := by
  unfold fetchCurrent
  simp
theorem fetchCurrent_kept_of (e : Eng) (s : State) {v0} {nxt : State} (h : fetchCurrent e s = (v0, nxt)) : nxt.rom = s.rom := snd_kept h (fetchCurrent_kept e s)

@[simp] theorem entryRead_kept (e : Eng) (a n : Nat) (s : State) : (entryRead e a n s).2.rom = s.rom := by
  unfold entryRead
  grind [memLoad_kept, → memLoad_kept_of]
theorem entryRead_kept_of (e : Eng) (a n : Nat) (s : State) {v0} {nxt : State} (h : entryRead e a n s = (v0, nxt)) : nxt.rom = s.rom := snd_kept h (entryRead_kept e a n s)

@[simp] theorem findHandler_kept (e : Eng) (code : Nat) (s : State) : (findHandler e code s).2.rom = s.rom := by
  unfold findHandler
  grind [entryRead_kept, → entryRead_kept_of]
theorem findHandler_kept_of (e : Eng) (code : Nat) (s : State) {v0} {nxt : State} (h : findHandler e code s = (v0, nxt)) : nxt.rom = s.rom := snd_kept h (findHandler_kept e code s)

@[simp] theorem entryStore_kept (e : Eng) (a v : W32) (s : State) : (entryStore e a v s).2.rom = s.rom := by
  unfold entryStore
  grind [State.setEngine_kept, memStore_kept, → memStore_kept_of]
theorem entryStore_kept_of (e : Eng) (a v : W32) (s : State) {v0} {nxt : State} (h : entryStore e a v s = (v0, nxt)) : nxt.rom = s.rom := snd_kept h (entryStore_kept e a v s)

@[simp] theorem stackSwitch_kept (e : Eng) (stack : W32) (s : State) : (stackSwitch e stack s).2.rom = s.rom := by
  unfold stackSwitch
  simp [rom_ite, snd_ite]
theorem stackSwitch_kept_of (e : Eng) (stack : W32) (s : State) {v0} {nxt : State} (h : stackSwitch e stack s = (v0, nxt)) : nxt.rom = s.rom := snd_kept h (stackSwitch_kept e stack s)

@[simp] theorem haltCore_kept (e : Eng) (s : State) : (haltCore e s).rom = s.rom := by
  unfold haltCore
  simp

@[simp] theorem escalate_kept (e : Eng) (orig : Nat) (eaddr : W32) (s : State) : (escalate e orig eaddr s).rom = s.rom := by
  unfold escalate
  simp [rom_ite, snd_ite]

@[simp] theorem enterHandler_kept (e : Eng) (c : Cause) (intr : Bool) (age : Nat) (due : Nat) (s : State) : (enterHandler e c intr age due s).rom = s.rom := by
  unfold enterHandler
  grind [State.setEngine_kept, escalate_kept, fetchWord_kept, findHandler_kept, stackSwitch_kept, → fetchWord_kept_of, → findHandler_kept_of, → stackSwitch_kept_of]

@[simp] theorem enterCause_kept (e : Eng) (c : Cause) (intr : Bool) (s : State) : (enterCause e c intr s).rom = s.rom := by
  unfold enterCause
  simp

@[simp] theorem raiseExc_kept (e : Eng) (c : Cause) (s : State) : (raiseExc e c s).rom = s.rom := by
  unfold raiseExc
  simp [rom_ite]

/-! ### Scalar -/

theorem excOr_kept (e : Eng) (c : Cause) (s : State) {nxt : State} : excOr e c s = some nxt → nxt.rom = s.rom := by
  unfold excOr
  grind [raiseExc_kept]

theorem issue_kept {e : Eng} {cls : EClass} {f : EOp → State → Option State} {s nxt : State}
    (hf : ∀ op s t, f op s = some t → t.rom = s.rom) : issue e cls f s = .next nxt → nxt.rom = s.rom := by
  intro h
  have hs := fetchCurrent_kept e (s.setEngine e Engine.endEntry)
  rw [State.setEngine_kept] at hs
  have key : ∀ r : Option State, (∀ t, r = some t → t.rom = s.rom) → (r.getD s).rom = s.rom := by
    intro r hr
    cases r with
    | none => rfl
    | some t => exact hr t rfl
  unfold issue at h
  split at h
  · injection h with h
    rw [← h]
  · rcases hp : fetchCurrent e (s.setEngine e Engine.endEntry) with ⟨w, s1⟩
    rw [hp] at h hs
    injection h with h
    rw [← h]
    refine key _ fun t ht => ?_
    rw [← hs]
    split at ht
    · exact excOr_kept e _ s1 ht
    · split at ht
      · exact excOr_kept e _ s1 ht
      · split at ht
        · simp at ht
        · split at ht
          · exact excOr_kept e _ s1 ht
          · split at ht
            · simp at ht
            · exact hf _ s1 t ht

@[simp] theorem complete_kept (e : Eng) (ws : List (Nat × W32)) (flags : Nat) (s : State) : (complete e ws flags s).rom = s.rom := rfl

theorem doPure_kept (e : Eng) (op : EOp) (s : State) {nxt : State} : doPure e op s = some nxt → nxt.rom = s.rom := by
  unfold doPure
  cases pureOp (s.engine e) op with
  | none => simp
  | some r => intro h; injection h with h; rw [← h]; exact complete_kept ..

theorem execIntegerOp_kept (e : Eng) (s : State) {nxt : State} : execIntegerOp e s = .next nxt → nxt.rom = s.rom :=
  issue_kept fun op s _ => doPure_kept e op s

theorem execCarryBorrowOp_kept (e : Eng) (s : State) {nxt : State} : execCarryBorrowOp e s = .next nxt → nxt.rom = s.rom :=
  issue_kept fun op s _ => doPure_kept e op s

theorem execBitOp_kept (e : Eng) (s : State) {nxt : State} : execBitOp e s = .next nxt → nxt.rom = s.rom :=
  issue_kept fun op s _ => doPure_kept e op s

theorem execMultiplyOp_kept (e : Eng) (s : State) {nxt : State} : execMultiplyOp e s = .next nxt → nxt.rom = s.rom :=
  issue_kept fun op s _ => doPure_kept e op s

theorem execFpArith_kept (e : Eng) (s : State) {nxt : State} : execFpArith e s = .next nxt → nxt.rom = s.rom :=
  issue_kept fun op s _ => doPure_kept e op s

theorem execFpMinMaxCompare_kept (e : Eng) (s : State) {nxt : State} : execFpMinMaxCompare e s = .next nxt → nxt.rom = s.rom :=
  issue_kept fun op s _ => doPure_kept e op s

theorem execFpConvert_kept (e : Eng) (s : State) {nxt : State} : execFpConvert e s = .next nxt → nxt.rom = s.rom :=
  issue_kept fun op s _ => doPure_kept e op s

theorem doDivide_kept (e : Eng) (op : EOp) (s : State) {nxt : State} : doDivide e op s = some nxt → nxt.rom = s.rom := by
  unfold doDivide
  grind [State.setEngine_kept]

theorem execDivideOp_kept (e : Eng) (s : State) {nxt : State} : execDivideOp e s = .next nxt → nxt.rom = s.rom :=
  issue_kept fun op s _ => doDivide_kept e op s

@[simp] theorem divideDone_kept (e : Eng) (s : State) : (divideDone e s).rom = s.rom := by
  unfold divideDone
  (repeat' split) <;> simp

theorem execDivideComplete_kept (e : Eng) (s : State) {nxt : State} : execDivideComplete e s = .next nxt → nxt.rom = s.rom := by
  intro h
  exact act_kept (by simp) h

@[simp] theorem readPieces_kept (e : Eng) (n : Nat) (l : List (Nat × Nat)) (s : State) : (readPieces e n l s).2.rom = s.rom := by
  induction l generalizing s with
  | nil => rfl
  | cons p l ih =>
    unfold readPieces
    have h := engRead_kept e p.1 p.2 s
    split
    · rfl
    · split
      next r t e' =>
      rw [e'] at h
      split
      · exact h
      · have k := ih t
        split <;> simp_all
theorem readPieces_kept_of (e : Eng) (n : Nat) (l : List (Nat × Nat)) (s : State) {v0} {nxt : State} (h : readPieces e n l s = (v0, nxt)) : nxt.rom = s.rom := snd_kept h (readPieces_kept e n l s)

@[simp] theorem issueLoad_kept (e : Eng) (base : Nat) (upd : Option W32) (ws : List (Nat × W32)) (keep : Bool) (s : State) : (issueLoad e base upd ws keep s).rom = s.rom := rfl

@[simp] theorem failLoad_kept (e : Eng) (a : W32) (s : State) : (failLoad e a s).rom = s.rom := rfl

theorem fgNextLoad_kept {e : Eng} {k : Nat} {go : W32 → State → State} {s nxt : State} (hg : ∀ v s, (go v s).rom = s.rom) :
    fgNextLoad e k go s = some nxt → nxt.rom = s.rom := by
  unfold fgNextLoad
  dsimp only
  (repeat' split) <;> intro h <;> simp only [Option.some.injEq, reduceCtorEq] at h <;> subst h <;>
    simp [hg, endJob_kept, State.setEngine_kept, State.setGate_kept]

theorem loadGo_kept {e : Eng} {a n : Nat} {go : List Byte → State → State} {s nxt : State} (hg : ∀ v s, (go v s).rom = s.rom) :
    loadGo e a n go s = some nxt → nxt.rom = s.rom := by
  unfold loadGo
  intro h
  split at h
  · simp at h
  · injection h with h; rw [← h, hg]
  · generalize (if (n == 4 && a % 4 == 0) = true then fgNextAt e a s else none) = k at h
    cases k with
    | some k => exact fgNextLoad_kept (fun v s => hg _ s) h
    | none =>
      dsimp only at h
      split at h
      · injection h with h; rw [← h, failLoad_kept]; exact readPieces_kept_of _ _ _ _ ‹_›
      · injection h with h; rw [← h, hg]; exact readPieces_kept_of _ _ _ _ ‹_›

theorem doLoad_kept (e : Eng) (op : EOp) (s : State) {nxt : State} : doLoad e op s = some nxt → nxt.rom = s.rom := by
  unfold doLoad
  dsimp only
  intro h
  repeat' split at h
  all_goals first
    | (simp at h; done)
    | exact loadGo_kept (fun v t => issueLoad_kept ..) h

theorem execLoad_kept (e : Eng) (s : State) {nxt : State} : execLoad e s = .next nxt → nxt.rom = s.rom :=
  issue_kept fun op s _ => doLoad_kept e op s

theorem execLwx_kept (e : Eng) (s : State) {nxt : State} : execLwx e s = .next nxt → nxt.rom = s.rom :=
  issue_kept fun op s _ => doLoad_kept e op s

theorem execFgNextRead_kept (e : Eng) (s : State) {nxt : State} : execFgNextRead e s = .next nxt → nxt.rom = s.rom := by
  unfold execFgNextRead
  split
  · split
    · intro h; injection h with h; rw [h]
    · exact issue_kept fun op s t => doLoad_kept e op s
  · intro h; injection h with h; rw [h]

@[simp] theorem loadReturn_kept (e : Eng) (s : State) : (loadReturn e s).rom = s.rom := by
  unfold loadReturn
  (repeat' split) <;> simp

theorem execLoadReturn_kept (e : Eng) (s : State) {nxt : State} : execLoadReturn e s = .next nxt → nxt.rom = s.rom := by
  intro h
  exact act_kept (by simp) h

theorem storeOp_kept (e : Eng) (a : Nat) (bs : List Byte) (done : Engine → Engine) (s : State) {nxt : State} : storeOp e a bs done s = some nxt → nxt.rom = s.rom := by
  unfold storeOp
  grind [State.setEngine_kept, excOr_kept]

theorem doStore_kept (e : Eng) (op : EOp) (s : State) {nxt : State} : doStore e op s = some nxt → nxt.rom = s.rom := by
  unfold doStore
  grind [storeOp_kept]

theorem execStore_kept (e : Eng) (s : State) {nxt : State} : execStore e s = .next nxt → nxt.rom = s.rom :=
  issue_kept fun op s _ => doStore_kept e op s

@[simp] theorem writePieces_kept (e : Eng) (instr : W32) (bs : List Byte) (l : List (Nat × Nat)) (i : Nat) (s : State) :
    (writePieces e instr bs l i s).2.rom = s.rom := by
  induction l generalizing i s with
  | nil => rfl
  | cons p l ih =>
    unfold writePieces
    have h := engWrite_kept e p.1 ((bs.drop i).take p.2) instr s
    split
    · rfl
    · split <;> simp_all
theorem writePieces_kept_of (e : Eng) (instr : W32) (bs : List Byte) (l : List (Nat × Nat)) (i : Nat) (s : State) {v0} {nxt : State} (h : writePieces e instr bs l i s = (v0, nxt)) : nxt.rom = s.rom := snd_kept h (writePieces_kept e instr bs l i s)

@[simp] theorem storeAck_kept (e : Eng) (i : Nat) (s : State) : (storeAck e i s).rom = s.rom := by
  unfold storeAck
  grind [State.setEngine_kept, pushAsync_kept, writePieces_kept, → writePieces_kept_of]

theorem execStoreAck_kept (e : Eng) (index : Nat) (s : State) {nxt : State} : execStoreAck e index s = .next nxt → nxt.rom = s.rom := by
  intro h
  exact act_kept (by simp) h

theorem execDmaCmdGo_kept (m : Master) (course : Nat) (ch : Nat) (s : State) {nxt : State} : execDmaCmdGo m course ch s = .next nxt → nxt.rom = s.rom := by
  intro h
  exact act_kept (by (repeat' split) <;> simp) h

theorem doAtomic_kept (e : Eng) (op : EOp) (s : State) {nxt : State} : doAtomic e op s = some nxt → nxt.rom = s.rom := by
  unfold doAtomic
  grind [State.setEngine_kept, memLoad_kept, → memLoad_kept_of, memStore_kept, → memStore_kept_of, excOr_kept, complete_kept]

theorem execAtomic_kept (e : Eng) (s : State) {nxt : State} : execAtomic e s = .next nxt → nxt.rom = s.rom :=
  issue_kept fun op s _ => doAtomic_kept e op s

theorem doPaired_kept (e : Eng) (op : EOp) (s : State) {nxt : State} : doPaired e op s = some nxt → nxt.rom = s.rom := by
  unfold doPaired
  dsimp only
  intro h
  repeat' split at h
  all_goals first
    | (simp at h; done)
    | exact storeOp_kept _ _ _ _ _ h
    | exact loadGo_kept (fun v t => (issueLoad_kept ..).trans (State.setEngine_kept ..)) h
    | (injection h with h; rw [← h]; simp only [complete_kept]; done)

theorem execPairedWord_kept (e : Eng) (s : State) {nxt : State} : execPairedWord e s = .next nxt → nxt.rom = s.rom :=
  issue_kept fun op s _ => doPaired_kept e op s

@[simp] theorem branchTo_kept (e : Eng) (ws : List (Nat × W32)) (target : W32) (taken : Bool) (s : State) : (branchTo e ws target taken s).rom = s.rom := rfl

theorem doBranch_kept (e : Eng) (op : EOp) (s : State) {nxt : State} : doBranch e op s = some nxt → nxt.rom = s.rom := by
  unfold doBranch
  grind [branchTo_kept]

theorem execBranch_kept (e : Eng) (s : State) {nxt : State} : execBranch e s = .next nxt → nxt.rom = s.rom :=
  issue_kept fun op s _ => doBranch_kept e op s

theorem execJump_kept (e : Eng) (s : State) {nxt : State} : execJump e s = .next nxt → nxt.rom = s.rom :=
  issue_kept fun op s _ => doBranch_kept e op s

theorem execJalr_kept (e : Eng) (s : State) {nxt : State} : execJalr e s = .next nxt → nxt.rom = s.rom :=
  issue_kept fun op s _ => doBranch_kept e op s

theorem doLoop_kept (e : Eng) (op : EOp) (s : State) {nxt : State} : doLoop e op s = some nxt → nxt.rom = s.rom := by
  unfold doLoop
  grind [State.count_kept, State.setEngine_kept]

theorem execLoop_kept (e : Eng) (s : State) {nxt : State} : execLoop e s = .next nxt → nxt.rom = s.rom :=
  issue_kept fun op s _ => doLoop_kept e op s

theorem doMfc_kept (e : Eng) (op : EOp) (s : State) {nxt : State} : doMfc e op s = some nxt → nxt.rom = s.rom := by
  unfold doMfc
  grind [complete_kept, excOr_kept]

theorem execMfc_kept (e : Eng) (s : State) {nxt : State} : execMfc e s = .next nxt → nxt.rom = s.rom :=
  issue_kept fun op s _ => doMfc_kept e op s

theorem doMtc_kept (e : Eng) (op : EOp) (s : State) {nxt : State} : doMtc e op s = some nxt → nxt.rom = s.rom := by
  unfold doMtc
  grind [State.setEngine_kept, excOr_kept]

theorem execMtc_kept (e : Eng) (s : State) {nxt : State} : execMtc e s = .next nxt → nxt.rom = s.rom :=
  issue_kept fun op s _ => doMtc_kept e op s

theorem doTrap_kept (e : Eng) (op : EOp) (s : State) {nxt : State} : doTrap e op s = some nxt → nxt.rom = s.rom := by
  unfold doTrap
  grind [excOr_kept]

theorem execSyscall_kept (e : Eng) (s : State) {nxt : State} : execSyscall e s = .next nxt → nxt.rom = s.rom :=
  issue_kept fun op s _ => doTrap_kept e op s

theorem execBrk_kept (e : Eng) (s : State) {nxt : State} : execBrk e s = .next nxt → nxt.rom = s.rom :=
  issue_kept fun op s _ => doTrap_kept e op s

theorem doRfe_kept (e : Eng) (op : EOp) (s : State) {nxt : State} : doRfe e op s = some nxt → nxt.rom = s.rom := by
  unfold doRfe
  grind [State.setEngine_kept, excOr_kept]

theorem execRfe_kept (e : Eng) (s : State) {nxt : State} : execRfe e s = .next nxt → nxt.rom = s.rom :=
  issue_kept fun op s _ => doRfe_kept e op s

theorem doSync_kept (e : Eng) (op : EOp) (s : State) {nxt : State} : doSync e op s = some nxt → nxt.rom = s.rom := by
  unfold doSync
  grind [complete_kept]

theorem execSync_kept (e : Eng) (s : State) {nxt : State} : execSync e s = .next nxt → nxt.rom = s.rom :=
  issue_kept fun op s _ => doSync_kept e op s

theorem doIflush_kept (e : Eng) (op : EOp) (s : State) {nxt : State} : doIflush e op s = some nxt → nxt.rom = s.rom := by
  unfold doIflush
  grind [State.setEngine_kept]

theorem execIflush_kept (e : Eng) (s : State) {nxt : State} : execIflush e s = .next nxt → nxt.rom = s.rom :=
  issue_kept fun op s _ => doIflush_kept e op s

theorem doWait_kept (e : Eng) (op : EOp) (s : State) {nxt : State} : doWait e op s = some nxt → nxt.rom = s.rom := by
  unfold doWait
  grind [State.setEngine_kept, complete_kept]

@[simp] theorem endWait_kept (e : Eng) (s : State) : (endWait e s).rom = s.rom := by
  unfold endWait
  simp [rom_ite]

theorem execWait_kept (e : Eng) (s : State) {nxt : State} : execWait e s = .next nxt → nxt.rom = s.rom :=
  issue_kept fun op s _ => doWait_kept e op s

theorem execInterruptEntry_kept (e : Eng) (s : State) {nxt : State} : execInterruptEntry e s = .next nxt → nxt.rom = s.rom := by
  unfold execInterruptEntry
  grind [endWait_kept, enterCause_kept]

@[simp] theorem asyncEntry_kept (e : Eng) (s : State) : (asyncEntry e s).rom = s.rom := by
  unfold asyncEntry
  grind [State.setEngine_kept, enterCause_kept, haltCore_kept]

theorem execAsyncErrorEntry_kept (e : Eng) (s : State) {nxt : State} : execAsyncErrorEntry e s = .next nxt → nxt.rom = s.rom := by
  intro h
  exact act_kept (by simp) h

@[simp] theorem takeover_kept (e : Eng) (n : Nat) (r : EntryRun) (s : State) : (takeover e n r s).rom = s.rom := by
  unfold takeover
  (repeat' split) <;> simp

theorem execInterruptTakeover_kept (e : Eng) (s : State) {nxt : State} : execInterruptTakeover e s = .next nxt → nxt.rom = s.rom := by
  unfold execInterruptTakeover
  dsimp only
  split
  · exact act_kept (takeover_kept ..)
  · intro h; injection h with h; rw [h]

theorem execHandlerWindowExpiry_kept (e : Eng) (s : State) {nxt : State} : execHandlerWindowExpiry e s = .next nxt → nxt.rom = s.rom := by
  unfold execHandlerWindowExpiry
  exact act_kept ((State.setEngine_kept ..).trans (State.advance_kept ..))

/-! ### Vector -/

theorem vIssue_kept (e : Eng) (run : VecRun) (f : Engine → Engine) (s : State) {nxt : State} : vIssue e run f s = some nxt → nxt.rom = s.rom := by
  unfold vIssue
  grind [State.setEngine_kept]

theorem doVc_kept (e : Eng) (op : EOp) (s : State) {nxt : State} : doVc e op s = some nxt → nxt.rom = s.rom := by
  unfold doVc
  grind [State.setEngine_kept, complete_kept, excOr_kept, vIssue_kept]

theorem execSetvl_kept (e : Eng) (s : State) {nxt : State} : execSetvl e s = .next nxt → nxt.rom = s.rom :=
  issue_kept fun op s _ => doVc_kept e op s

theorem execShape_kept (e : Eng) (s : State) {nxt : State} : execShape e s = .next nxt → nxt.rom = s.rom :=
  issue_kept fun op s _ => doVc_kept e op s

theorem execShaper_kept (e : Eng) (s : State) {nxt : State} : execShaper e s = .next nxt → nxt.rom = s.rom :=
  issue_kept fun op s _ => doVc_kept e op s

theorem execVrds_kept (e : Eng) (s : State) {nxt : State} : execVrds e s = .next nxt → nxt.rom = s.rom :=
  issue_kept fun op s _ => doVc_kept e op s

theorem execVwrs_kept (e : Eng) (s : State) {nxt : State} : execVwrs e s = .next nxt → nxt.rom = s.rom :=
  issue_kept fun op s _ => doVc_kept e op s

theorem doVa_kept (e : Eng) (op : EOp) (s : State) {nxt : State} : doVa e op s = some nxt → nxt.rom = s.rom := by
  unfold doVa
  grind [excOr_kept, vIssue_kept]

theorem execVectorArith_kept (e : Eng) (s : State) {nxt : State} : execVectorArith e s = .next nxt → nxt.rom = s.rom :=
  issue_kept fun op s _ => doVa_kept e op s

theorem execVectorCompare_kept (e : Eng) (s : State) {nxt : State} : execVectorCompare e s = .next nxt → nxt.rom = s.rom :=
  issue_kept fun op s _ => doVa_kept e op s

theorem execVectorReduction_kept (e : Eng) (s : State) {nxt : State} : execVectorReduction e s = .next nxt → nxt.rom = s.rom :=
  issue_kept fun op s _ => doVa_kept e op s

theorem execVectorPermute_kept (e : Eng) (s : State) {nxt : State} : execVectorPermute e s = .next nxt → nxt.rom = s.rom :=
  issue_kept fun op s _ => doVa_kept e op s

theorem execVgetVput_kept (e : Eng) (s : State) {nxt : State} : execVgetVput e s = .next nxt → nxt.rom = s.rom :=
  issue_kept fun op s _ => doVa_kept e op s

@[simp] theorem vectorDone_kept (e : Eng) (s : State) : (vectorDone e s).rom = s.rom := rfl

theorem execVectorComplete_kept (e : Eng) (s : State) {nxt : State} : execVectorComplete e s = .next nxt → nxt.rom = s.rom := by
  intro h
  exact act_kept (by simp) h

@[simp] theorem vecRead_kept (e : Eng) (a n : Nat) (s : State) : (vecRead e a n s).2.rom = s.rom := by
  unfold vecRead
  grind [engRead_kept, → engRead_kept_of]
theorem vecRead_kept_of (e : Eng) (a n : Nat) (s : State) {v0} {nxt : State} (h : vecRead e a n s = (v0, nxt)) : nxt.rom = s.rom := snd_kept h (vecRead_kept e a n s)

@[simp] theorem vecMove_kept (e : Eng) (store : Bool) (vd w i a : Nat) (s : State) : (vecMove e store vd w i a s).rom = s.rom := by
  unfold vecMove
  simp [rom_ite]

theorem vecFault_kept (e : Eng) (sub vpos : Nat) (a : W32) (s : State) {nxt : State} : vecFault e sub vpos a s = some nxt → nxt.rom = s.rom := by
  unfold vecFault
  grind [State.setEngine_kept, excOr_kept]

theorem doVmem_kept (e : Eng) (op : EOp) (s : State) {nxt : State} : doVmem e op s = some nxt → nxt.rom = s.rom := by
  unfold doVmem
  grind [excOr_kept, vIssue_kept, vecFault_kept, vecMove_kept, foldl_kept, foldl_kept_snd]

theorem execVectorLoad_kept (e : Eng) (s : State) {nxt : State} : execVectorLoad e s = .next nxt → nxt.rom = s.rom :=
  issue_kept fun op s _ => doVmem_kept e op s

theorem execVectorStore_kept (e : Eng) (s : State) {nxt : State} : execVectorStore e s = .next nxt → nxt.rom = s.rom :=
  issue_kept fun op s _ => doVmem_kept e op s

/-! ### Stream -/

@[simp] theorem State.modSu_kept (s : State) (e : Eng) (f : StreamUnit → StreamUnit) : (State.modSu s e f).rom = s.rom := rfl

@[simp] theorem State.modChord_kept (s : State) (e : Eng) (t : Nat) (f : Chord → Chord) : (State.modChord s e t f).rom = s.rom := rfl

@[simp] theorem readDescs_kept (e : Eng) (n a : Nat) (s : State) : (readDescs e n a s).2.rom = s.rom := by
  induction n generalizing a s with
  | zero => rfl
  | succ n ih =>
    unfold readDescs
    dsimp only
    (repeat' split) <;> simp only [ih, memLoad_kept]
theorem readDescs_kept_of (e : Eng) (n a : Nat) (s : State) {v0} {nxt : State} (h : readDescs e n a s = (v0, nxt)) : nxt.rom = s.rom := snd_kept h (readDescs_kept e n a s)

@[simp] theorem startCheck_kept (e : Eng) (a : Nat) (restart : Bool) (s : State) : (startCheck e a restart s).2.rom = s.rom := by
  unfold startCheck
  grind [readDescs_kept, → readDescs_kept_of]
theorem startCheck_kept_of (e : Eng) (a : Nat) (restart : Bool) (s : State) {v0} {nxt : State} (h : startCheck e a restart s = (v0, nxt)) : nxt.rom = s.rom := snd_kept h (startCheck_kept e a restart s)

@[simp] theorem queueChord_kept (e : Eng) (c : Chord) (s : State) : (queueChord e c s).rom = s.rom := rfl

theorem doStart_kept (e : Eng) (op : EOp) (s : State) {nxt : State} : doStart e op s = some nxt → nxt.rom = s.rom := by
  unfold doStart
  grind [State.count_kept, State.setEngine_kept, complete_kept, excOr_kept, queueChord_kept, startCheck_kept, → startCheck_kept_of]

theorem execSstart_kept (e : Eng) (s : State) {nxt : State} : execSstart e s = .next nxt → nxt.rom = s.rom :=
  issue_kept fun op s _ => doStart_kept e op s

theorem execSstarta_kept (e : Eng) (s : State) {nxt : State} : execSstarta e s = .next nxt → nxt.rom = s.rom :=
  issue_kept fun op s _ => doStart_kept e op s

@[simp] theorem State.dropChord_kept (s : State) (e : Eng) (t : Nat) : (State.dropChord s e t).rom = s.rom := rfl

@[simp] theorem startError_kept (e : Eng) (t sub : Nat) (instr : W32) (s : State) : (startError e t sub instr s).rom = s.rom := by
  unfold startError
  simp

@[simp] theorem lateCheck_kept (e : Eng) (t : Nat) (instr : W32) (s : State) : (lateCheck e t instr s).rom = s.rom := by
  unfold lateCheck
  grind [State.modChord_kept, State.setEngine_kept, startCheck_kept, startError_kept, → startCheck_kept_of]

@[simp] theorem startCheckDone_kept (e : Eng) (s : State) : (startCheckDone e s).rom = s.rom := by
  unfold startCheckDone
  (repeat' split) <;> simp

theorem execStartCheckComplete_kept (e : Eng) (s : State) {nxt : State} : execStartCheckComplete e s = .next nxt → nxt.rom = s.rom := by
  intro h
  exact act_kept (by simp) h

@[simp] theorem touchSpan_kept (e : Eng) (x : Nat × Int × Nat × Nat) (s : State) : (touchSpan e x s).rom = s.rom := by
  unfold touchSpan
  dsimp only
  split
  · rfl
  · refine foldl_kept (fun s b => ?_) _ _
    (repeat' split) <;> simp

@[simp] theorem touchSources_kept (e : Eng) (c : Chord) (r : ChordRun) (s : State) : (touchSources e c r s).rom = s.rom := by
  have h := foldl_kept (f := fun s x => touchSpan e x s) (fun s x => touchSpan_kept e x s)
  unfold touchSources
  simp [rom_ite, h]

@[simp] theorem chordWrite_kept (e : Eng) (c : Chord) (w : LaneWrite) (s : State) : (chordWrite e c w s).2.rom = s.rom := by
  unfold chordWrite
  split
  · rfl
  · split
    · rfl
    · exact (State.modChord_kept ..).trans (engWrite_kept ..)
theorem chordWrite_kept_of (e : Eng) (c : Chord) (w : LaneWrite) (s : State) {v0} {nxt : State} (h : chordWrite e c w s = (v0, nxt)) : nxt.rom = s.rom := snd_kept h (chordWrite_kept e c w s)

theorem writeElFrom_kept (e : Eng) (c : Chord) (s : State) (ws : List LaneWrite) (t : State) (k : t.rom = s.rom) :
    (writeElFrom e c s ws t).2.rom = s.rom := by
  induction ws generalizing t with
  | nil => exact k
  | cons w l ih =>
    unfold writeElFrom
    have h := chordWrite_kept e c w t
    split
    · exact ih _ (by simp_all)
    · exact chordWrite_kept ..
@[simp] theorem writeEl_kept (e : Eng) (c : Chord) (ws : List LaneWrite) (s : State) : (writeEl e c ws s).2.rom = s.rom :=
  writeElFrom_kept e c s ws s rfl
theorem writeEl_kept_of (e : Eng) (c : Chord) (ws : List LaneWrite) (s : State) {v0} {nxt : State} (h : writeEl e c ws s = (v0, nxt)) : nxt.rom = s.rom := snd_kept h (writeEl_kept e c ws s)

@[simp] theorem writeEls_kept (e : Eng) (c : Chord) (l : List (List LaneWrite)) (n : Nat) (s : State) :
    (writeEls e c l n s).2.2.rom = s.rom := by
  induction l generalizing n s with
  | nil => rfl
  | cons w l ih =>
    unfold writeEls
    have h := writeEl_kept e c w s
    split <;> simp_all
theorem writeEls_kept_of (e : Eng) (c : Chord) (l : List (List LaneWrite)) (n : Nat) (s : State) {v0} {v1} {nxt : State} (h : writeEls e c l n s = (v0, v1, nxt)) : nxt.rom = s.rom := by
  have k := writeEls_kept e c l n s
  rw [h] at k
  exact k

@[simp] theorem commitTo_kept (e : Eng) (c : Chord) (r : ChordRun) (k : Nat) (s : State) : (commitTo e c r k s).2.rom = s.rom := by
  unfold commitTo
  simp
theorem commitTo_kept_of (e : Eng) (c : Chord) (r : ChordRun) (k : Nat) (s : State) {v0} {nxt : State} (h : commitTo e c r k s = (v0, nxt)) : nxt.rom = s.rom := snd_kept h (commitTo_kept e c r k s)

@[simp] theorem drainStage_kept (e : Eng) (c : Chord) (s : State) : (drainStage e c s).2.rom = s.rom := by
  unfold drainStage
  simp [foldl_kept_snd]
theorem drainStage_kept_of (e : Eng) (c : Chord) (s : State) {v0} {nxt : State} (h : drainStage e c s = (v0, nxt)) : nxt.rom = s.rom := snd_kept h (drainStage_kept e c s)

@[simp] theorem chordDone_kept (e : Eng) (c : Chord) (code opx : Nat) (s : State) : (chordDone e c code opx s).rom = s.rom := by
  unfold chordDone
  simp [rom_ite]

@[simp] theorem chordFinish_kept (e : Eng) (s : State) : (chordFinish e s).rom = s.rom := by
  unfold chordFinish
  grind [chordDone_kept, commitTo_kept, drainStage_kept, touchSources_kept, → commitTo_kept_of, → drainStage_kept_of]

theorem execChordComplete_kept (e : Eng) (s : State) {nxt : State} : execChordComplete e s = .next nxt → nxt.rom = s.rom := by
  intro h
  exact act_kept (by simp) h

@[simp] theorem beginChord_kept (e : Eng) (c : Chord) (s : State) : (beginChord e c s).rom = s.rom := rfl

@[simp] theorem chordStart_kept (e : Eng) (s : State) : (chordStart e s).rom = s.rom := by
  unfold chordStart
  (repeat' split) <;> simp

theorem execChordStart_kept (e : Eng) (s : State) {nxt : State} : execChordStart e s = .next nxt → nxt.rom = s.rom := by
  intro h
  exact act_kept (by simp) h

@[simp] theorem writeLsp_kept (e : Eng) (a : Nat) (bs : List Byte) (s : State) : (writeLsp e a bs s).rom = s.rom := by
  unfold writeLsp
  simp

@[simp] theorem stopIndex_kept (c : Chord) (r : ChordRun) (s : State) : (stopIndex c r s).2.rom = s.rom := by
  unfold stopIndex
  simp [rom_ite, snd_ite]
theorem stopIndex_kept_of (c : Chord) (r : ChordRun) (s : State) {v0} {nxt : State} (h : stopIndex c r s = (v0, nxt)) : nxt.rom = s.rom := snd_kept h (stopIndex_kept c r s)

@[simp] theorem chordStop_kept (e : Eng) (s : State) : (chordStop e s).rom = s.rom := by
  unfold chordStop
  grind [State.modChord_kept, State.modSu_kept, chordDone_kept, commitTo_kept, stopIndex_kept, touchSources_kept, writeLsp_kept, → commitTo_kept_of, → stopIndex_kept_of]

theorem execChordStop_kept (e : Eng) (s : State) {nxt : State} : execChordStop e s = .next nxt → nxt.rom = s.rom := by
  intro h
  exact act_kept (by simp) h

@[simp] theorem chordResume_kept (e : Eng) (s : State) : (chordResume e s).rom = s.rom := by
  unfold chordResume
  grind [State.modChord_kept, State.modSu_kept, chordDone_kept, memLoad_kept, raiseFault_kept, writeLsp_kept, → memLoad_kept_of]

theorem execChordResume_kept (e : Eng) (s : State) {nxt : State} : execChordResume e s = .next nxt → nxt.rom = s.rom := by
  intro h
  exact act_kept (by simp) h

@[simp] theorem chordRestart_kept (e : Eng) (s : State) : (chordRestart e s).rom = s.rom := by
  unfold chordRestart
  grind [State.modChord_kept, beginChord_kept, startCheck_kept, startError_kept, → startCheck_kept_of]

theorem execChordRestart_kept (e : Eng) (s : State) {nxt : State} : execChordRestart e s = .next nxt → nxt.rom = s.rom := by
  intro h
  exact act_kept (by simp) h

@[simp] theorem cancelChord_kept (e : Eng) (c : Chord) (s : State) : (cancelChord e c s).rom = s.rom := by
  unfold cancelChord
  simp [rom_ite]

theorem doScancel_kept (e : Eng) (s : State) {nxt : State} : doScancel e s = some nxt → nxt.rom = s.rom := by
  unfold doScancel
  grind [cancelChord_kept, complete_kept, excOr_kept, foldl_kept, foldl_kept_snd]

theorem doSu_kept (e : Eng) (op : EOp) (s : State) {nxt : State} : doSu e op s = some nxt → nxt.rom = s.rom := by
  unfold doSu
  grind [complete_kept, doScancel_kept]

theorem execSwait_kept (e : Eng) (s : State) {nxt : State} : execSwait e s = .next nxt → nxt.rom = s.rom :=
  issue_kept fun op s _ => doSu_kept e op s

theorem execSstat_kept (e : Eng) (s : State) {nxt : State} : execSstat e s = .next nxt → nxt.rom = s.rom :=
  issue_kept fun op s _ => doSu_kept e op s

theorem execScancel_kept (e : Eng) (s : State) {nxt : State} : execScancel e s = .next nxt → nxt.rom = s.rom :=
  issue_kept fun op s _ => doSu_kept e op s

/-! ### Micro -/

@[simp] theorem failChord_kept (e : Eng) (c : Chord) (t : Nat) (r : Option Nat) (s : State) : (failChord e c t r s).rom = s.rom := by
  unfold failChord
  (repeat' split) <;> simp

@[simp] theorem laneRead_kept (e : Eng) (t : Nat) (c : Chord) (d : Desc) (lane : Nat) (at' : Nat) (n : Nat) (s : State) : (laneRead e t c d lane at' n s).rom = s.rom := by
  unfold laneRead
  grind [engRead_kept, → engRead_kept_of, touchSpan_kept, failChord_kept, foldl_kept, foldl_kept_snd]

@[simp] theorem laneWrite_kept (e : Eng) (t : Nat) (c : Chord) (lane : Nat) (at' : Nat) (n : Nat) (x : UThread) (s : State) : (laneWrite e t c lane at' n x s).rom = s.rom := by
  unfold laneWrite
  simp

@[simp] theorem mwMoves_kept (e : Eng) (t : Nat) (c : Chord) (d : Desc) (m : MWord) (x : UThread) (s : State) : (mwMoves e t c d m x s).rom = s.rom := by
  unfold mwMoves
  grind [State.modSu_kept, State.modChord_kept, commitTo_kept, → commitTo_kept_of, drainStage_kept, → drainStage_kept_of, failChord_kept, laneRead_kept, laneWrite_kept]

@[simp] theorem mwCommit_kept (e : Eng) (t : Nat) (v : Nat) (s : State) : (mwCommit e t v s).rom = s.rom := by
  unfold mwCommit
  (repeat' split) <;> simp

@[simp] theorem mwRun_kept (e : Eng) (t : Nat) (word : W64) (s : State) : (mwRun e t word s).rom = s.rom := by
  unfold mwRun
  grind [State.modSu_kept, State.modChord_kept, mwMoves_kept, mwCommit_kept]

@[simp] theorem mwUnmapped_kept (e : Eng) (t : Nat) (s : State) : (mwUnmapped e t s).rom = s.rom := by
  unfold mwUnmapped
  simp

theorem mwIssue_kept (e : Eng) (t : Nat) (word : Option W64) (cls : Nat) (s : State) {nxt : State} : mwIssue e t word cls s = .next nxt → nxt.rom = s.rom := by
  unfold mwIssue
  intro h
  dsimp only at h
  repeat' split at h
  all_goals first
    | (injection h with h; rw [← h]; done)
    | (injection h with h; rw [← h]; exact mwUnmapped_kept ..)
    | exact act_kept (mwRun_kept ..) h

theorem execMwNop_kept (e : Eng) (t : Nat) (word : Option W64) (s : State) {nxt : State} : execMwNop e t word s = .next nxt → nxt.rom = s.rom := mwIssue_kept e t word 0 s

theorem execMwUalu_kept (e : Eng) (t : Nat) (word : Option W64) (s : State) {nxt : State} : execMwUalu e t word s = .next nxt → nxt.rom = s.rom := mwIssue_kept e t word 1 s

theorem execMwLdc_kept (e : Eng) (t : Nat) (word : Option W64) (s : State) {nxt : State} : execMwLdc e t word s = .next nxt → nxt.rom = s.rom := mwIssue_kept e t word 2 s

theorem execMwLane_kept (e : Eng) (t : Nat) (word : Option W64) (s : State) {nxt : State} : execMwLane e t word s = .next nxt → nxt.rom = s.rom := mwIssue_kept e t word 3 s

theorem execMwExec_kept (e : Eng) (t : Nat) (word : Option W64) (s : State) {nxt : State} : execMwExec e t word s = .next nxt → nxt.rom = s.rom := mwIssue_kept e t word 4 s

theorem execMwBr_kept (e : Eng) (t : Nat) (word : Option W64) (s : State) {nxt : State} : execMwBr e t word s = .next nxt → nxt.rom = s.rom := mwIssue_kept e t word 5 s

theorem execMwCall_kept (e : Eng) (t : Nat) (word : Option W64) (s : State) {nxt : State} : execMwCall e t word s = .next nxt → nxt.rom = s.rom := mwIssue_kept e t word 6 s

theorem execMwLoop_kept (e : Eng) (t : Nat) (word : Option W64) (s : State) {nxt : State} : execMwLoop e t word s = .next nxt → nxt.rom = s.rom := mwIssue_kept e t word 7 s

theorem execMwEnd_kept (e : Eng) (t : Nat) (word : Option W64) (s : State) {nxt : State} : execMwEnd e t word s = .next nxt → nxt.rom = s.rom := mwIssue_kept e t word 8 s

theorem execMwStage_kept (e : Eng) (t : Nat) (word : Option W64) (s : State) {nxt : State} : execMwStage e t word s = .next nxt → nxt.rom = s.rom := mwIssue_kept e t word 9 s

theorem execMwCwait_kept (e : Eng) (t : Nat) (word : Option W64) (s : State) {nxt : State} : execMwCwait e t word s = .next nxt → nxt.rom = s.rom := mwIssue_kept e t word 10 s

/-! ### DmaCmds -/

theorem flushHold_kept (n : Nat) (h : DmaHold) (s : State) : (flushHold n h s).2.rom = s.rom := by
  unfold flushHold
  split
  · rfl
  · exact write40_kept ..
theorem flushHold_kept_of (n : Nat) (h : DmaHold) (s : State) {v0} {nxt : State} (k : flushHold n h s = (v0, nxt)) : nxt.rom = s.rom := snd_kept k (flushHold_kept n h s)

theorem pushElem_kept (n : Nat) (d : DmaDesc) (i : Nat) (bs : List Byte) (h : DmaHold) (s : State) : (pushElem n d i bs h s).2.2.rom = s.rom := by
  unfold pushElem
  dsimp only
  split
  · rfl
  · exact flushHold_kept ..
theorem pushElem_kept_of (n : Nat) (d : DmaDesc) (i : Nat) (bs : List Byte) (h : DmaHold) (s : State) {v0} {v1} {nxt : State} (e : pushElem n d i bs h s = (v0, v1, nxt)) : nxt.rom = s.rom := by
  have k := pushElem_kept n d i bs h s
  rw [e] at k
  exact k

theorem pushElems_kept (n : Nat) (d : DmaDesc) (l : List (List Byte)) (i : Nat) (h : DmaHold) (s : State) : (pushElems n d l i h s).2.2.rom = s.rom := by
  induction l generalizing i h s with
  | nil => rfl
  | cons b l ih =>
    unfold pushElems
    split
    · rw [ih]; exact pushElem_kept_of _ _ _ _ _ _ ‹_›
    · exact pushElem_kept ..
theorem pushElems_kept_of (n : Nat) (d : DmaDesc) (l : List (List Byte)) (i : Nat) (h : DmaHold) (s : State) {v0} {v1} {nxt : State} (e : pushElems n d l i h s = (v0, v1, nxt)) : nxt.rom = s.rom := by
  have k := pushElems_kept n d l i h s
  rw [e] at k
  exact k

theorem moveElems_kept (c : Nat) (d : DmaDesc) (n k i : Nat) (h : DmaHold) (s : State) : (moveElems c d n k i h s).2.2.rom = s.rom := by
  induction k generalizing i h s with
  | zero => rw [moveElems]
  | succ k ih =>
    have bad : ∀ (a b : Nat) (h : DmaHold) (s : State), (match flushHold c h s with
        | (none, s) => (DmaEnd.fail a b, ({} : DmaHold), s)
        | (some f, s) => (DmaEnd.fail 5 f, {}, s)).2.2.rom = s.rom := by
      intro a b h s
      split
      · exact flushHold_kept_of _ _ _ ‹_›
      · exact flushHold_kept_of _ _ _ ‹_›
    unfold moveElems
    split
    · exact Eq.refl s.rom
    · dsimp only
      split
      · exact (bad ..).trans (read40_kept_of _ _ _ _ _ ‹_›)
      · have hr := read40_kept_of _ _ _ _ _ ‹_›
        split
        · exact (pushElems_kept_of _ _ _ _ _ _ ‹_›).trans hr
        · have hp := (pushElems_kept_of _ _ _ _ _ _ ‹_›).trans hr
          split
          · exact (bad ..).trans hp
          · exact (ih ..).trans hp
theorem moveElems_kept_of (c : Nat) (d : DmaDesc) (n k i : Nat) (h : DmaHold) (s : State) {v0} {v1} {nxt : State} (e : moveElems c d n k i h s = (v0, v1, nxt)) : nxt.rom = s.rom := by
  have k := moveElems_kept c d n k i h s
  rw [e] at k
  exact k

@[simp] theorem moveFlush_kept (c : Nat) (d : DmaDesc) (n : Nat) (s : State) : (moveFlush c d n s).2.rom = s.rom := by
  unfold moveFlush
  split
  · have h := moveElems_kept_of _ _ _ _ _ _ _ ‹_›
    split
    · exact (flushHold_kept_of _ _ _ ‹_›).trans h
    · exact (flushHold_kept_of _ _ _ ‹_›).trans h
  · exact moveElems_kept_of _ _ _ _ _ _ _ ‹_›
theorem moveFlush_kept_of (c : Nat) (d : DmaDesc) (n : Nat) (s : State) {v0} {nxt : State} (h : moveFlush c d n s = (v0, nxt)) : nxt.rom = s.rom := snd_kept h (moveFlush_kept c d n s)

@[simp] theorem setPos_kept (k : Nat) (d : DmaDesc) (i : Nat) (s : State) : (setPos k d i s).rom = s.rom := rfl

@[simp] theorem dmaComplete_kept (k : Nat) (d : DmaDesc) (s : State) : (dmaComplete k d s).rom = s.rom := by
  unfold dmaComplete
  simp [rom_ite]

theorem dmaEnd_kept (k : Nat) (d : DmaDesc) (r : DmaEnd) {ok : State → State} (h : ∀ s, (ok s).rom = s.rom) (s : State) : (dmaEnd k d r ok s).rom = s.rom := by
  unfold dmaEnd
  split
  · exact h s
  · exact (dmaFail_kept ..).trans (setPos_kept ..)

@[simp] theorem dmaRunAll_kept (k : Nat) (s : State) : (dmaRunAll k s).rom = s.rom := by
  unfold dmaRunAll
  split
  · rfl
  · exact (dmaEnd_kept _ _ _ (fun s => dmaComplete_kept ..) _).trans (moveFlush_kept ..)

theorem execDmaDescriptorCheck_kept (course ch : Nat) (s : State) {nxt : State} : execDmaDescriptorCheck course ch s = .next nxt → nxt.rom = s.rom := by
  intro h
  exact act_kept (by simp) h

theorem execDmaDescriptorComplete_kept (course ch : Nat) (s : State) {nxt : State} : execDmaDescriptorComplete course ch s = .next nxt → nxt.rom = s.rom := by
  unfold execDmaDescriptorComplete
  exact act_kept (dmaRunAll_kept ..)

@[simp] theorem dmaStopAt_kept (k : Nat) (s : State) : (dmaStopAt k s).rom = s.rom := by
  unfold dmaStopAt
  split
  · exact (dmaReport_kept ..).trans (State.setDma_kept ..)
  · refine (dmaEnd_kept _ _ _ (fun s => ?_) _).trans ((moveFlush_kept ..).trans (State.draw_kept ..))
    split
    · exact dmaComplete_kept ..
    · exact (State.setDma_kept ..).trans (setPos_kept ..)

theorem execDmaStopTaken_kept (course ch : Nat) (s : State) {nxt : State} : execDmaStopTaken course ch s = .next nxt → nxt.rom = s.rom := by
  intro h
  exact act_kept (by simp) h

@[simp] theorem dmaErrorAt_kept (k : Nat) (w : Bool) (s : State) : (dmaErrorAt k w s).rom = s.rom := by
  unfold dmaErrorAt
  split
  · rfl
  · dsimp only
    split
    · split
      · exact (dmaFail_kept ..).trans ((setPos_kept ..).trans ((moveElems_kept_of _ _ _ _ _ _ _ ‹_›).trans (State.draw_kept ..)))
      · exact (dmaFail_kept ..).trans ((setPos_kept ..).trans ((flushHold_kept ..).trans ((State.draw_kept ..).trans ((moveElems_kept_of _ _ _ _ _ _ _ ‹_›).trans (State.draw_kept ..)))))
    · exact (dmaEnd_kept _ _ _ (fun s => (dmaFail_kept ..).trans (setPos_kept ..)) _).trans ((moveFlush_kept ..).trans (State.draw_kept ..))

theorem execDmaErrorResponse_kept (course ch : Nat) (isWrite : Bool) (s : State) {nxt : State} : execDmaErrorResponse course ch isWrite s = .next nxt → nxt.rom = s.rom := by
  intro h
  exact act_kept (by simp) h

@[simp] theorem timedOut_kept (m : Master) (addr : Nat) (write : Bool) (s : State) : (timedOut m addr write s).rom = s.rom := by
  unfold timedOut
  dsimp only
  (repeat' split) <;> simp only [pushAsync_kept, State.setEngine_kept, failLoad_kept, dmaErrorAt_kept, tlpError_kept, State.emit_kept]

theorem execFabricTimeout_kept (m : Master) (addr : Nat) (write : Bool) (s : State) {nxt : State} : execFabricTimeout m addr write s = .next nxt → nxt.rom = s.rom := by
  intro h
  exact act_kept (by simp) h

@[simp] theorem remoteTimeout_kept (m : Master) (addr : Nat) (write : Bool) (s : State) : (remoteTimeout m addr write s).rom = s.rom := by
  unfold remoteTimeout
  simp

theorem execRemoteAccessTimeout_kept (m : Master) (addr : Nat) (write : Bool) (s : State) {nxt : State} : execRemoteAccessTimeout m addr write s = .next nxt → nxt.rom = s.rom := by
  intro h
  exact act_kept (by simp) h

@[simp] theorem eccBack_kept (key cw : Nat) (s : State) : (eccBack key cw s).rom = s.rom := rfl

theorem execEccWriteBack_kept (inst : MemInst) (cw : Nat) (s : State) {nxt : State} : execEccWriteBack inst cw s = .next nxt → nxt.rom = s.rom := by
  intro h
  exact act_kept (by simp) h

@[simp] theorem patrol_kept (key cw : Nat) (s : State) : (patrol key cw s).rom = s.rom := by
  unfold patrol
  simp

theorem execPatrolScrubRead_kept (inst : MemInst) (cw : Nat) (s : State) {nxt : State} : execPatrolScrubRead inst cw s = .next nxt → nxt.rom = s.rom := by
  intro h
  exact act_kept (by simp) h

theorem execLspStarveLimit_kept (e : Eng) (s : State) {nxt : State} : execLspStarveLimit e s = .next nxt → nxt.rom = s.rom := by
  intro h
  exact act_kept (by simp) h

@[simp] theorem rowCopied_kept (row : RowCopy) (s : State) : (rowCopied row s).rom = s.rom := rfl

theorem execSpareRowCopy_kept (row : RowCopy) (s : State) {nxt : State} : execSpareRowCopy row s = .next nxt → nxt.rom = s.rom := by
  intro h
  exact act_kept (by simp) h

theorem execDramRefresh_kept (_channel : Nat) (s : State) {nxt : State} : execDramRefresh _channel s = .next nxt → nxt.rom = s.rom := by
  unfold execDramRefresh
  grind []

end Sys2Proof.Machine
end

