-- ==== Sys2Proof/Laws/Kept4.lean ====
section
/-! SUPPORT. What keeps fuses, the waiting commands and the straps: health, ports, bridge links, host commands, the capo (R18, R53, R124). -/
namespace Sys2Proof.Machine

/-! ### Health -/

@[simp] theorem markOut_kept (cls idx : Nat) (out : Bool) (s : State) : (markOut cls idx out s).rom = s.rom := rfl

@[simp] theorem setProposal_kept (k st : Nat) (s : State) : (setProposal k st s).rom = s.rom := rfl

@[simp] theorem setSlot_kept (slot : Option Nat) (st : Nat) (s : State) : (setSlot slot st s).rom = s.rom := by
  unfold setSlot
  (repeat' split) <;> simp

@[simp] theorem addSeq_kept (q : SpareSeq) (s : State) : (addSeq q s).rom = s.rom := by
  unfold addSeq
  simp [rom_ite]

@[simp] theorem retireUnit_kept (cls idx : Nat) (slot : Option Nat) (waiter : Option (Nat × Nat)) (s : State) : (retireUnit cls idx slot waiter s).2.rom = s.rom := by
  unfold retireUnit
  grind [State.modEm_kept, State.modTime_kept, State.modHealth_kept, openFault_kept, raiseFault_kept, State.setEngine_kept, growBad_kept, markOut_kept, setSlot_kept, addSeq_kept]
theorem retireUnit_kept_of (cls idx : Nat) (slot : Option Nat) (waiter : Option (Nat × Nat)) (s : State) {v0} {nxt : State} (h : retireUnit cls idx slot waiter s = (v0, nxt)) : nxt.rom = s.rom := snd_kept h (retireUnit_kept cls idx slot waiter s)

@[simp] theorem reinstateUnit_kept (cls idx : Nat) (waiter : Option (Nat × Nat)) (s : State) : (reinstateUnit cls idx waiter s).2.rom = s.rom := by
  unfold reinstateUnit
  grind [State.modHealth_kept, addSeq_kept]
theorem reinstateUnit_kept_of (cls idx : Nat) (waiter : Option (Nat × Nat)) (s : State) {v0} {nxt : State} (h : reinstateUnit cls idx waiter s = (v0, nxt)) : nxt.rom = s.rom := snd_kept h (reinstateUnit_kept cls idx waiter s)

@[simp] theorem moveSensel_kept (o i : Nat) (s : State) : (moveSensel o i s).rom = s.rom := rfl

@[simp] theorem moveEngine_kept (q : SpareSeq) (s : State) : (moveEngine q s).rom = s.rom := by
  unfold moveEngine
  simp [rom_ite]

@[simp] theorem activate_kept (q : SpareSeq) (s : State) : (activate q s).rom = s.rom := by
  unfold activate
  grind [State.modEm_kept, State.modHealth_kept, State.modTime_kept, State.setEngine_kept, State.setLink_kept, markOut_kept, moveEngine_kept, setSlot_kept]

@[simp] theorem finishSeq_kept (q : SpareSeq) (status result : Nat) (s : State) : (finishSeq q status result s).rom = s.rom := by
  unfold finishSeq
  (repeat' split) <;> simp

@[simp] theorem capoSeq_kept (q : SpareSeq) (result : Nat) (s : State) : (capoSeq q result s).rom = s.rom := by
  unfold capoSeq
  (repeat' split) <;> simp

@[simp] theorem stepSeq_kept (q : SpareSeq) (s : State) : (stepSeq q s).2.rom = s.rom := by
  unfold stepSeq
  grind [State.modEm_kept, State.setEngine_kept, activate_kept, capoSeq_kept, raiseFault_kept]
theorem stepSeq_kept_of (q : SpareSeq) (s : State) {v0} {nxt : State} (h : stepSeq q s = (v0, nxt)) : nxt.rom = s.rom := snd_kept h (stepSeq_kept q s)

@[simp] theorem stepSeqs_kept (s : State) : (stepSeqs s).rom = s.rom := by
  unfold stepSeqs
  simp [rom_ite, foldl_kept_snd]

@[simp] theorem endSeq_kept (q : SpareSeq) (failed : Bool) (s : State) : (endSeq q failed s).rom = s.rom := by
  unfold endSeq
  (repeat' split) <;> simp

@[simp] theorem abandonSeqs_kept (course : Nat) (s : State) : (abandonSeqs course s).rom = s.rom := by
  unfold abandonSeqs
  simp [foldl_kept]

@[simp] theorem selfTested_kept (q : SpareSeq) (pass : Bool) (s : State) : (selfTested q pass s).rom = s.rom := by
  unfold selfTested
  simp [rom_ite]

theorem execUnitSelfTestComplete_kept (cls : UnitClass) (index : Nat) (pass : Bool) (s : State) {nxt : State} :
    execUnitSelfTestComplete cls index pass s = .next nxt → nxt.rom = s.rom := by
  unfold execUnitSelfTestComplete
  exact act_kept (by split <;> simp only [selfTested_kept])

@[simp] theorem oscEnd_kept (agree : Bool) (s : State) : (oscEnd agree s).rom = s.rom := by
  unfold oscEnd
  (repeat' split) <;> simp

theorem execOscCompareEnd_kept (agree : Bool) (s : State) {nxt : State} : execOscCompareEnd agree s = .next nxt → nxt.rom = s.rom := by
  intro h
  exact act_kept (by simp) h

@[simp] theorem pbxMismatch_kept (s : State) : (pbxMismatch s).rom = s.rom := by
  unfold pbxMismatch
  simp [rom_ite]

theorem execPbxLockstepMismatch_kept (s : State) {nxt : State} : execPbxLockstepMismatch s = .next nxt → nxt.rom = s.rom := by
  intro h
  exact act_kept (by simp) h

@[simp] theorem autoOne_kept (k : Nat) (p : Proposal) (s : State) : (autoOne k p s).rom = s.rom := by
  unfold autoOne
  grind [raiseFault_kept, retireUnit_kept, → retireUnit_kept_of]

@[simp] theorem autoPolicy_kept (s : State) : (autoPolicy s).rom = s.rom := by
  unfold autoPolicy
  simp [rom_ite, foldl_kept]

@[simp] theorem hourEnds_kept (s : State) : (hourEnds s).rom = s.rom := by
  unfold hourEnds
  simp

@[simp] theorem healthSample_kept (deltas : List Nat) (s : State) : (healthSample deltas s).rom = s.rom := by
  unfold healthSample
  simp [rom_ite]

theorem execHealthMonitorSample_kept (deltas : List Nat) (s : State) {nxt : State} : execHealthMonitorSample deltas s = .next nxt → nxt.rom = s.rom := by
  intro h
  exact act_kept (by simp) h

@[simp] theorem ceCheck_kept (s : State) : (ceCheck s).rom = s.rom := by
  unfold ceCheck
  simp [foldl_kept]

theorem execCeRateCheck_kept (s : State) {nxt : State} : execCeRateCheck s = .next nxt → nxt.rom = s.rom := by
  intro h
  exact act_kept (by simp) h

@[simp] theorem eyeMargin_kept (link lane margin : Nat) (s : State) : (eyeMargin link lane margin s).rom = s.rom := by
  unfold eyeMargin
  grind [State.modEm_kept, propose_kept]

theorem execEyeMarginCheck_kept (link lane margin : Nat) (s : State) {nxt : State} : execEyeMarginCheck link lane margin s = .next nxt → nxt.rom = s.rom := by
  intro h
  exact act_kept (by simp) h

/-! ### Ports -/

@[simp] theorem State.setStream_kept (s : State) (id : Nat) (f : IngStream → IngStream) : (State.setStream s id f).rom = s.rom := rfl

@[simp] theorem admitRecord_kept (r : IngRecord) (s : State) : (admitRecord r s).rom = s.rom := rfl

@[simp] theorem refuseRecord_kept (ty port : Nat) (r : IngRecord) (s : State) : (refuseRecord ty port r s).rom = s.rom := by
  unfold refuseRecord
  simp [rom_ite]

@[simp] theorem offer_kept (ty port maxLen : Nat) (r : IngRecord) (s : State) : (offer ty port maxLen r s).rom = s.rom := by
  unfold offer
  simp [rom_ite]

@[simp] theorem dramStore_kept (a : Nat) (b : List Byte) (s : State) : (dramStore a b s).rom = s.rom := by
  unfold dramStore
  simp

@[simp] theorem ringWrite_kept (base len : Nat) (r : IngRecord) (s : State) : (ringWrite base len r s).rom = s.rom := by
  unfold ringWrite
  simp [rom_ite]

@[simp] theorem logIngress_kept (r : IngRecord) (s : State) : (logIngress r s).rom = s.rom := by
  unfold logIngress
  simp [rom_ite]

@[simp] theorem ingressWrite_kept (s : State) : (ingressWrite s).rom = s.rom := by
  unfold ingressWrite
  grind [State.modLink_kept, State.modPorts_kept, logIngress_kept, ringWrite_kept]

theorem execIngressRecordWrite_kept (s : State) {nxt : State} : execIngressRecordWrite s = .next nxt → nxt.rom = s.rom := by
  intro h
  exact act_kept (by simp) h

@[simp] theorem frameStart_kept (p vc : Nat) (frame : W16) (s : State) : (frameStart p vc frame s).rom = s.rom := by
  unfold frameStart
  simp

theorem execCsi2FrameStart_kept (p vc : Nat) (frame : W16) (s : State) {nxt : State} : execCsi2FrameStart p vc frame s = .next nxt → nxt.rom = s.rom := by
  intro h
  exact act_kept (by simp) h

@[simp] theorem lineStart_kept (p vc : Nat) (s : State) : (lineStart p vc s).rom = s.rom := by
  unfold lineStart
  (repeat' split) <;> simp

theorem execCsi2LineStart_kept (p vc : Nat) (s : State) {nxt : State} : execCsi2LineStart p vc s = .next nxt → nxt.rom = s.rom := by
  intro h
  exact act_kept (by simp) h

@[simp] theorem longPacket_kept (p vc dt : Nat) (crcOk : Bool) (data : List Byte) (s : State) : (longPacket p vc dt crcOk data s).rom = s.rom := by
  unfold longPacket
  (repeat' split) <;> simp

@[simp] theorem csiPacket_kept (p vc dt : Nat) (ecc : HdrEcc) (crcOk : Bool) (data : List Byte) (s : State) : (csiPacket p vc dt ecc crcOk data s).rom = s.rom := by
  unfold csiPacket
  (repeat' split) <;> simp

theorem execCsi2LongPacket_kept (p vc dt : Nat) (ecc : HdrEcc) (crcOk : Bool) (data : List Byte) (s : State) {nxt : State} : execCsi2LongPacket p vc dt ecc crcOk data s = .next nxt → nxt.rom = s.rom := by
  intro h
  exact act_kept (by simp) h

@[simp] theorem frameEnd_kept (p vc : Nat) (s : State) : (frameEnd p vc s).rom = s.rom := by
  unfold frameEnd
  simp

theorem execCsi2FrameEnd_kept (p vc : Nat) (s : State) {nxt : State} : execCsi2FrameEnd p vc s = .next nxt → nxt.rom = s.rom := by
  intro h
  exact act_kept (by simp) h

theorem execCsi2UlpsExit_kept (p : Nat) (s : State) {nxt : State} : execCsi2UlpsExit p s = .next nxt → nxt.rom = s.rom := by
  intro h
  exact act_kept (by simp) h

theorem execCsi2UlpsEntry_kept (p : Nat) (s : State) {nxt : State} : execCsi2UlpsEntry p s = .next nxt → nxt.rom = s.rom := by
  intro h
  exact act_kept (by simp) h

@[simp] theorem ethTaken_kept (p i : Nat) (r data : List Byte) (stamp : W64) (s : State) : (ethTaken p i r data stamp s).rom = s.rom := by
  unfold ethTaken
  simp [rom_ite]

@[simp] theorem ethFrame_kept (p : Nat) (fcsOk : Bool) (data : List Byte) (s : State) : (ethFrame p fcsOk data s).rom = s.rom := by
  unfold ethFrame
  grind [State.setSport_kept, ethTaken_kept]

theorem execEthernetFrameReceive_kept (p : Nat) (fcsOk : Bool) (data : List Byte) (s : State) {nxt : State} : execEthernetFrameReceive p fcsOk data s = .next nxt → nxt.rom = s.rom := by
  intro h
  exact act_kept (by simp) h

@[simp] theorem lockLoss_kept (p : Nat) (s : State) : (lockLoss p s).rom = s.rom := by
  unfold lockLoss
  simp [rom_ite]

theorem execEthBlockLockLoss_kept (p : Nat) (s : State) {nxt : State} : execEthBlockLockLoss p s = .next nxt → nxt.rom = s.rom := by
  intro h
  exact act_kept (by simp) h

theorem execEthBlockLockGain_kept (p : Nat) (s : State) {nxt : State} : execEthBlockLockGain p s = .next nxt → nxt.rom = s.rom := by
  intro h
  exact act_kept (by simp) h

@[simp] theorem canFrame_kept (p : Nat) (fr : CanFrame) (s : State) : (canFrame p fr s).rom = s.rom := by
  unfold canFrame
  grind [State.setSport_kept, assertProducer_kept, offer_kept, postBound_kept]

theorem execCanFrameReceive_kept (p : Nat) (frame : CanFrame) (s : State) {nxt : State} : execCanFrameReceive p frame s = .next nxt → nxt.rom = s.rom := by
  intro h
  exact act_kept (by simp) h

@[simp] theorem canOff_kept (p : Nat) (s : State) : (canOff p s).rom = s.rom := by
  unfold canOff
  simp

theorem execCanBusOff_kept (p : Nat) (s : State) {nxt : State} : execCanBusOff p s = .next nxt → nxt.rom = s.rom := by
  intro h
  exact act_kept (by simp) h

theorem execCanBusOffRecovery_kept (p : Nat) (s : State) {nxt : State} : execCanBusOffRecovery p s = .next nxt → nxt.rom = s.rom := by
  intro h
  exact act_kept (by simp) h

@[simp] theorem drdyEdge_kept (p : Nat) (s : State) : (drdyEdge p s).rom = s.rom := by
  unfold drdyEdge
  simp [rom_ite]

theorem execSpiDrdyEvent_kept (p : Nat) (s : State) {nxt : State} : execSpiDrdyEvent p s = .next nxt → nxt.rom = s.rom := by
  intro h
  exact act_kept (by simp) h

@[simp] theorem spiDone_kept (p : Nat) (data : List Byte) (s : State) : (spiDone p data s).rom = s.rom := by
  unfold spiDone
  grind [State.setSport_kept, offer_kept]

theorem execSpiTransactionComplete_kept (p : Nat) (data : List Byte) (s : State) {nxt : State} : execSpiTransactionComplete p data s = .next nxt → nxt.rom = s.rom := by
  intro h
  exact act_kept (by simp) h

@[simp] theorem State.setTrig_kept (s : State) (t : Nat) (f : Trigger → Trigger) : (State.setTrig s t f).rom = s.rom := rfl

@[simp] theorem trigRise_kept (t : Nat) (s : State) : (trigRise t s).rom = s.rom := by
  unfold trigRise
  simp [rom_ite]

theorem execTriggerRise_kept (t : Nat) (s : State) {nxt : State} : execTriggerRise t s = .next nxt → nxt.rom = s.rom := by
  intro h
  exact act_kept (by simp) h

@[simp] theorem trigFall_kept (t : Nat) (s : State) : (trigFall t s).rom = s.rom := by
  unfold trigFall
  (repeat' split) <;> simp [rom_ite]

theorem execTriggerFall_kept (t : Nat) (s : State) {nxt : State} : execTriggerFall t s = .next nxt → nxt.rom = s.rom := by
  intro h
  exact act_kept (by simp) h

@[simp] theorem postNext_kept (s : State) : (postNext s).rom = s.rom := by
  unfold postNext
  (repeat' split) <;> simp

theorem execEventEntryPost_kept (s : State) {nxt : State} : execEventEntryPost s = .next nxt → nxt.rom = s.rom := by
  intro h
  exact act_kept (by simp) h

/-! ### LogCmds -/

@[simp] theorem appendRecord_kept (n : Nat) (d : List Byte) (s : State) : (appendRecord n d s).2.rom = s.rom := by
  unfold appendRecord
  grind [enterRecord_kept, memLoad_kept, openTrigger_kept, raiseFault_kept, → enterRecord_kept_of, → memLoad_kept_of, → openTrigger_kept_of]
theorem appendRecord_kept_of (n : Nat) (d : List Byte) (s : State) {v0} {nxt : State} (h : appendRecord n d s = (v0, nxt)) : nxt.rom = s.rom := snd_kept h (appendRecord_kept n d s)

@[simp] theorem appendProcess_kept (n : Nat) (s : State) : (appendProcess n s).rom = s.rom := by
  unfold appendProcess
  grind [State.modLgs_kept, appendRecord_kept, appendResult_kept, memLoad_kept, raiseFault_kept, → appendRecord_kept_of, → memLoad_kept_of]

theorem execAppendProcess_kept (n : Nat) (s : State) {nxt : State} : execAppendProcess n s = .next nxt → nxt.rom = s.rom := by
  intro h
  exact act_kept (by simp) h

theorem execPageProgramComplete_kept (pass : Bool) (s : State) {nxt : State} : execPageProgramComplete pass s = .next nxt → nxt.rom = s.rom := by
  intro h
  exact act_kept (by simp) h

theorem execCommitPoint_kept (s : State) {nxt : State} : execCommitPoint s = .next nxt → nxt.rom = s.rom := by
  intro h
  exact act_kept (by simp) h

theorem execPeriodicSeal_kept (s : State) {nxt : State} : execPeriodicSeal s = .next nxt → nxt.rom = s.rom := by
  intro h
  exact act_kept (by simp) h

@[simp] theorem trigSpan_kept (t : LogTrig) (s : State) : (trigSpan t s).2.rom = s.rom := by
  unfold trigSpan
  grind [State.draw_kept, → State.draw_kept_of]
theorem trigSpan_kept_of (t : LogTrig) (s : State) {v0} {nxt : State} (h : trigSpan t s = (v0, nxt)) : nxt.rom = s.rom := snd_kept h (trigSpan_kept t s)

@[simp] theorem trigClose_kept (t : LogTrig) (s : State) : (trigClose t s).rom = s.rom := by
  unfold trigClose
  exact (enterSystem_kept ..).trans ((trigSpan_kept ..).trans ((flushGap_kept ..).trans ((State.modLgs_kept ..).trans (State.bringVt_kept ..))))

@[simp] theorem trigEnd_kept (id : Nat) (s : State) : (trigEnd id s).rom = s.rom := by
  unfold trigEnd
  (repeat' split) <;> simp

theorem execTriggerClose_kept (id : Nat) (s : State) {nxt : State} : execTriggerClose id s = .next nxt → nxt.rom = s.rom := by
  intro h
  exact act_kept (by simp) h

@[simp] theorem relocate_kept (k : Nat) (s : State) : (relocate k s).rom = s.rom := by
  unfold relocate
  (repeat' split) <;> simp

theorem execBlockRelocation_kept (k : Nat) (s : State) {nxt : State} : execBlockRelocation k s = .next nxt → nxt.rom = s.rom := by
  intro h
  exact act_kept (by simp) h

@[simp] theorem scrubBegin_kept (s : State) : (scrubBegin s).rom = s.rom := by
  unfold scrubBegin
  simp [rom_ite]

@[simp] theorem scrubEnd_kept (s : State) : (scrubEnd s).rom = s.rom := by
  unfold scrubEnd
  grind [State.modLgs_kept]

@[simp] theorem loseRecord_kept (k : Nat) (s : State) : (loseRecord k s).rom = s.rom := by
  unfold loseRecord
  grind [State.draw_kept, State.modLgs_kept, raiseFault_kept, → State.draw_kept_of]

@[simp] theorem retryRun_kept (b : Nat) (retried : Bool) (s : State) : (retryRun b retried s).rom = s.rom := by
  unfold retryRun
  grind [State.modLgs_kept, propose_kept]

@[simp] theorem scrubBlock_kept (b k : Nat) (softDecoded retried weak uncorrectable : Bool) (s : State) : (scrubBlock b k softDecoded retried weak uncorrectable s).rom = s.rom := by
  unfold scrubBlock
  simp [rom_ite]

@[simp] theorem scrub_kept (b : Nat) (softDecoded retried weak uncorrectable : Bool) (s : State) : (scrub b softDecoded retried weak uncorrectable s).rom = s.rom := by
  unfold scrub
  (repeat' split) <;> simp

theorem execRetentionScrub_kept (b : Nat) (softDecoded retried weak uncorrectable : Bool) (s : State) {nxt : State} : execRetentionScrub b softDecoded retried weak uncorrectable s = .next nxt → nxt.rom = s.rom := by
  intro h
  exact act_kept (by simp) h

@[simp] theorem reclaim_kept (slc : Bool) (s : State) : (reclaim slc s).rom = s.rom := by
  unfold reclaim
  (repeat' split) <;> simp

theorem execSegmentReclaim_kept (slc : Bool) (s : State) {nxt : State} : execSegmentReclaim slc s = .next nxt → nxt.rom = s.rom := by
  intro h
  exact act_kept (by simp) h

@[simp] theorem eraseDone_kept (b : Nat) (pass : Bool) (s : State) : (eraseDone b pass s).rom = s.rom := by
  unfold eraseDone
  simp [rom_ite]

theorem execNandBlockEraseComplete_kept (b : Nat) (pass : Bool) (s : State) {nxt : State} : execNandBlockEraseComplete b pass s = .next nxt → nxt.rom = s.rom := by
  intro h
  exact act_kept (by simp) h

@[simp] theorem capsuleEnter_kept (s : State) : (capsuleEnter s).rom = s.rom := by
  unfold capsuleEnter
  (repeat' split) <;> simp

theorem execCapsuleCommit_kept (s : State) {nxt : State} : execCapsuleCommit s = .next nxt → nxt.rom = s.rom := by
  intro h
  exact act_kept (by simp) h

@[simp] theorem fjExport_kept (q cid : Nat) (s : State) : (fjExport q cid s).rom = s.rom := by
  unfold fjExport
  simp [rom_ite]

/-! ### Bridge -/

@[simp] theorem routes_kept (s : State) : (routes s).rom = s.rom := rfl

@[simp] theorem setLead_kept (d : Nat) (s : State) : (setLead d s).rom = s.rom := by
  unfold setLead
  simp [rom_ite]

@[simp] theorem elect_kept (s : State) : (elect s).rom = s.rom := by
  unfold elect
  simp

@[simp] theorem selfPresent_kept (s : State) : (selfPresent s).rom = s.rom := rfl

@[simp] theorem brlReady_kept (s : State) : (brlReady s).rom = s.rom := by
  unfold brlReady
  simp

theorem execBrlReadyCheck_kept (s : State) {nxt : State} : execBrlReadyCheck s = .next nxt → nxt.rom = s.rom := by
  intro h
  exact act_kept (by simp []) h

@[simp] theorem downCause_kept (s : State) : (downCause s).rom = s.rom := by
  unfold downCause
  simp

@[simp] theorem shapeLink_kept (k : Nat) (bad : BitVec 5) (st : Nat) (s : State) : (shapeLink k bad st s).rom = s.rom := by
  unfold shapeLink
  simp [rom_ite]

@[simp] theorem trained_kept (k nbr : Nat) (good : BitVec 5) (peer : Nat) (s : State) : (trained k nbr good peer s).rom = s.rom := by
  unfold trained
  simp [rom_ite]

theorem execBrlTrainingComplete_kept (k nbr : Nat) (good : BitVec 5) (peer : Nat) (s : State) {nxt : State} : execBrlTrainingComplete k nbr good peer s = .next nxt → nxt.rom = s.rom := by
  intro h
  exact act_kept (by simp) h

@[simp] theorem laneFails_kept (k lane : Nat) (s : State) : (laneFails k lane s).rom = s.rom := by
  unfold laneFails
  simp [rom_ite]

theorem execBrlLaneFailure_kept (k lane : Nat) (s : State) {nxt : State} : execBrlLaneFailure k lane s = .next nxt → nxt.rom = s.rom := by
  intro h
  exact act_kept (by simp) h

@[simp] theorem retrained_kept (k replays : Nat) (s : State) : (retrained k replays s).rom = s.rom := rfl

theorem execBrlRetrainComplete_kept (k replays : Nat) (s : State) {nxt : State} : execBrlRetrainComplete k replays s = .next nxt → nxt.rom = s.rom := by
  intro h
  exact act_kept (by simp) h

@[simp] theorem stillPresent_kept (reported : BitVec 8) (s : State) : (stillPresent reported s).rom = s.rom := rfl

@[simp] theorem leadCheck_kept (s : State) : (leadCheck s).rom = s.rom := by
  unfold leadCheck
  simp [rom_ite]

@[simp] theorem linkDown_kept (k : Nat) (present : Byte) (s : State) : (linkDown k present s).rom = s.rom := by
  unfold linkDown
  simp

theorem execBrlLinkDown_kept (k : Nat) (present : Byte) (s : State) {nxt : State} : execBrlLinkDown k present s = .next nxt → nxt.rom = s.rom := by
  intro h
  exact act_kept (by simp []) h

@[simp] theorem leadLost_kept (s : State) : (leadLost s).rom = s.rom := by
  unfold leadLost
  simp

theorem execLeadLoss_kept (s : State) {nxt : State} : execLeadLoss s = .next nxt → nxt.rom = s.rom := by
  intro h
  exact act_kept (by simp) h

@[simp] theorem sendTime_kept (m : BrlMsg) (k : Nat) (s : State) : (sendTime m k s).rom = s.rom := rfl

@[simp] theorem timeSend_kept (s : State) : (timeSend s).rom = s.rom := by
  unfold timeSend
  simp [rom_ite]

theorem execBrlTimeMessageSend_kept (s : State) {nxt : State} : execBrlTimeMessageSend s = .next nxt → nxt.rom = s.rom := by
  intro h
  exact act_kept (by simp []) h

@[simp] theorem brlSample_kept (k : Nat) (m : BrlMsg) (stamp : W64) (ofs : Int) (s : State) : (brlSample k m stamp ofs s).rom = s.rom := by
  unfold brlSample
  simp [rom_ite]

@[simp] theorem forwardTime_kept (m : BrlMsg) (s : State) : (forwardTime m s).rom = s.rom := by
  unfold forwardTime
  simp [rom_ite]

@[simp] theorem timeReceive_kept (k : Nat) (m : BrlMsg) (s : State) : (timeReceive k m s).rom = s.rom := by
  unfold timeReceive
  grind [State.emit_kept, State.modBrl_kept, State.setLink_kept, brlSample_kept, forwardTime_kept]

theorem execBrlTimeMessageReceive_kept (k : Nat) (m : BrlMsg) (s : State) {nxt : State} : execBrlTimeMessageReceive k m s = .next nxt → nxt.rom = s.rom := by
  intro h
  exact act_kept (by simp) h

theorem execBrlReplyReceive_kept (k : Nat) (s : State) {nxt : State} : execBrlReplyReceive k s = .next nxt → nxt.rom = s.rom := by
  intro h
  exact act_kept (by simp) h

@[simp] theorem inbound_kept (k addr n : Nat) (data : Option (List Byte)) (s : State) : (inbound k addr n data s).rom = s.rom := by
  unfold inbound
  (repeat' split) <;> simp

theorem execRemoteWindowAccessIn_kept (k addr n : Nat) (data : Option (List Byte)) (s : State) {nxt : State} : execRemoteWindowAccessIn k addr n data s = .next nxt → nxt.rom = s.rom := by
  intro h
  exact act_kept (by simp) h

@[simp] theorem cubeDevice_kept (d : Nat) (s : State) : (cubeDevice d s).2.rom = s.rom := by
  unfold cubeDevice
  simp [rom_ite, snd_ite]
theorem cubeDevice_kept_of (d : Nat) (s : State) {v0} {nxt : State} (h : cubeDevice d s = (v0, nxt)) : nxt.rom = s.rom := snd_kept h (cubeDevice_kept d s)

@[simp] theorem cubeBytes_kept (s : State) : (cubeBytes s).2.rom = s.rom := by
  unfold cubeBytes
  simp [foldl_kept_snd]
theorem cubeBytes_kept_of (s : State) {v0} {nxt : State} (h : cubeBytes s = (v0, nxt)) : nxt.rom = s.rom := snd_kept h (cubeBytes_kept s)

@[simp] theorem cubeFinish_kept (c : CubeCmd) (reports : List CubeReport) (s : State) : (cubeFinish c reports s).rom = s.rom := by
  unfold cubeFinish
  grind [State.emit_kept, State.modBrl_kept, finishRaw_kept, foldl_kept, foldl_kept_snd]

@[simp] theorem cubeComplete_kept (reports : List CubeReport) (s : State) : (cubeComplete reports s).rom = s.rom := by
  unfold cubeComplete
  grind [cubeFinish_kept]

theorem execCubeCommandComplete_kept (reports : List CubeReport) (s : State) {nxt : State} : execCubeCommandComplete reports s = .next nxt → nxt.rom = s.rom := by
  intro h
  exact act_kept (by simp) h

theorem execFaultRaise_kept (id : Nat) (info : W64) (unit : W16) (s : State) {nxt : State} : execFaultRaise id info unit s = .next nxt → nxt.rom = s.rom := by
  intro h
  exact act_kept (by simp) h

@[simp] theorem warmDelayEnd_kept (s : State) : (warmDelayEnd s).rom = s.rom := by
  unfold warmDelayEnd
  (repeat' split) <;> simp

theorem execWarmResetDelayExpiry_kept (s : State) {nxt : State} : execWarmResetDelayExpiry s = .next nxt → nxt.rom = s.rom := by
  intro h
  exact act_kept (by simp) h

/-! ### Basut -/

@[simp] theorem setPhase_kept (q cid : Nat) (p : CmdPhase) (s : State) : (setPhase q cid p s).rom = s.rom := rfl

theorem claim_kept {q op : Nat} {sub : Sub} {s nxt : State} {cid : Nat} : claim q op sub s = some (cid, nxt) → nxt.rom = s.rom := by
  unfold claim
  intro h
  repeat' split at h
  all_goals first
    | (simp at h; done)
    | (simp only [Option.some.injEq, Prod.mk.injEq] at h; rw [← h.2]; simp only [setPhase_kept])

@[simp] theorem refuseUnknown_kept (q : Nat) (s : State) : (refuseUnknown q s).rom = s.rom := by
  unfold refuseUnknown
  simp [rom_ite, foldl_kept]

@[simp] theorem dropCube_kept (q cid : Nat) (s : State) : (dropCube q cid s).rom = s.rom := rfl

theorem foldl_emit_kept {α : Type} (f : α → Output) (l : List α) (s : State) : (l.foldl (fun s d => s.emit (f d)) s).rom = s.rom :=
  foldl_kept (fun s a => State.emit_kept s (f a)) l s

theorem runCube_rel {R : State → State → Prop} (kept : ∀ s t, t.rom = s.rom → R s t)
    (trans : ∀ s t u, R s t → R t u → R s u)
    {q cid op : Nat} {sub : Sub} {body : Body} (h : ∀ s, R s (body q cid sub s)) (s : State) : R s (runCube q cid op sub body s) := by
  unfold runCube
  dsimp only
  split
  · exact h s
  · set t := s.modBrl _ with ht
    refine trans _ _ _ (kept s t (State.modBrl_kept ..)) (trans _ _ _ (h t) (kept _ _ ?_))
    split
    · split
      · exact (finishRaw_kept ..).trans (dropCube_kept ..)
      · rfl
    · exact foldl_emit_kept ..

theorem perform_rel {R : State → State → Prop} (kept : ∀ s t, t.rom = s.rom → R s t)
    (trans : ∀ s t u, R s t → R t u → R s u)
    {q cid op : Nat} {sub : Sub} {body : Body} (h : ∀ sub s, R s (body q cid sub s)) (s : State) : R s (perform q cid op sub body s) := by
  unfold perform
  split
  · split
    · exact runCube_rel kept trans (h _) s
    · exact h _ s
  · exact kept _ _ (finish_kept ..)

theorem basut_rel {R : State → State → Prop} (kept : ∀ s t, t.rom = s.rom → R s t)
    (trans : ∀ s t u, R s t → R t u → R s u)
    {op q : Nat} {sub : Sub} {body : Body} (h : ∀ cid sub s, R s (body q cid sub s)) (s : State) : R s (basut op q sub body s) := by
  unfold basut
  split
  · exact trans _ _ _ (kept _ _ (claim_kept ‹_›)) (perform_rel kept trans (h _) _)
  · exact kept _ _ rfl

theorem basut_kept {op q : Nat} {sub : Sub} {body : Body} (h : ∀ cid sub s, (body q cid sub s).rom = s.rom) (s : State) :
    (basut op q sub body s).rom = s.rom :=
  basut_rel (R := fun s t => t.rom = s.rom) (fun _ _ h => h) (fun _ _ _ h k => k.trans h) h s

theorem runBasut_rel {R : State → State → Prop} (kept : ∀ s t, t.rom = s.rom → R s t)
    (trans : ∀ s t u, R s t → R t u → R s u)
    {op q : Nat} {sub : Sub} {body : Body} (h : ∀ cid sub s, R s (body q cid sub s)) {s nxt : State} :
    runBasut op q sub body s = .next nxt → R s nxt := by
  unfold runBasut act
  intro e
  injection e with e
  rw [← e]
  split
  · exact basut_rel kept trans h s
  · exact kept _ _ rfl

theorem runBasut_kept {op q : Nat} {sub : Sub} {body : Body} (h : ∀ q cid sub s, (body q cid sub s).rom = s.rom) {s nxt : State} :
    runBasut op q sub body s = .next nxt → nxt.rom = s.rom :=
  runBasut_rel (R := fun s t => t.rom = s.rom) (fun _ _ h => h) (fun _ _ _ h k => k.trans h) (fun cid sub s => h q cid sub s)

theorem withData_kept {data : Option (List Byte)} {f : List Byte → Body} (h : ∀ d q cid sub s, (f d q cid sub s).rom = s.rom)
    (q cid : Nat) (sub : Sub) (s : State) : (withData data f q cid sub s).rom = s.rom := by
  unfold withData
  split
  · exact h ..
  · exact finish_kept ..

@[simp] theorem succeed_kept (q cid res : Nat) (s : State) : (succeed q cid res s).rom = s.rom := by
  unfold succeed
  simp

@[simp] theorem refuse_kept (q cid st : Nat) (s : State) : (refuse q cid st s).rom = s.rom := by
  unfold refuse
  simp

@[simp] theorem writeHost_kept (q buf : Nat) (bytes : List Byte) (s : State) : (writeHost q buf bytes s).rom = s.rom := by
  unfold writeHost
  simp [rom_ite]

@[simp] theorem answerBytes_kept (op q cid : Nat) (sub : Sub) (bytes : List Byte) (s : State) : (answerBytes op q cid sub bytes s).rom = s.rom := by
  unfold answerBytes
  simp [rom_ite]

@[simp] theorem acceptCapo_kept (cmd : Instr) (q cid : Nat) (sub : Sub) (s : State) : (acceptCapo cmd q cid sub s).rom = s.rom := by
  unfold acceptCapo
  simp [rom_ite]

@[simp] theorem applied_kept (s : State) : (applied s).2.rom = s.rom := rfl
theorem applied_kept_of (s : State) {v0} {nxt : State} (h : applied s = (v0, nxt)) : nxt.rom = s.rom := snd_kept h (applied_kept s)

@[simp] theorem notApplied_kept (st : Nat) (s : State) : (notApplied st s).2.rom = s.rom := rfl
theorem notApplied_kept_of (st : Nat) (s : State) {v0} {nxt : State} (h : notApplied st s = (v0, nxt)) : nxt.rom = s.rom := snd_kept h (notApplied_kept st s)

@[simp] theorem capoBody_kept (cmd : Instr) (check : Sub → State → Nat) (q cid : Nat) (sub : Sub) (s : State) : (capoBody cmd check q cid sub s).rom = s.rom := by
  unfold capoBody
  (repeat' split) <;> simp

/-! ### HostCmds -/

theorem execSqReadCompletion_kept (q : Nat) (d : SqData) (s : State) {nxt : State} : execSqReadCompletion q d s = .next nxt → nxt.rom = s.rom := by
  unfold execSqReadCompletion
  exact act_kept ((refuseUnknown_kept ..).trans (readDone_kept ..))

@[simp] theorem bodySnapshot_kept  (q cid : Nat) (sub : Sub) (s : State) : (bodySnapshot q cid sub s).rom = s.rom := by
  unfold bodySnapshot
  simp [rom_ite]

theorem execSnapshot_kept (q : Nat) (sub : Sub) (s : State) {nxt : State} : execSnapshot q sub s = .next nxt → nxt.rom = s.rom :=
  runBasut_kept fun q cid sub s => bodySnapshot_kept  q cid sub s

@[simp] theorem bodyIdentify_kept  (q cid : Nat) (sub : Sub) (s : State) : (bodyIdentify q cid sub s).rom = s.rom := by
  unfold bodyIdentify
  simp

theorem execIdentify_kept (q : Nat) (sub : Sub) (s : State) {nxt : State} : execIdentify q sub s = .next nxt → nxt.rom = s.rom :=
  runBasut_kept fun q cid sub s => bodyIdentify_kept  q cid sub s

@[simp] theorem cacheIn_kept (q : Nat) (s : State) : (cacheIn q s).rom = s.rom := by
  unfold cacheIn
  simp [rom_ite]

@[simp] theorem bodyQpCreate_kept  (q cid : Nat) (sub : Sub) (s : State) : (bodyQpCreate q cid sub s).rom = s.rom := by
  unfold bodyQpCreate
  grind [State.setQp_kept, cacheIn_kept, refuse_kept, succeed_kept]

theorem execQpCreate_kept (q : Nat) (sub : Sub) (s : State) {nxt : State} : execQpCreate q sub s = .next nxt → nxt.rom = s.rom :=
  runBasut_kept fun q cid sub s => bodyQpCreate_kept  q cid sub s

@[simp] theorem bodyQpDelete_kept  (q cid : Nat) (sub : Sub) (s : State) : (bodyQpDelete q cid sub s).rom = s.rom := by
  unfold bodyQpDelete
  grind [refuse_kept, startDelete_kept]

theorem execQpDelete_kept (q : Nat) (sub : Sub) (s : State) {nxt : State} : execQpDelete q sub s = .next nxt → nxt.rom = s.rom :=
  runBasut_kept fun q cid sub s => bodyQpDelete_kept  q cid sub s

@[simp] theorem bodyQpModify_kept (q cid : Nat) (sub : Sub) (s : State) : (bodyQpModify q cid sub s).rom = s.rom := by
  unfold bodyQpModify
  dsimp only
  (repeat' split) <;> simp only [refuse_kept, succeed_kept, cacheIn_kept, State.setQp_kept]

theorem execQpModify_kept (q : Nat) (sub : Sub) (s : State) {nxt : State} : execQpModify q sub s = .next nxt → nxt.rom = s.rom :=
  runBasut_kept fun q cid sub s => bodyQpModify_kept  q cid sub s

@[simp] theorem bodyQpQuery_kept  (q cid : Nat) (sub : Sub) (s : State) : (bodyQpQuery q cid sub s).rom = s.rom := by
  unfold bodyQpQuery
  (repeat' split) <;> simp

theorem execQpQuery_kept (q : Nat) (sub : Sub) (s : State) {nxt : State} : execQpQuery q sub s = .next nxt → nxt.rom = s.rom :=
  runBasut_kept fun q cid sub s => bodyQpQuery_kept  q cid sub s

@[simp] theorem bodyAbort_kept  (q cid : Nat) (sub : Sub) (s : State) : (bodyAbort q cid sub s).rom = s.rom := by
  unfold bodyAbort
  (repeat' split) <;> simp

theorem execAbort_kept (q : Nat) (sub : Sub) (s : State) {nxt : State} : execAbort q sub s = .next nxt → nxt.rom = s.rom :=
  runBasut_kept fun q cid sub s => bodyAbort_kept  q cid sub s

@[simp] theorem bodyWarmReset_kept  (q cid : Nat) (sub : Sub) (s : State) : (bodyWarmReset q cid sub s).rom = s.rom := by
  unfold bodyWarmReset
  simp [rom_ite]

theorem execWarmReset_kept (q : Nat) (sub : Sub) (s : State) {nxt : State} : execWarmReset q sub s = .next nxt → nxt.rom = s.rom :=
  runBasut_kept fun q cid sub s => bodyWarmReset_kept  q cid sub s

@[simp] theorem bodyEvtBind_kept  (q cid : Nat) (sub : Sub) (s : State) : (bodyEvtBind q cid sub s).rom = s.rom := by
  unfold bodyEvtBind
  (repeat' split) <;> simp

theorem execEvtBind_kept (q : Nat) (sub : Sub) (s : State) {nxt : State} : execEvtBind q sub s = .next nxt → nxt.rom = s.rom :=
  runBasut_kept fun q cid sub s => bodyEvtBind_kept  q cid sub s

@[simp] theorem bodyEvtUnbind_kept  (q cid : Nat) (sub : Sub) (s : State) : (bodyEvtUnbind q cid sub s).rom = s.rom := by
  unfold bodyEvtUnbind
  simp [rom_ite]

theorem execEvtUnbind_kept (q : Nat) (sub : Sub) (s : State) {nxt : State} : execEvtUnbind q sub s = .next nxt → nxt.rom = s.rom :=
  runBasut_kept fun q cid sub s => bodyEvtUnbind_kept  q cid sub s

@[simp] theorem storeImage_kept (q : Nat) (cid : Nat) (target : Nat) (i : List Byte) (s : State) : (storeImage q cid target i s).rom = s.rom := by
  unfold storeImage
  simp [rom_ite]

@[simp] theorem bodyImageUpdate_kept (data : Option (List Byte)) (q : Nat) (cid : Nat) (sub : Sub) (s : State) : (bodyImageUpdate data q cid sub s).rom = s.rom := by
  unfold bodyImageUpdate
  grind [finish_kept, refuse_kept, storeImage_kept, succeed_kept]

theorem execImageUpdate_kept (q : Nat) (sub : Sub) (data : Option (List Byte)) (s : State) {nxt : State} : execImageUpdate q sub data s = .next nxt → nxt.rom = s.rom := by
  unfold execImageUpdate
  grind [act_kept, basut_kept, bodyImageUpdate_kept]

@[simp] theorem bodyAttest_kept  (q cid : Nat) (sub : Sub) (s : State) : (bodyAttest q cid sub s).rom = s.rom := by
  unfold bodyAttest
  simp [rom_ite]

theorem execAttest_kept (q : Nat) (sub : Sub) (s : State) {nxt : State} : execAttest q sub s = .next nxt → nxt.rom = s.rom :=
  runBasut_kept fun q cid sub s => bodyAttest_kept  q cid sub s

/-! ### TimeHost -/

@[simp] theorem bodyTimeGet_kept  (q cid : Nat) (sub : Sub) (s : State) : (bodyTimeGet q cid sub s).rom = s.rom := by
  unfold bodyTimeGet
  simp

theorem execTimeGet_kept (q : Nat) (sub : Sub) (s : State) {nxt : State} : execTimeGet q sub s = .next nxt → nxt.rom = s.rom :=
  runBasut_kept fun q cid sub s => bodyTimeGet_kept  q cid sub s

@[simp] theorem ref10Seen_kept (s : State) : (ref10Seen s).2.rom = s.rom := rfl
theorem ref10Seen_kept_of (s : State) {v0} {nxt : State} (h : ref10Seen s = (v0, nxt)) : nxt.rom = s.rom := snd_kept h (ref10Seen_kept s)

@[simp] theorem setSources_kept (l : List Nat) (s : State) : (setSources l s).rom = s.rom := by
  unfold setSources
  simp

@[simp] theorem applyTimeSource_kept  (sub : Sub) (s : State) : (applyTimeSource sub s).2.rom = s.rom := by
  unfold applyTimeSource
  simp [rom_ite, snd_ite]
theorem applyTimeSource_kept_of  (sub : Sub) (s : State) {v0} {nxt : State} (h : applyTimeSource sub s = (v0, nxt)) : nxt.rom = s.rom := snd_kept h (applyTimeSource_kept sub s)

theorem execTimeSource_kept (q : Nat) (sub : Sub) (s : State) {nxt : State} : execTimeSource q sub s = .next nxt → nxt.rom = s.rom :=
  runBasut_kept fun q cid sub s => capoBody_kept _ _ q cid sub s

@[simp] theorem applyServoConfig_kept  (sub : Sub) (s : State) : (applyServoConfig sub s).2.rom = s.rom := rfl
theorem applyServoConfig_kept_of  (sub : Sub) (s : State) {v0} {nxt : State} (h : applyServoConfig sub s = (v0, nxt)) : nxt.rom = s.rom := snd_kept h (applyServoConfig_kept sub s)

theorem execServoConfig_kept (q : Nat) (sub : Sub) (s : State) {nxt : State} : execServoConfig q sub s = .next nxt → nxt.rom = s.rom :=
  runBasut_kept fun q cid sub s => capoBody_kept _ _ q cid sub s

@[simp] theorem applyGptpConfig_kept  (sub : Sub) (s : State) : (applyGptpConfig sub s).2.rom = s.rom := by
  unfold applyGptpConfig
  simp [rom_ite, snd_ite]
theorem applyGptpConfig_kept_of  (sub : Sub) (s : State) {v0} {nxt : State} (h : applyGptpConfig sub s = (v0, nxt)) : nxt.rom = s.rom := snd_kept h (applyGptpConfig_kept sub s)

theorem execGptpConfig_kept (q : Nat) (sub : Sub) (s : State) {nxt : State} : execGptpConfig q sub s = .next nxt → nxt.rom = s.rom :=
  runBasut_kept fun q cid sub s => capoBody_kept _ _ q cid sub s

@[simp] theorem applyPpsConfig_kept  (sub : Sub) (s : State) : (applyPpsConfig sub s).2.rom = s.rom := rfl
theorem applyPpsConfig_kept_of  (sub : Sub) (s : State) {v0} {nxt : State} (h : applyPpsConfig sub s = (v0, nxt)) : nxt.rom = s.rom := snd_kept h (applyPpsConfig_kept sub s)

theorem execPpsConfig_kept (q : Nat) (sub : Sub) (s : State) {nxt : State} : execPpsConfig q sub s = .next nxt → nxt.rom = s.rom :=
  runBasut_kept fun q cid sub s => capoBody_kept _ _ q cid sub s

@[simp] theorem bodyPtmCorrelate_kept  (q cid : Nat) (sub : Sub) (s : State) : (bodyPtmCorrelate q cid sub s).rom = s.rom := by
  unfold bodyPtmCorrelate
  simp [rom_ite]

theorem execPtmCorrelate_kept (q : Nat) (sub : Sub) (s : State) {nxt : State} : execPtmCorrelate q sub s = .next nxt → nxt.rom = s.rom :=
  runBasut_kept fun q cid sub s => bodyPtmCorrelate_kept  q cid sub s

@[simp] theorem bodyTimeStatus_kept  (q cid : Nat) (sub : Sub) (s : State) : (bodyTimeStatus q cid sub s).rom = s.rom := by
  unfold bodyTimeStatus
  simp

theorem execTimeStatus_kept (q : Nat) (sub : Sub) (s : State) {nxt : State} : execTimeStatus q sub s = .next nxt → nxt.rom = s.rom :=
  runBasut_kept fun q cid sub s => bodyTimeStatus_kept  q cid sub s

/-! ### StrokeHost -/

@[simp] theorem bodyPlanLoad_kept (data : Option (List Byte)) (q cid : Nat) (sub : Sub) (s : State) : (bodyPlanLoad data q cid sub s).rom = s.rom := by
  unfold bodyPlanLoad
  grind [State.modStroke_kept, finish_kept, refuse_kept, succeed_kept, withData_kept]

theorem execPlanLoad_kept (q : Nat) (sub : Sub) (data : Option (List Byte)) (s : State) {nxt : State} : execPlanLoad q sub data s = .next nxt → nxt.rom = s.rom := by
  intro h
  exact act_kept (by simp [basut_kept, bodyPlanLoad_kept]) h

@[simp] theorem applyPlanActivate_kept  (sub : Sub) (s : State) : (applyPlanActivate sub s).2.rom = s.rom := by
  unfold applyPlanActivate
  grind [State.modStroke_kept, applied_kept, notApplied_kept, → applied_kept_of, → notApplied_kept_of]
theorem applyPlanActivate_kept_of  (sub : Sub) (s : State) {v0} {nxt : State} (h : applyPlanActivate sub s = (v0, nxt)) : nxt.rom = s.rom := snd_kept h (applyPlanActivate_kept sub s)

theorem execPlanActivate_kept (q : Nat) (sub : Sub) (s : State) {nxt : State} : execPlanActivate q sub s = .next nxt → nxt.rom = s.rom :=
  runBasut_kept fun q cid sub s => capoBody_kept _ _ q cid sub s

@[simp] theorem powerUp_kept (n : Nat) (s : State) : (powerUp n s).rom = s.rom := by
  unfold powerUp
  grind [State.modStroke_kept, State.setEngine_kept, foldl_kept, foldl_kept_snd]

@[simp] theorem removeCourse_kept (n : Nat) (s : State) : (removeCourse n s).rom = s.rom := by
  unfold removeCourse
  simp [rom_ite]

@[simp] theorem diagChoice_kept (s : State) : (diagChoice s).rom = s.rom := rfl

@[simp] theorem setProfile_kept (p : Nat) (s : State) : (setProfile p s).rom = s.rom := by
  unfold setProfile
  simp [rom_ite, foldl_kept]

@[simp] theorem applyProfileSet_kept  (sub : Sub) (s : State) : (applyProfileSet sub s).2.rom = s.rom := by
  unfold applyProfileSet
  simp [rom_ite, snd_ite]
theorem applyProfileSet_kept_of  (sub : Sub) (s : State) {v0} {nxt : State} (h : applyProfileSet sub s = (v0, nxt)) : nxt.rom = s.rom := snd_kept h (applyProfileSet_kept sub s)

theorem execProfileSet_kept (q : Nat) (sub : Sub) (s : State) {nxt : State} : execProfileSet q sub s = .next nxt → nxt.rom = s.rom :=
  runBasut_kept fun q cid sub s => capoBody_kept _ _ q cid sub s

@[simp] theorem applyStrokeSet_kept  (sub : Sub) (s : State) : (applyStrokeSet sub s).2.rom = s.rom := by
  unfold applyStrokeSet
  simp [rom_ite, snd_ite]
theorem applyStrokeSet_kept_of  (sub : Sub) (s : State) {v0} {nxt : State} (h : applyStrokeSet sub s = (v0, nxt)) : nxt.rom = s.rom := snd_kept h (applyStrokeSet_kept sub s)

theorem execStrokeSet_kept (q : Nat) (sub : Sub) (s : State) {nxt : State} : execStrokeSet q sub s = .next nxt → nxt.rom = s.rom :=
  runBasut_kept fun q cid sub s => capoBody_kept _ _ q cid sub s

@[simp] theorem overloadCause_kept (s : State) : (overloadCause s).rom = s.rom := by
  unfold overloadCause
  simp

@[simp] theorem applyOverrunPolicy_kept  (sub : Sub) (s : State) : (applyOverrunPolicy sub s).2.rom = s.rom := by
  unfold applyOverrunPolicy
  simp
theorem applyOverrunPolicy_kept_of  (sub : Sub) (s : State) {v0} {nxt : State} (h : applyOverrunPolicy sub s = (v0, nxt)) : nxt.rom = s.rom := snd_kept h (applyOverrunPolicy_kept sub s)

theorem execOverrunPolicy_kept (q : Nat) (sub : Sub) (s : State) {nxt : State} : execOverrunPolicy q sub s = .next nxt → nxt.rom = s.rom :=
  runBasut_kept fun q cid sub s => capoBody_kept _ _ q cid sub s

@[simp] theorem bodyStrokeStats_kept  (q cid : Nat) (sub : Sub) (s : State) : (bodyStrokeStats q cid sub s).rom = s.rom := by
  unfold bodyStrokeStats
  simp

theorem execStrokeStats_kept (q : Nat) (sub : Sub) (s : State) {nxt : State} : execStrokeStats q sub s = .next nxt → nxt.rom = s.rom :=
  runBasut_kept fun q cid sub s => bodyStrokeStats_kept  q cid sub s

@[simp] theorem addJob_kept (q cid : Nat) (sub : Sub) (desc : List Byte) (s : State) : (addJob q cid sub desc s).rom = s.rom := by
  unfold addJob
  simp [rom_ite]

@[simp] theorem bodyJobSubmit_kept  (q cid : Nat) (sub : Sub) (s : State) : (bodyJobSubmit q cid sub s).rom = s.rom := by
  unfold bodyJobSubmit
  grind [addJob_kept, raiseFault_kept, read40_kept, refuse_kept, → read40_kept_of]

theorem execJobSubmit_kept (q : Nat) (sub : Sub) (s : State) {nxt : State} : execJobSubmit q sub s = .next nxt → nxt.rom = s.rom :=
  runBasut_kept fun q cid sub s => bodyJobSubmit_kept  q cid sub s

@[simp] theorem bindStream_kept (id : Nat) (ring : Nat × Nat × Nat) (owner : Nat) (s : State) : (bindStream id ring owner s).2.rom = s.rom := by
  unfold bindStream
  simp [rom_ite]
theorem bindStream_kept_of (id : Nat) (ring : Nat × Nat × Nat) (owner : Nat) (s : State) {v0} {nxt : State} (h : bindStream id ring owner s = (v0, nxt)) : nxt.rom = s.rom := snd_kept h (bindStream_kept id ring owner s)

@[simp] theorem applyStreamBind_kept (q : Nat) (sub : Sub) (s : State) : (applyStreamBind q sub s).2.rom = s.rom := by
  unfold applyStreamBind
  (repeat' split) <;> simp
theorem applyStreamBind_kept_of (q : Nat) (sub : Sub) (s : State) {v0} {nxt : State} (h : applyStreamBind q sub s = (v0, nxt)) : nxt.rom = s.rom := snd_kept h (applyStreamBind_kept q sub s)

theorem execStreamBind_kept (q : Nat) (sub : Sub) (s : State) {nxt : State} : execStreamBind q sub s = .next nxt → nxt.rom = s.rom :=
  runBasut_kept fun q cid sub s => capoBody_kept _ _ q cid sub s

@[simp] theorem applyUcodeLoad_kept (data : Option (List Byte)) (sub : Sub) (s : State) : (applyUcodeLoad data sub s).2.rom = s.rom := by
  unfold applyUcodeLoad
  grind [State.modBoot_kept, State.setEngine_kept, notApplied_kept, setReady_kept, foldl_kept, foldl_kept_snd, → notApplied_kept_of]
theorem applyUcodeLoad_kept_of (data : Option (List Byte)) (sub : Sub) (s : State) {v0} {nxt : State} (h : applyUcodeLoad data sub s = (v0, nxt)) : nxt.rom = s.rom := snd_kept h (applyUcodeLoad_kept data sub s)

@[simp] theorem bodyUcodeLoad_kept (cmd : Instr) (data : Option (List Byte)) (q : Nat) (cid : Nat) (sub : Sub) (s : State) : (bodyUcodeLoad cmd data q cid sub s).rom = s.rom := by
  unfold bodyUcodeLoad
  (repeat' split) <;> simp

theorem execUcodeLoad_kept (q : Nat) (sub : Sub) (data : Option (List Byte)) (s : State) {nxt : State} : execUcodeLoad q sub data s = .next nxt → nxt.rom = s.rom := by
  unfold execUcodeLoad
  grind [act_kept, basut_kept, bodyUcodeLoad_kept]

@[simp] theorem bodyEngineReset_kept  (q cid : Nat) (sub : Sub) (s : State) : (bodyEngineReset q cid sub s).rom = s.rom := by
  unfold bodyEngineReset
  simp [rom_ite]

theorem execEngineReset_kept (q : Nat) (sub : Sub) (s : State) {nxt : State} : execEngineReset q sub s = .next nxt → nxt.rom = s.rom :=
  runBasut_kept fun q cid sub s => bodyEngineReset_kept  q cid sub s

/-! ### LogHost -/

@[simp] theorem emptyRing_kept (s : State) : (emptyRing s).rom = s.rom := by
  unfold emptyRing
  grind [State.modLgs_kept, addGap_kept, foldl_kept, foldl_kept_snd]

@[simp] theorem setLgsMode_kept (mode mib : Nat) (sub : Sub) (s : State) : (setLgsMode mode mib sub s).rom = s.rom := by
  unfold setLgsMode
  simp [rom_ite]

@[simp] theorem applyLgsMode_kept  (sub : Sub) (s : State) : (applyLgsMode sub s).2.rom = s.rom := by
  unfold applyLgsMode
  simp [rom_ite, snd_ite]
theorem applyLgsMode_kept_of  (sub : Sub) (s : State) {v0} {nxt : State} (h : applyLgsMode sub s = (v0, nxt)) : nxt.rom = s.rom := snd_kept h (applyLgsMode_kept sub s)

theorem execLgsMode_kept (q : Nat) (sub : Sub) (s : State) {nxt : State} : execLgsMode q sub s = .next nxt → nxt.rom = s.rom :=
  runBasut_kept fun q cid sub s => capoBody_kept _ _ q cid sub s

@[simp] theorem bodyLgsTrigger_kept  (q cid : Nat) (sub : Sub) (s : State) : (bodyLgsTrigger q cid sub s).rom = s.rom := by
  unfold bodyLgsTrigger
  simp [rom_ite]

theorem execLgsTrigger_kept (q : Nat) (sub : Sub) (s : State) {nxt : State} : execLgsTrigger q sub s = .next nxt → nxt.rom = s.rom :=
  runBasut_kept fun q cid sub s => bodyLgsTrigger_kept  q cid sub s

@[simp] theorem readLost_kept (a : ReadAns) (s : State) : (readLost a s).rom = s.rom := by
  unfold readLost
  simp [rom_ite]

@[simp] theorem bodyLgsRead_kept  (q cid : Nat) (sub : Sub) (s : State) : (bodyLgsRead q cid sub s).rom = s.rom := by
  unfold bodyLgsRead
  simp [rom_ite]

theorem execLgsRead_kept (q : Nat) (sub : Sub) (s : State) {nxt : State} : execLgsRead q sub s = .next nxt → nxt.rom = s.rom :=
  runBasut_kept fun q cid sub s => bodyLgsRead_kept  q cid sub s

@[simp] theorem applyLgsClass_kept  (sub : Sub) (s : State) : (applyLgsClass sub s).2.rom = s.rom := by
  unfold applyLgsClass
  simp
theorem applyLgsClass_kept_of  (sub : Sub) (s : State) {v0} {nxt : State} (h : applyLgsClass sub s = (v0, nxt)) : nxt.rom = s.rom := snd_kept h (applyLgsClass_kept sub s)

theorem execLgsClass_kept (q : Nat) (sub : Sub) (s : State) {nxt : State} : execLgsClass q sub s = .next nxt → nxt.rom = s.rom :=
  runBasut_kept fun q cid sub s => capoBody_kept _ _ q cid sub s

@[simp] theorem bodyLgsLife_kept  (q cid : Nat) (sub : Sub) (s : State) : (bodyLgsLife q cid sub s).rom = s.rom := by
  unfold bodyLgsLife
  simp [rom_ite]

theorem execLgsLife_kept (q : Nat) (sub : Sub) (s : State) {nxt : State} : execLgsLife q sub s = .next nxt → nxt.rom = s.rom :=
  runBasut_kept fun q cid sub s => bodyLgsLife_kept  q cid sub s

@[simp] theorem bodyLgsSeal_kept  (q cid : Nat) (sub : Sub) (s : State) : (bodyLgsSeal q cid sub s).rom = s.rom := by
  unfold bodyLgsSeal
  simp

theorem execLgsSeal_kept (q : Nat) (sub : Sub) (s : State) {nxt : State} : execLgsSeal q sub s = .next nxt → nxt.rom = s.rom :=
  runBasut_kept fun q cid sub s => bodyLgsSeal_kept  q cid sub s

@[simp] theorem bodyFjExport_kept  (q cid : Nat) (sub : Sub) (s : State) : (bodyFjExport q cid sub s).rom = s.rom := by
  unfold bodyFjExport
  simp

theorem execFjExport_kept (q : Nat) (sub : Sub) (s : State) {nxt : State} : execFjExport q sub s = .next nxt → nxt.rom = s.rom :=
  runBasut_kept fun q cid sub s => bodyFjExport_kept  q cid sub s

@[simp] theorem bodyFjRead_kept  (q cid : Nat) (sub : Sub) (s : State) : (bodyFjRead q cid sub s).rom = s.rom := by
  unfold bodyFjRead
  simp [rom_ite]

theorem execFjRead_kept (q : Nat) (sub : Sub) (s : State) {nxt : State} : execFjRead q sub s = .next nxt → nxt.rom = s.rom :=
  runBasut_kept fun q cid sub s => bodyFjRead_kept  q cid sub s

/-! ### PortHost -/

@[simp] theorem bodyPortConfig_kept (cmd : Instr) (data : Option (List Byte)) (q cid : Nat) (sub : Sub) (s : State) : (bodyPortConfig cmd data q cid sub s).rom = s.rom := by
  unfold bodyPortConfig
  grind [capoBody_kept, refuse_kept, withData_kept]

@[simp] theorem applyPortConfig_kept (data : Option (List Byte)) (sub : Sub) (s : State) : (applyPortConfig data sub s).2.rom = s.rom := rfl
theorem applyPortConfig_kept_of (data : Option (List Byte)) (sub : Sub) (s : State) {v0} {nxt : State} (h : applyPortConfig data sub s = (v0, nxt)) : nxt.rom = s.rom := snd_kept h (applyPortConfig_kept data sub s)

theorem execPortConfig_kept (q : Nat) (sub : Sub) (data : Option (List Byte)) (s : State) {nxt : State} : execPortConfig q sub data s = .next nxt → nxt.rom = s.rom := by
  intro h
  exact act_kept (by simp [basut_kept, bodyPortConfig_kept]) h

@[simp] theorem setSchedule_kept (t safe phase period width : Nat) (s : State) : (setSchedule t safe phase period width s).rom = s.rom := by
  unfold setSchedule
  simp [rom_ite]

@[simp] theorem applyTrigSchedule_kept  (sub : Sub) (s : State) : (applyTrigSchedule sub s).2.rom = s.rom := by
  unfold applyTrigSchedule
  simp
theorem applyTrigSchedule_kept_of  (sub : Sub) (s : State) {v0} {nxt : State} (h : applyTrigSchedule sub s = (v0, nxt)) : nxt.rom = s.rom := snd_kept h (applyTrigSchedule_kept sub s)

theorem execTrigSchedule_kept (q : Nat) (sub : Sub) (s : State) {nxt : State} : execTrigSchedule q sub s = .next nxt → nxt.rom = s.rom :=
  runBasut_kept fun q cid sub s => capoBody_kept _ _ q cid sub s

@[simp] theorem applyIngressClass_kept  (sub : Sub) (s : State) : (applyIngressClass sub s).2.rom = s.rom := rfl
theorem applyIngressClass_kept_of  (sub : Sub) (s : State) {v0} {nxt : State} (h : applyIngressClass sub s = (v0, nxt)) : nxt.rom = s.rom := snd_kept h (applyIngressClass_kept sub s)

theorem execIngressClass_kept (q : Nat) (sub : Sub) (s : State) {nxt : State} : execIngressClass q sub s = .next nxt → nxt.rom = s.rom :=
  runBasut_kept fun q cid sub s => capoBody_kept _ _ q cid sub s

@[simp] theorem bodyLidarRules_kept (cmd : Instr) (data : Option (List Byte)) (q cid : Nat) (sub : Sub) (s : State) : (bodyLidarRules cmd data q cid sub s).rom = s.rom := by
  unfold bodyLidarRules
  grind [capoBody_kept, refuse_kept, withData_kept]

@[simp] theorem applyLidarRules_kept (data : Option (List Byte)) (sub : Sub) (s : State) : (applyLidarRules data sub s).2.rom = s.rom := rfl
theorem applyLidarRules_kept_of (data : Option (List Byte)) (sub : Sub) (s : State) {v0} {nxt : State} (h : applyLidarRules data sub s = (v0, nxt)) : nxt.rom = s.rom := snd_kept h (applyLidarRules_kept data sub s)

theorem execLidarRules_kept (q : Nat) (sub : Sub) (data : Option (List Byte)) (s : State) {nxt : State} : execLidarRules q sub data s = .next nxt → nxt.rom = s.rom := by
  intro h
  exact act_kept (by simp [basut_kept, bodyLidarRules_kept]) h

@[simp] theorem bodyPortStatus_kept  (q cid : Nat) (sub : Sub) (s : State) : (bodyPortStatus q cid sub s).rom = s.rom := by
  unfold bodyPortStatus
  simp [rom_ite]

theorem execPortStatus_kept (q : Nat) (sub : Sub) (s : State) {nxt : State} : execPortStatus q sub s = .next nxt → nxt.rom = s.rom :=
  runBasut_kept fun q cid sub s => bodyPortStatus_kept  q cid sub s

@[simp] theorem bodySenConfig_kept (cmd : Instr) (data : Option (List Byte)) (q cid : Nat) (sub : Sub) (s : State) : (bodySenConfig cmd data q cid sub s).rom = s.rom := by
  unfold bodySenConfig
  grind [capoBody_kept, refuse_kept, withData_kept]

@[simp] theorem applySenConfig_kept (data : Option (List Byte)) (sub : Sub) (s : State) : (applySenConfig data sub s).2.rom = s.rom := by
  unfold applySenConfig
  simp [foldl_kept]
theorem applySenConfig_kept_of (data : Option (List Byte)) (sub : Sub) (s : State) {v0} {nxt : State} (h : applySenConfig data sub s = (v0, nxt)) : nxt.rom = s.rom := snd_kept h (applySenConfig_kept data sub s)

theorem execSenConfig_kept (q : Nat) (sub : Sub) (data : Option (List Byte)) (s : State) {nxt : State} : execSenConfig q sub data s = .next nxt → nxt.rom = s.rom := by
  intro h
  exact act_kept (by simp [basut_kept, bodySenConfig_kept]) h

@[simp] theorem bodyTmrConfig_kept (cmd : Instr) (data : Option (List Byte)) (q cid : Nat) (sub : Sub) (s : State) : (bodyTmrConfig cmd data q cid sub s).rom = s.rom := by
  unfold bodyTmrConfig
  grind [capoBody_kept, refuse_kept, withData_kept]

@[simp] theorem loadTimer_kept (t : Nat) (d : List Byte) (s : State) : (loadTimer t d s).rom = s.rom := by
  unfold loadTimer
  grind [armCompare_kept, writeCount_kept, writeTimer_kept, foldl_kept, foldl_kept_snd]

@[simp] theorem applyTmrConfig_kept (data : Option (List Byte)) (sub : Sub) (s : State) : (applyTmrConfig data sub s).2.rom = s.rom := by
  unfold applyTmrConfig
  simp
theorem applyTmrConfig_kept_of (data : Option (List Byte)) (sub : Sub) (s : State) {v0} {nxt : State} (h : applyTmrConfig data sub s = (v0, nxt)) : nxt.rom = s.rom := snd_kept h (applyTmrConfig_kept data sub s)

theorem execTmrConfig_kept (q : Nat) (sub : Sub) (data : Option (List Byte)) (s : State) {nxt : State} : execTmrConfig q sub data s = .next nxt → nxt.rom = s.rom := by
  intro h
  exact act_kept (by simp [basut_kept, bodyTmrConfig_kept]) h

@[simp] theorem applyTmrStart_kept  (sub : Sub) (s : State) : (applyTmrStart sub s).2.rom = s.rom := by
  unfold applyTmrStart
  simp [rom_ite, foldl_kept]
theorem applyTmrStart_kept_of  (sub : Sub) (s : State) {v0} {nxt : State} (h : applyTmrStart sub s = (v0, nxt)) : nxt.rom = s.rom := snd_kept h (applyTmrStart_kept sub s)

theorem execTmrStart_kept (q : Nat) (sub : Sub) (s : State) {nxt : State} : execTmrStart q sub s = .next nxt → nxt.rom = s.rom :=
  runBasut_kept fun q cid sub s => capoBody_kept _ _ q cid sub s

/-! ### HealthHost -/

@[simp] theorem bodyFcuSeverity_kept  (q cid : Nat) (sub : Sub) (s : State) : (bodyFcuSeverity q cid sub s).rom = s.rom := by
  unfold bodyFcuSeverity
  simp [rom_ite]

theorem execFcuSeverity_kept (q : Nat) (sub : Sub) (s : State) {nxt : State} : execFcuSeverity q sub s = .next nxt → nxt.rom = s.rom :=
  runBasut_kept fun q cid sub s => bodyFcuSeverity_kept  q cid sub s

@[simp] theorem bodyFcuClear_kept  (q cid : Nat) (sub : Sub) (s : State) : (bodyFcuClear q cid sub s).rom = s.rom := by
  unfold bodyFcuClear
  simp [rom_ite]

theorem execFcuClear_kept (q : Nat) (sub : Sub) (s : State) {nxt : State} : execFcuClear q sub s = .next nxt → nxt.rom = s.rom :=
  runBasut_kept fun q cid sub s => bodyFcuClear_kept  q cid sub s

@[simp] theorem injectMemory_kept (checker id mask q cid : Nat) (s : State) : (injectMemory checker id mask q cid s).rom = s.rom := by
  unfold injectMemory
  (repeat' split) <;> simp

@[simp] theorem bodyFcuInject_kept  (q cid : Nat) (sub : Sub) (s : State) : (bodyFcuInject q cid sub s).rom = s.rom := by
  unfold bodyFcuInject
  grind [asInjected_kept, injectMemory_kept, pbxMismatch_kept, raiseFault_kept, refuse_kept, succeed_kept]

theorem execFcuInject_kept (q : Nat) (sub : Sub) (s : State) {nxt : State} : execFcuInject q sub s = .next nxt → nxt.rom = s.rom :=
  runBasut_kept fun q cid sub s => bodyFcuInject_kept  q cid sub s

@[simp] theorem tuned_kept (i : Nat) (s : State) : (tuned i s).rom = s.rom := by
  unfold tuned
  simp [rom_ite]

@[simp] theorem applyTuneSet_kept  (sub : Sub) (s : State) : (applyTuneSet sub s).2.rom = s.rom := by
  unfold applyTuneSet
  simp [rom_ite, snd_ite]
theorem applyTuneSet_kept_of  (sub : Sub) (s : State) {v0} {nxt : State} (h : applyTuneSet sub s = (v0, nxt)) : nxt.rom = s.rom := snd_kept h (applyTuneSet_kept sub s)

theorem execTuneSet_kept (q : Nat) (sub : Sub) (s : State) {nxt : State} : execTuneSet q sub s = .next nxt → nxt.rom = s.rom :=
  runBasut_kept fun q cid sub s => capoBody_kept _ _ q cid sub s

@[simp] theorem applyTuneClear_kept  (sub : Sub) (s : State) : (applyTuneClear sub s).2.rom = s.rom := by
  unfold applyTuneClear
  grind [State.modEm_kept, applied_kept, notApplied_kept, tuned_kept, → applied_kept_of, → notApplied_kept_of]
theorem applyTuneClear_kept_of  (sub : Sub) (s : State) {v0} {nxt : State} (h : applyTuneClear sub s = (v0, nxt)) : nxt.rom = s.rom := snd_kept h (applyTuneClear_kept sub s)

theorem execTuneClear_kept (q : Nat) (sub : Sub) (s : State) {nxt : State} : execTuneClear q sub s = .next nxt → nxt.rom = s.rom :=
  runBasut_kept fun q cid sub s => capoBody_kept _ _ q cid sub s

@[simp] theorem bodyHealthRead_kept  (q cid : Nat) (sub : Sub) (s : State) : (bodyHealthRead q cid sub s).rom = s.rom := by
  unfold bodyHealthRead
  simp

theorem execHealthRead_kept (q : Nat) (sub : Sub) (s : State) {nxt : State} : execHealthRead q sub s = .next nxt → nxt.rom = s.rom :=
  runBasut_kept fun q cid sub s => bodyHealthRead_kept  q cid sub s

@[simp] theorem capoOf_kept (r : SpareAns × State) : (capoOf r).2.rom = r.2.rom := by
  unfold capoOf
  split <;> rfl

@[simp] theorem applyRetire_kept (q cid : Nat) (sub : Sub) (s : State) : (applyRetire q cid sub s).2.rom = s.rom := by
  unfold applyRetire
  simp
theorem applyRetire_kept_of (q cid : Nat) (sub : Sub) (s : State) {v0} {nxt : State} (h : applyRetire q cid sub s = (v0, nxt)) : nxt.rom = s.rom := snd_kept h (applyRetire_kept q cid sub s)

theorem execRetire_kept (q : Nat) (sub : Sub) (s : State) {nxt : State} : execRetire q sub s = .next nxt → nxt.rom = s.rom :=
  runBasut_kept fun q cid sub s => capoBody_kept _ _ q cid sub s

@[simp] theorem applyReinstate_kept (q cid : Nat) (sub : Sub) (s : State) : (applyReinstate q cid sub s).2.rom = s.rom := by
  unfold applyReinstate
  simp
theorem applyReinstate_kept_of (q cid : Nat) (sub : Sub) (s : State) {v0} {nxt : State} (h : applyReinstate q cid sub s = (v0, nxt)) : nxt.rom = s.rom := snd_kept h (applyReinstate_kept q cid sub s)

theorem execReinstate_kept (q : Nat) (sub : Sub) (s : State) {nxt : State} : execReinstate q sub s = .next nxt → nxt.rom = s.rom :=
  runBasut_kept fun q cid sub s => capoBody_kept _ _ q cid sub s

@[simp] theorem setPolicy_kept (cls pol : Nat) (s : State) : (setPolicy cls pol s).rom = s.rom := by
  unfold setPolicy
  simp [rom_ite]

@[simp] theorem bodySparePolicy_kept  (q cid : Nat) (sub : Sub) (s : State) : (bodySparePolicy q cid sub s).rom = s.rom := by
  unfold bodySparePolicy
  simp [rom_ite]

theorem execSparePolicy_kept (q : Nat) (sub : Sub) (s : State) {nxt : State} : execSparePolicy q sub s = .next nxt → nxt.rom = s.rom :=
  runBasut_kept fun q cid sub s => bodySparePolicy_kept  q cid sub s

@[simp] theorem bodyCubeStatus_kept  (q cid : Nat) (sub : Sub) (s : State) : (bodyCubeStatus q cid sub s).rom = s.rom := by
  unfold bodyCubeStatus
  simp [rom_ite]

theorem execCubeStatus_kept (q : Nat) (sub : Sub) (s : State) {nxt : State} : execCubeStatus q sub s = .next nxt → nxt.rom = s.rom :=
  runBasut_kept fun q cid sub s => bodyCubeStatus_kept  q cid sub s

@[simp] theorem applyLeadSet_kept  (sub : Sub) (s : State) : (applyLeadSet sub s).2.rom = s.rom := by
  unfold applyLeadSet
  simp [rom_ite, snd_ite]
theorem applyLeadSet_kept_of  (sub : Sub) (s : State) {v0} {nxt : State} (h : applyLeadSet sub s = (v0, nxt)) : nxt.rom = s.rom := snd_kept h (applyLeadSet_kept sub s)

theorem execLeadSet_kept (q : Nat) (sub : Sub) (s : State) {nxt : State} : execLeadSet q sub s = .next nxt → nxt.rom = s.rom :=
  runBasut_kept fun q cid sub s => capoBody_kept _ _ q cid sub s

@[simp] theorem applyRemoteWindow_kept  (sub : Sub) (s : State) : (applyRemoteWindow sub s).2.rom = s.rom := rfl
theorem applyRemoteWindow_kept_of  (sub : Sub) (s : State) {v0} {nxt : State} (h : applyRemoteWindow sub s = (v0, nxt)) : nxt.rom = s.rom := snd_kept h (applyRemoteWindow_kept sub s)

theorem execRemoteWindow_kept (q : Nat) (sub : Sub) (s : State) {nxt : State} : execRemoteWindow q sub s = .next nxt → nxt.rom = s.rom :=
  runBasut_kept fun q cid sub s => capoBody_kept _ _ q cid sub s

/-! ### Capo -/

@[simp] theorem applyItem_kept (i : CapoItem) (s : State) : (applyItem i s).2.rom = s.rom := by
  unfold applyItem
  generalize i.cmd = c
  cases c <;> first
    | exact applied_kept s
    | simp

@[simp] theorem capoOne_kept (n : Nat) (i : CapoItem) (s : State) : (capoOne n i s).2.rom = s.rom := by
  unfold capoOne
  simp [rom_ite, snd_ite]
theorem capoOne_kept_of (n : Nat) (i : CapoItem) (s : State) {v0} {nxt : State} (h : capoOne n i s = (v0, nxt)) : nxt.rom = s.rom := snd_kept h (capoOne_kept n i s)

@[simp] theorem capoRun_kept (n : Nat) (first : Bool) (l : List CapoItem) (done : List CapoDone) (keep : List CapoItem) (s : State) :
    (capoRun n first l done keep s).2.2.rom = s.rom := by
  induction l generalizing done keep s with
  | nil => rfl
  | cons i l ih =>
    unfold capoRun
    have h : (if i.due n first then capoOne n i s else (none, s)).2.rom = s.rom := by split <;> simp
    dsimp only
    split <;> exact (ih ..).trans h

@[simp] theorem capo_kept (n : Nat) (first : Bool) (s : State) : (capo n first s).rom = s.rom := by
  unfold capo
  refine (foldl_kept (fun s d => finishAt_kept ..) _ _).trans ((State.modBasut_kept ..).trans ((capoRun_kept ..).trans (State.modBasut_kept ..)))

@[simp] theorem bootProfile_kept (service : Bool) (s : State) : (bootProfile service s).rom = s.rom := by
  unfold bootProfile
  grind [State.modBoot_kept, setProfile_kept]

@[simp] theorem planCheck_kept (s : State) : (planCheck s).rom = s.rom := by
  unfold planCheck
  (repeat' split) <;> simp

@[simp] theorem ownBlock_kept (w : SnapWait) (data : List Byte) (vt : W64) (s : State) : (ownBlock w data vt s).rom = s.rom := rfl

@[simp] theorem serveSnap_kept (w : SnapWait) (n : Nat) (vt : W64) (s : State) : (serveSnap w n vt s).rom = s.rom := by
  unfold serveSnap
  simp [rom_ite]

@[simp] theorem strokeCounts_kept (s : State) : (strokeCounts s).rom = s.rom := rfl

@[simp] theorem strokeCapture_kept (n : Nat) (vt : W64) (s : State) : (strokeCapture n vt s).rom = s.rom := by
  unfold strokeCapture
  simp [foldl_kept]

@[simp] theorem endStroke_kept (powerMw : Nat) (s : State) : (endStroke powerMw s).rom = s.rom := by
  unfold endStroke
  simp

@[simp] theorem stepStroke_kept (s : State) : (stepStroke s).rom = s.rom := by
  unfold stepStroke
  simp [rom_ite]

@[simp] theorem openStroke_kept (first : Bool) (s : State) : (openStroke first s).rom = s.rom := by
  unfold openStroke
  simp

@[simp] theorem strokeBoundary_kept (powerMw : Nat) (s : State) : (strokeBoundary powerMw s).rom = s.rom := by
  unfold strokeBoundary
  simp

theorem execStrokeBoundary_kept (powerMw : Nat) (s : State) {nxt : State} : execStrokeBoundary powerMw s = .next nxt → nxt.rom = s.rom := by
  intro h
  exact act_kept (by simp []) h

@[simp] theorem strokeZero_kept (s : State) : (strokeZero s).rom = s.rom := by
  unfold strokeZero
  simp

theorem execEngineInitComplete_kept (fail : List Eng) (s : State) {nxt : State} : execEngineInitComplete fail s = .next nxt → nxt.rom = s.rom := by
  intro h
  exact act_kept (by simp []) h

@[simp] theorem fretBoundary_kept (s : State) : (fretBoundary s).rom = s.rom := by
  unfold fretBoundary
  simp [rom_ite]

theorem execFretBoundary_kept (s : State) {nxt : State} : execFretBoundary s = .next nxt → nxt.rom = s.rom := by
  intro h
  exact act_kept (by simp) h

theorem execBudgetExpiry_kept (course slot : Nat) (s : State) {nxt : State} : execBudgetExpiry course slot s = .next nxt → nxt.rom = s.rom := by
  intro h
  exact act_kept (by simp) h

theorem execCoursePowerDown_kept (n : Nat) (s : State) {nxt : State} : execCoursePowerDown n s = .next nxt → nxt.rom = s.rom := by
  intro h
  exact act_kept (by simp) h

/-! ### Step -/

@[simp] theorem idle_kept (s : State) : (idle s).rom = s.rom := by
  unfold idle
  simp [rom_ite]

end Sys2Proof.Machine
end

