-- ==== Sys2Proof/Laws/Memory.lean ====
section
/-! SUPPORT. Memories: read after write, and that every memory operation keeps the canonical form. -/
namespace Sys2Proof.Machine

theorem memWf_tail {p : Nat × Byte} {m : Mem} (h : memWf (p :: m) = true) : memWf m = true := by
  obtain ⟨k, v⟩ := p
  cases m with
  | nil => rfl
  | cons q m => obtain ⟨j, w⟩ := q; simp [memWf] at h; exact h.2

theorem memWf_head {k : Nat} {v : Byte} {m : Mem} (h : memWf ((k, v) :: m) = true) : v ≠ 0 ∧ ∀ p ∈ m.head?, k < p.1 := by
  cases m with
  | nil => simpa [memWf] using h
  | cons q m => obtain ⟨j, w⟩ := q; simp [memWf] at h; exact ⟨h.1.2, by simpa using h.1.1⟩

theorem memWf_cons {k : Nat} {v : Byte} {m : Mem} (h : memWf m = true) (hv : v ≠ 0) (hk : ∀ p ∈ m.head?, k < p.1) :
    memWf ((k, v) :: m) = true := by
  cases m with
  | nil => simpa [memWf] using hv
  | cons q m => obtain ⟨j, w⟩ := q; simp at hk; simp [memWf, hk, h]; simpa using hv

/-- In canonical form nothing is listed below the first address. -/
theorem memRead_below {m : Mem} (h : memWf m = true) {a : Nat} (ha : ∀ p ∈ m.head?, a < p.1) : memRead m a = 0 := by
  induction m with
  | nil => rfl
  | cons p m ih =>
    obtain ⟨k, v⟩ := p
    simp at ha
    have hh := (memWf_head h).2
    have : k ≠ a := by omega
    simp only [memRead, beq_iff_eq, this, if_false]
    refine ih (memWf_tail h) fun q hq => ?_
    have := hh q hq
    omega

theorem memRead_memWrite_ne (m : Mem) {a a' : Nat} (b : Byte) (h : a' ≠ a) : memRead (memWrite m a b) a' = memRead m a' := by
  induction m with
  | nil =>
    unfold memWrite
    split <;> simp [memRead, h.symm]
  | cons p m ih =>
    obtain ⟨k, v⟩ := p
    unfold memWrite
    split
    · split
      · rfl
      · simp [memRead, h.symm]
    · split
      · rename_i e
        have hk : k ≠ a' := by
          have : a = k := by simpa using e
          omega
        split <;> simp [memRead, hk]
      · simp [memRead, ih]

theorem memRead_memWrite_same {m : Mem} (h : memWf m = true) (a : Nat) (b : Byte) : memRead (memWrite m a b) a = b := by
  induction m with
  | nil =>
    unfold memWrite
    split
    · have hb : b = 0 := by simpa using ‹(b == 0) = true›
      rw [hb]
      rfl
    · simp [memRead]
  | cons p m ih =>
    obtain ⟨k, v⟩ := p
    unfold memWrite
    split
    · rename_i hlt
      split
      · rename_i hb
        have : b = 0 := by simpa using hb
        rw [this]
        exact memRead_below h (by simpa using hlt)
      · simp [memRead]
    · split
      · rename_i e
        have e : a = k := by simpa using e
        split
        · rename_i hb
          have hb : b = 0 := by simpa using hb
          rw [hb]
          exact memRead_below (memWf_tail h) (by rw [e]; exact (memWf_head h).2)
        · simp [memRead, e]
      · rename_i e
        have ne : a ≠ k := by simpa using e
        simp [memRead, ne.symm, ih (memWf_tail h)]

theorem memWrite_head (m : Mem) (a : Nat) (b : Byte) (k : Nat) (ha : k < a) (hk : ∀ p ∈ m.head?, k < p.1)
    (h : memWf m = true) : ∀ p ∈ (memWrite m a b).head?, k < p.1 := by
  cases m with
  | nil =>
    unfold memWrite
    split <;> simp [ha]
  | cons q m =>
    obtain ⟨j, w⟩ := q
    simp at hk
    unfold memWrite
    split
    · split
      · simpa using hk
      · simpa using ha
    · split
      · split
        · intro p hp
          have := (memWf_head h).2 p hp
          omega
        · simpa using hk
      · simpa using hk

theorem memWf_memWrite (m : Mem) (a : Nat) (b : Byte) (h : memWf m = true) : memWf (memWrite m a b) = true := by
  induction m with
  | nil =>
    unfold memWrite
    split
    · rfl
    · simpa [memWf] using ‹¬(b == 0) = true›
  | cons p m ih =>
    obtain ⟨k, v⟩ := p
    have ht := memWf_tail h
    obtain ⟨hv, hk⟩ := memWf_head h
    unfold memWrite
    split
    · split
      · exact h
      · exact memWf_cons h (by simpa using ‹¬(b == 0) = true›) (by simpa)
    · split
      · split
        · exact ht
        · exact memWf_cons ht (by simpa using ‹¬(b == 0) = true›) hk
      · rename_i h1 h2
        have : a ≠ k := by simpa using h2
        exact memWf_cons (ih ht) hv (memWrite_head m a b k (by omega) hk ht)

theorem memWf_memWriteList (bs : List Byte) (m : Mem) (a : Nat) (h : memWf m = true) : memWf (memWriteList m a bs) = true := by
  induction bs generalizing m a with
  | nil => exact h
  | cons b bs ih => exact ih _ _ (memWf_memWrite m a b h)

theorem memRead_memWriteList_ne (bs : List Byte) (m : Mem) (a x : Nat) (h : x < a ∨ a + bs.length ≤ x) :
    memRead (memWriteList m a bs) x = memRead m x := by
  induction bs generalizing m a with
  | nil => rfl
  | cons b bs ih =>
    simp only [List.length_cons] at h
    rw [memWriteList, ih _ _ (by omega), memRead_memWrite_ne _ _ (by omega)]

theorem memRead_memWriteList_at (bs : List Byte) (m : Mem) (a i : Nat) (h : memWf m = true) (hi : i < bs.length) :
    memRead (memWriteList m a bs) (a + i) = bs[i] := by
  induction bs generalizing m a i with
  | nil => simp at hi
  | cons b bs ih =>
    rw [memWriteList]
    cases i with
    | zero =>
      rw [memRead_memWriteList_ne _ _ _ _ (by omega)]
      simpa using memRead_memWrite_same h a b
    | succ i =>
      have := ih (memWrite m a b) (a + 1) i (memWf_memWrite m a b h) (by simpa using hi)
      rw [show a + (i + 1) = a + 1 + i by omega]
      simpa using this

/-! ### The memories of the device -/

theorem State.reset_memsWf : State.reset.memsWf := by
  intro m
  cases m <;> rfl

end Sys2Proof.Machine
end

