-- ==== Sys2Proof/Tests/Slice0.lean ====
section
/-! SUPPORT. Tests of single steps, the checks of WellFormed, and states that meet the hypotheses of the statements. -/
namespace Sys2Proof.Tests
open Sys2Proof Sys2Proof.Machine
set_option Elab.async false

/-! ### Every check of WellFormed refuses an ill-formed command -/

/-- Operands that name something one past the last: engine, master, memory, row, core, space, pin, port, link, timer. -/
theorem test_wf_refuses_numbers :
    ([.integerOp ⟨16, 0⟩, .integerOp ⟨0, 13⟩, .fgDoneWrite (.vf 64) 0 0 0, .fgDoneWrite (.vf 0) 0 0 0, .fgDoneWrite (.engine 16 0) 0 0 0, .fgDoneWrite (.courseDma 16) 0 0 0, .fgDoneWrite (.link 4) 0 0 0,
      .eccWriteBack (.lsp 0 13) 0, .eccWriteBack (.csm 16) 0, .eccWriteBack (.dram 4) 0, .eccWriteBack (.sram 8) 0, .spareRowCopy (.csm 0 8 0), .spareRowCopy (.csm 0 0 2048), .spareRowCopy (.dram 0 64),
      .debugHalt (.engine 0 13), .registerWrite (.cfgVfs 64) 0 0, .registerWrite (.cfgMsixEnable 64) 0 0, .registerWrite (.cfgMsixFnMask 64) 0 0, .registerWrite (.cfgPowerD0 64) 0 0,
      .registerWrite (.cfgDevCtl 64) 0 0, .registerWrite (.cfgDevCtl2 64) 0 0, .registerWrite (.cfgBar 64 0) 0 0, .registerWrite (.cfgBar 0 1) 0 0, .storeAck ⟨0, 0⟩ 8] : List Instr).all (fun i => !i.wf) = true := by
  decide +kernel
theorem test_wf_refuses_ranges :
    ([.brlImageDelivery 8 0 [], .pcieMemRead 64 0 0 4, .pcieMemRead 0 1 0 4, .msixTableWrite 0 2048 0 0, .msixTableWrite 0 0 4 0, .spdmGetCertificate 1 256 0 0, .spdmChallenge 1 0 [], .spdmGetMeasurements 1 256 [],
      .aqCtlEnable 64, .sqReadTimeout 1048576, .identify 1048576 {}, .budgetExpiry 0 12, .fgDoneWrite .pf 16 0 0, .coursePowerDown 16, .gptpSyncTransmit 8, .sourceTimeout 6, .crystalPathFailure 2,
      .tdcRecalibration 58 0 0, .tioEdge 48 false, .irqSourceEdge ⟨0, 0⟩ 21, .mwNop ⟨0, 0⟩ 4 (some 0), .dramRefresh 4, .fabricTimeout .pf (2 ^ 40) false, .dmaCmdGo .pf 0 16, .veSenselRead ⟨0, 0⟩ 8, .timerTick 160,
      .timerCompareMatch 0 4, .captureLand 0 2, .tioBallDrive 48, .csi2FrameStart 8 0 0, .csi2LineStart 0 16, .ethBlockLockLoss 8, .canBusOff 4, .spiDrdyEvent 4, .triggerRise 16, .appendProcess 16] : List Instr).all (fun i => !i.wf) = true := by
  decide +kernel
theorem test_wf_refuses_lists :
    ([.sqReadCompletion 0 (.bytes (List.replicate 4097 0)), .canFrameReceive 0 { id := 0, ide := false, fdf := true, brs := false, remote := false, data := List.replicate 65 0 },
      .canFrameReceive 0 { id := 0, ide := false, fdf := false, brs := false, remote := true, data := [1] }, .dramTrainingComplete { capGib := [], ranks := [], pass := [] },
      .logStoreReady { ces := 1, luns := 1, planes := 0, blocks := 1, pages := 1, endurance := 0, qualified := true }, .engineInitComplete [⟨16, 0⟩], .gptpFollowUpReceive 0 0 { sec := 0, ns := 1000000000 },
      .healthMonitorSample [], .cubeCommandComplete [{ cubeId := 8, status := 0, result := 0 }], .remoteWindowAccessIn 0 0 4097 none, .brlTrainingComplete 0 8 0 0, .brlLaneFailure 0 5, .brlReplyReceive 4,
      .faultRaise 4096 0 0, .eyeMarginCheck 0 5 0, .functionBecomesUsable 20] : List Instr).all (fun i => !i.wf) = true := by
  decide +kernel
theorem test_wf_accepts : ([.integerOp ⟨15, 12⟩, .timerTick 159, .pcieMemRead 63 6 0 4, .sqReadCompletion 0 (.bytes (List.replicate 64 0)), .registerWrite (.cfgBar 63 4) 0 0, .sqReadTimeout 1048575, .registerWrite (.bar0 (.vf 63)) 0 0] : List Instr).all Instr.wf = true := by
  decide +kernel
/-! ### States that meet the hypotheses of the statements -/

/-- A device in RUN with every function ready, the link up and QP 1 of the PF active. -/
def up : State :=
  { pins := { porstN := true, rstoutN := true }, boot := { held := false, phase := .run, readyMap := 0xFFFFF, fw := .fw, courseReady := 0xFFFF, dramTrained := true, dramGib := 16 },
    link := { up := true, qps := [(1, { state := .active, sqDepthM1 := 15, cqDepthM1 := 15, evtEn := true })] }, time := { counting := true }, fcu := { running := true } }
/-- The same before bring-up: in a phase and with a strap. -/
def inPhase (p : Phase) (straps : BitVec 7) (v : VerifyFor) : State := { up with boot := { up.boot with phase := p, straps := straps, verifying := v } }

theorem witness_ResetRows : up.pins.porstN = true ∧ State.reset.pins.porstN = false ∧ up.alive = true ∧ ({ up with boot := { up.boot with warmReq := some 2 } } : State).boot.warmReq = some 2 ∧ up.lgs.flushing = false := by
  decide +kernel
theorem witness_BootSourceRows : up.alive = true ∧ ({ up with pins := { up.pins with rstoutN := false } } : State).pins.rstoutN = false ∧ up.boot.straps.toNat % 4 ≠ 1 ∧
    (inPhase .loadFw 0 .idle).alive = true ∧ (inPhase .loadFw 0 .idle).boot.straps.toNat % 4 = 0 ∧ (inPhase .loadFw 0 .idle).boot.verifying = .idle ∧ (inPhase .loadFw 0 .idle).boot.phase = .loadFw ∧ (inPhase .loadFw 0 .idle).boot.attempt = 0 ∧
    (inPhase .loadUcode 0 .idle).boot.phase = .loadUcode ∧ (inPhase .loadUcode 1 .idle).boot.straps.toNat % 4 ≠ 0 ∧ (inPhase .waitHost 2 .idle).boot.straps.toNat % 4 = 2 ∧ (inPhase .waitHost 2 .idle).boot.phase = .waitHost ∧
    up.delivering = false ∧ (inPhase .waitHost 1 .idle).delivering = true ∧ 4 ∈ ([1, 2, 4, 8] : List Nat) ∧ 16 ∉ ([1, 2, 4, 8] : List Nat) ∧ up.isLead = true ∧ up.ready Rdy.brl = true := by
  decide +kernel
theorem witness_BootSequenceRows :
    (inPhase .selftest 0 .idle).alive = true ∧ (inPhase .selftest 0 .idle).boot.phase = .selftest ∧ (inPhase .selftest 0 .idle).boot.selfTestDone = false ∧ (inPhase .selftest 0 .idle).boot.recoverNow = false ∧ (inPhase .selftest 0 .idle).pins.tjBand = 0 ∧ (inPhase .selftest 0 .idle).pins.thermtripN = true ∧
    (inPhase .selftest 0 .idle).fcu.recs = [] ∧ ({ inPhase .selftest 0 .idle with pins := { up.pins with thermtripN := false } } : State).pins.thermtripN = false ∧
    (inPhase .verifyFw 0 .bootFw).alive = true ∧ (inPhase .verifyFw 0 .bootFw).boot.verifying = .bootFw ∧ verifyImage (inPhase .verifyFw 0 .bootFw) 1 [] ≠ 0 ∧ (inPhase .loadUcode 0 .bootUcode).boot.verifying = .bootUcode ∧
    verifyImage (inPhase .loadUcode 0 .bootUcode) 2 [] ≠ 0 ∧ (inPhase .bootFail 0 .bootRecovery).boot.verifying = .bootRecovery ∧ verifyImage (inPhase .bootFail 0 .bootRecovery) 4 [] ≠ 0 ∧
    (inPhase .selftest 0 .emramRecovery).boot.verifying = .emramRecovery ∧
    up.link.up = true ∧ bitsAt (0x5A170001 : W32).toNat 16 16 = 0x5A17 ∧ (0x5A170001 : W32).getLsbD 0 = true ∧ (0x5A170001 : W32).getLsbD 2 = false ∧ (inPhase .waitHost 1 .idle).boot.bootLen.toNat ≤ 0x401800 ∧
    bitsAt (0x5A170004 : W32).toNat 16 16 = 0x5A17 ∧ (0x5A170004 : W32).getLsbD 0 = false ∧ (0x5A170004 : W32).getLsbD 2 = true ∧ bitsAt (0x5A170002 : W32).toNat 16 16 = 0x5A17 ∧ bitsAt (0x5A160001 : W32).toNat 16 16 ≠ 0x5A17 := by
  decide +kernel
/-- A fitting that trains, and one that does not. -/
def fit4 : DramFit := { capGib := [4, 4, 4, 4], ranks := [1, 1, 1, 1], pass := [1, 1, 1, 1] }
def nand4 : NandFit := { ces := 4, luns := 2, planes := 4, blocks := 1024, pages := 1024, endurance := 3000, qualified := true }
def early : State := { inPhase .bringup 0 .idle with boot := { (inPhase .bringup 0 .idle).boot with readyMap := 0, dramTrained := false } }
theorem witness_BringUpRows : usableNow 19 up = true ∧ usableNow 0 up = true ∧ up.time.counting = true ∧ State.reset.time.counting = false ∧ up.sources.contains 5 = false ∧
    early.fwUp = true ∧ early.boot.dramTrained = false ∧ dramFitOk fit4 = true ∧ dramRateOf fit4 = some 0 ∧ dramFitOk { fit4 with ranks := [1, 1, 1, 2] } = false ∧ dramRateOf { fit4 with pass := [] } = none ∧
    early.fcu.running = true ∧ (early.frec Src.dramTrain).isOpen = false ∧ (early.frec Src.lgsGeom).isOpen = false ∧ early.ready Rdy.lgsRead = false ∧ nandOk nand4 = true ∧ early.em.marker = false ∧ newestHead early.lgs.heads = none ∧ ({ early with em := { early.em with marker := true } } : State).em.marker = true ∧ (early.frec Src.lgsIndex).isOpen = false ∧ nandOk { nand4 with qualified := false } = false ∧
    early.ready Rdy.brl = false ∧ (∀ k < 4, (early.brLink k).state ≠ 3) ∧ early.alive = true ∧ early.boot.phase = .bringup ∧ early.boot.engineInitDone = false ∧ early.boot.fw ≠ .recovery := by
  decide +kernel
def safe : State := { up with fcu := { up.fcu with safe := true } }
theorem witness_PowerAndTemperatureRows : up.pins.pfailDone = false ∧ up.fcu.safe = false ∧ ({ up with pins := { up.pins with pfailDone := true } } : State).alive = true ∧ ({ up with lgs := { up.lgs with flushing := true } } : State).alive = true ∧
    up.ready Rdy.lgsWrite = true ∧ early.ready Rdy.lgsWrite = false ∧ safe.alive = true ∧ safe.fcu.safe = true ∧ (up.frec Src.tjWarn).cause = false ∧ (up.frec Src.tjWarn).isOpen = false ∧ (up.frec Src.tjCrit).cause = false ∧
    (up.frec Src.tjCrit).isOpen = false ∧ (up.frec Src.thermtrip).isOpen = false ∧ 110 ≤ 115 := by
  decide +kernel
theorem witness_PcieRows : up.barHit 0 0 0x44 4 = true ∧ up.barHit 64 0 0 4 = false ∧ up.barHit 0 1 0 4 = false ∧ (up.fn 0).d3hot = false ∧ (∀ k ∈ up.link.pba, k / 2048 ≠ 0) ∧ (leBytes 4 0x1000).length = 4 ∧ (up.frec Src.pcieCie).isOpen = false ∧ (up.frec Src.pcieUie).isOpen = false ∧
    (bar0Rd 0 0x44 up).1 = .ok 0xFFFFF ∧ up.barHit 0 4 0x10000000 4 = true ∧ up.ready Rdy.dram = true ∧ up.dramOk 0x10000000 4 = true ∧ up.fnExists 0 = true ∧ (bar0Wr 0 0x54 0 up).1 = .ok 0 ∧ up.barHit 0 2 16 4 = true ∧
    TlpError.malformed ≠ .ecrc ∧ ({ up with link := { up.link with ecrcChk := true } } : State).link.ecrcChk = true ∧ up.link.ecrcChk = false ∧ up.bar2Up 0 = true ∧ (1 : W32).getLsbD 0 = true ∧
    ({ up with link := { up.link with ptmEn := true, ptmSent := some (7, .free, 0) } } : State).link.ptmEn = true ∧ vtRangeOk (16 * ((100 : W64).toNat - (10 : W32).toNat : Nat) + up.time.ptmOfs.toInt) = true := by
  decide +kernel
theorem witness_AttestationMailboxRows : up.alive = true ∧ up.link.up = true ∧ 65536 < 65537 ∧ up.ready Rdy.attest = true ∧ early.ready Rdy.attest = false ∧ early.link.up = true ∧ (0x90 : Byte) ∉ ([0x84, 0xE1, 0xE3, 0x81, 0x82, 0x83, 0xE0] : List Byte) := by
  decide +kernel
/-- The PF's admin queue programmed; a QP with a command done; a reading admin queue; an overflow. -/
def aq : State := { up with link := { up.link with fns := [(0, { sqb := 0x1000, cqb := 0x2000, size := 0x00030001 })] } }
def withQp (g : Nat) (c : Qp) : State := { up with link := { up.link with qps := [(g, c)] } }
def live : Qp := { state := .active, sqDepthM1 := 15, cqDepthM1 := 15, evtEn := true }
theorem witness_DoorbellRows : aqCanEnable 0 aq = true ∧ (aq.fn 0).sqb.toNat % 4096 = 0 ∧ (aq.fn 0).cqb.toNat % 4096 = 0 ∧ 1 ≤ bitsAt (aq.fn 0).size.toNat 0 16 ∧ 3 ≤ bitsAt (aq.fn 0).size.toNat 16 16 ∧
    aqCanEnable 0 up = true ∧ bitsAt (up.fn 0).size.toNat 0 16 = 0 ∧ (let a : State := { up with link := { up.link with fns := [(0, { en := true })] } }; a.adminUp 0 = true ∧ (a.fn 0).en = true) ∧ doorQp 0 1 up = some 1 ∧ (up.qp 1).state = .active ∧ bitsAt (15 : W32).toNat 0 16 ≤ (up.qp 1).sqDepthM1 ∧
    doorQp 0 0 (withQp 0 live) = some 0 ∧ (withQp 0 live).isAdmin 0 = true ∧ ((withQp 0 live).qp 0).state = .active ∧ ((withQp 0 live).qp 0).sqDepthM1 < bitsAt (16 : W32).toNat 0 16 ∧
    (bitsAt (0 : W32).toNat 0 16 + ((up.qp 1).cqDepthM1 + 1) - (up.qp 1).cqHead) % ((up.qp 1).cqDepthM1 + 1) ≤ ((up.qp 1).cqTail + ((up.qp 1).cqDepthM1 + 1) - (up.qp 1).cqHead) % ((up.qp 1).cqDepthM1 + 1) ∧
    doorQp 0 2 up = some 2 ∧ (up.qp 2).state ≠ .active ∧ doorQp 1 0 up = none ∧ up.bar2Up 0 = true := by
  decide +kernel
def doneCmd : Cmd := { cid := 1, opcode := 0x0100, sub := { tag := 5 }, phase := .done { tag := 5, status := 0, kind := 0, quality := .free, result := 0, vt := 0 } }
def sent : State := withQp 1 { live with sqTail := 3 }
theorem witness_FetchAndPostRows : nextSq sent = some 1 ∧ min (min (sent.qp 1).waiting (sent.qp 1).admits) (if sent.isAdmin 1 then 1 else (sent.qp 1).weight) = 3 ∧
    0 < ((withQp 0 { live with reading := 1 }).qp 0).reading ∧ (withQp 0 { live with reading := 1 }).isAdmin 0 = true ∧ (List.replicate 64 (0 : Byte)).length = 64 * ((withQp 0 { live with reading := 1 }).qp 0).reading ∧ ((withQp 0 { live with reading := 1 }).fn 0).ctoOff = false ∧
    ((withQp 1 { live with cmds := [doneCmd] }).qp 1).cmds = doneCmd :: [] ∧ doneCmd.opcode ≠ 0x0008 ∧ up.mute (up.fnOf 1) = false ∧ ((withQp 1 { live with modDue := some 4, intrEn := true }).qp 1).modDue = some 4 ∧
    ((withQp 1 { live with overflow := true }).qp 1).openHeld = false ∧ ((withQp 1 { live with overflow := true }).qp 1).owed + 2 ≤ ((withQp 1 { live with overflow := true }).qp 1).free ∧
    ((withQp 1 { live with overflow := true }).qp 1).state = .active ∧ (∀ w ∈ (withQp 1 { live with cmds := [doneCmd] }).em.writing, ¬(w.1 = 1 ∧ w.2.1 = doneCmd.cid)) ∧
    ({ withQp 1 { live with cmds := [doneCmd] } with em := { up.em with writing := [(1, 1, 0, [])] } } : State).em.writing = [(1, doneCmd.cid, 0, [])] ∧ ((withQp 1 { live with state := .deleting }).qp 1).reading = 0 ∧
    ((withQp 1 { live with state := .deleting, deleter := some (0, 1) }).qp 1).deleter = some (0, 1) ∧ (∀ m ∈ ((withQp 1 { live with state := .deleting, cmds := [doneCmd] }).qp 1).cmds, (match m.phase with | .done _ => true | _ => false) = true) ∧ ((withQp 1 { live with state := .deleting }).qp 1).deleter = none := by
  decide +kernel
/-- A submission with the parameters of an opcode at the values given, in the table's order. -/
def subFor (op : Nat) (vals : List Nat) : Sub :=
  { tag := 7, params := BitVec.ofNat 384 ((((layFields ((opInfo op).elim [] (·.fields)) 0).zip vals).map fun p => p.2 * 2 ^ (8 * p.1.1)).foldl (· + ·) 0) }
/-- The state with one command, fetched and not started, in QP 1. -/
def holding (op : Nat) (sub : Sub) (s : State) : State := s.setQp 1 fun c => { c with cmds := [{ cid := 1, opcode := op, sub := sub }] }
/-- The state in which that command has started. -/
def begun (op : Nat) (sub : Sub) (s : State) : State := ((claim 1 op sub (holding op sub s)).map (·.2)).getD s
/-- QP 1 brings the command, and it passes the common checks. -/
def takes (op : Nat) (sub : Sub) (s : State) : Bool :=
  basutUp 1 (holding op sub s) && (claim 1 op sub (holding op sub s)).isSome && checkCmd op 1 sub (begun op sub s) == 0 && !onCube sub
theorem taken_of_takes {op : Nat} {sub : Sub} {s : State} (h : takes op sub s = true) : ∃ cid, Taken op 1 sub (holding op sub s) cid (begun op sub s) := by
  simp only [takes, Bool.and_eq_true, beq_iff_eq, Bool.not_eq_true'] at h
  obtain ⟨⟨⟨h1, h2⟩, h3⟩, h4⟩ := h
  obtain ⟨⟨c, u⟩, e⟩ := Option.isSome_iff_exists.1 h2
  refine ⟨c, h1, ?_, h3, h4⟩
  rw [e]; simp [begun, e]
theorem mayWait_of {sub : Sub} {u : State} (h : tooFar sub u = false) (h2 : strictCapo sub = false) : MayWait sub u := ⟨h, fun h3 => by rw [h2] at h3; cases h3⟩

/-- A submission QP 1 takes, that may wait, and that passes a check of its own. -/
def waits (op : Nat) (sub : Sub) (chk : Bool) : Bool := takes op sub up && !tooFar sub (begun op sub up) && !strictCapo sub && chk
/-- A legal SPI configuration: 1 MHz, one byte read, events enabled. -/
def spiCfg : List Byte := leBytes 4 1000000 ++ zeroBytes 12 ++ [1, 0, 0, 1] ++ zeroBytes 4
/-- Each capo opcode with a submission that is taken, may wait, and passes its own check. -/
def capoWitness : List (Nat × Bool) := [
    (0x0101, waits 0x0101 (subFor 0x0101 [1, 0]) (checkTimeSource (subFor 0x0101 [1, 0]) up == 0)),
    (0x0102, waits 0x0102 (subFor 0x0102 [16, 0, 0]) (checkServoConfig (subFor 0x0102 [16, 0, 0]) up == 0)),
    (0x0103, waits 0x0103 (subFor 0x0103 [1, 0, 3, 0]) (checkGptpConfig (subFor 0x0103 [1, 0, 3, 0]) up == 0)),
    (0x0104, waits 0x0104 (subFor 0x0104 [0, 16, 1]) (checkPpsConfig (subFor 0x0104 [0, 16, 1]) up == 0)),
    (0x0201, waits 0x0201 (subFor 0x0201 [3]) (arg 0x0201 0 (subFor 0x0201 [3]) ≤ 3)),
    (0x0202, waits 0x0202 (subFor 0x0202 [4]) (arg 0x0202 0 (subFor 0x0202 [4]) ≤ 4)),
    (0x0203, waits 0x0203 (subFor 0x0203 [10000]) (let a := arg 0x0203 0 (subFor 0x0203 [10000]); 10000 ≤ a && a ≤ 10000000 && a % 4 == 0)),
    (0x0204, waits 0x0204 (subFor 0x0204 [2, 0]) (arg 0x0204 0 (subFor 0x0204 [2, 0]) ≤ 2)),
    (0x0301, waits 0x0301 (subFor 0x0301 [0x1000, 1, 0x10000000, 0x10000]) (checkStreamBind (subFor 0x0301 [0x1000, 1, 0x10000000, 0x10000]) up == 0)),
    (0x0302, waits 0x0302 (subFor 0x0302 [0, 0]) (([] : List Byte).length == argLen 0x0302 (subFor 0x0302 [0, 0]) && verifyImage up 2 [] != 0)),
    (0x0400, waits 0x0400 (subFor 0x0400 [0, 64]) (checkLgsMode (subFor 0x0400 [0, 64]) up == 0)),
    (0x0403, waits 0x0403 (subFor 0x0403 [15, 2, 0]) (arg 0x0403 0 (subFor 0x0403 [15, 2, 0]) < 16 && arg 0x0403 1 (subFor 0x0403 [15, 2, 0]) < 3)),
    (0x0500, waits 0x0500 (subFor 0x0500 [3, 3, 0, 24]) (spiCfg.length == argLen 0x0500 (subFor 0x0500 [3, 3, 0, 24]) && arg 0x0500 1 (subFor 0x0500 [3, 3, 0, 24]) < portCount (arg 0x0500 0 (subFor 0x0500 [3, 3, 0, 24])) && portLenOk 3 24 && portCfgOk 3 spiCfg)),
    (0x0501, waits 0x0501 (subFor 0x0501 [15, 1, 0, 16000, 16]) (checkTrigSchedule (subFor 0x0501 [15, 1, 0, 16000, 16]) up == 0)),
    (0x0502, waits 0x0502 (subFor 0x0502 [0, 7, 0, 7]) (checkIngressClass (subFor 0x0502 [0, 7, 0, 7]) up == 0)),
    (0x0503, waits 0x0503 (subFor 0x0503 [7, 0, 32]) ((zeroBytes 32).length == argLen 0x0503 (subFor 0x0503 [7, 0, 32]) && arg 0x0503 0 (subFor 0x0503 [7, 0, 32]) < 8 && (rulesOf (zeroBytes 32)).all ruleOk)),
    (0x0602, waits 0x0602 (subFor 0x0602 [0, 8]) ((senEntries (leBytes 4 0x200000 ++ zeroBytes 4)).all fun e => senOffOk e.1)),
    (0x0603, waits 0x0603 (subFor 0x0603 [159, 0, 80]) (arg 0x0603 0 (subFor 0x0603 [159, 0, 80]) < 160 && argLen 0x0603 (subFor 0x0603 [159, 0, 80]) == 80)),
    (0x0604, waits 0x0604 (subFor 0x0604 [1, 255, 65535]) (arg 0x0604 1 (subFor 0x0604 [1, 255, 65535]) < 256 && arg 0x0604 2 (subFor 0x0604 [1, 255, 65535]) < 65536)),
    (0x0800, waits 0x0800 (subFor 0x0800 [2, 2]) (checkTuneSet (subFor 0x0800 [2, 2]) up == 0)),
    (0x0801, waits 0x0801 (subFor 0x0801 [1]) (tuneImpl (arg 0x0801 0 (subFor 0x0801 [1])))),
    (0x0803, waits 0x0803 (subFor 0x0803 [0, 207]) (arg 0x0803 1 (subFor 0x0803 [0, 207]) < classSize (arg 0x0803 0 (subFor 0x0803 [0, 207])))),
    (0x0804, waits 0x0804 (subFor 0x0804 [0, 207]) (arg 0x0804 0 (subFor 0x0804 [0, 207]) < 5 && arg 0x0804 1 (subFor 0x0804 [0, 207]) < classSize (arg 0x0804 0 (subFor 0x0804 [0, 207])))),
    (0x0A01, waits 0x0A01 (subFor 0x0A01 [7]) (arg 0x0A01 0 (subFor 0x0A01 [7]) < 8)),
    (0x0A02, waits 0x0A02 (subFor 0x0A02 [7, 15, 0x10000000, 0x400000000]) (checkRemoteWindow (subFor 0x0A02 [7, 15, 0x10000000, 0x400000000]) up == 0))]
theorem witness_CapoRowsWait : capoWitness.all (·.2) = true := by decide +kernel
def served (op : Nat) (vals : List Nat) (s : State) (p : Sub → State → Bool) : Bool := takes op (subFor op vals) s && p (subFor op vals) (begun op (subFor op vals) s)
def ptmUp : State := { up with time := { up.time with ptmRecs := [{ vt := 1, hostNs := 2, propNs := 3, quality := .free, era := 0 }] } }
def anEntry : JEntry := { vt := 0, src := 1, sev := 1, inj := false, merges := 0, seq := 0, info := 0, typ := 0, quality := .free, era := 0, unit := 0, stroke := 0 }
def jUp : State := { up with fcu := { up.fcu with ring := [(0, anEntry)], head := 1, fill := 1 } }
def aRec : LogRec := { kind := 1, cls := 0, info := 0, era := 0, vt := 0, evt := 0, stream := 0, body := [] }
def logUp : State := { up with lgs := { up.lgs with recs := [aRec] } }
def noHss : State := { up with em := { up.em with hssLeft := 0 } }
/-- Each command that writes a record, with a buffer that is just long enough, and the conditions of its clause. -/
theorem witness_RecordRows : ([
    served 0x0002 [0, 4096] up fun b _ => 4096 ≤ argLen 0x0002 b, served 0x0002 [0, 4095] up fun b _ => argLen 0x0002 b < 4096, served 0x0006 [1, 0] up fun b u => liveQp 1 (arg 0x0006 0 b) u == some 1,
    served 0x0105 [0, 32] ptmUp fun b u => 32 ≤ argLen 0x0105 b && u.time.ptmRecs != [], served 0x0106 [0, 704] up fun b u => (timeStatusBytes u (fillWords 16 u.stroke.captured0)).length ≤ argLen 0x0106 b,
    served 0x0205 [0, 960] up fun b u => (strokeStatsBytes u).length ≤ argLen 0x0205 b, served 0x0402 [0, 0, 4096, 0] logUp fun b u => (readLog b u).bytes != [] && !(readLog b u).lost, served 0x0404 [0, 64] up fun b _ => 64 ≤ argLen 0x0404 b,
    served 0x0504 [3, 3, 0, 64] up fun b _ => arg 0x0504 1 b < portCount (arg 0x0504 0 b) && 64 ≤ argLen 0x0504 b, served 0x0703 [0, 32] jUp fun b u => 32 ≤ argLen 0x0703 b && journalHeld u.fcu != [],
    served 0x0802 [0, 1600] up fun b u => (healthBytes u).length ≤ argLen 0x0802 b, served 0x0A00 [0, 576] up fun b _ => 576 ≤ argLen 0x0A00 b, served 0x0900 [0, 0, 0x1000000] up fun b u => u.em.hssLeft != 0 && argLen 0x0900 b == 0x1000000,
    served 0x0900 [0, 0, 0x1000000] noHss fun b u => u.em.hssLeft == 0 && argLen 0x0900 b == 0x1000000, served 0x0001 [0, 128, 1] up fun b u => arg 0x0001 2 b != 0 && !tooFar b u && snapSize (arg 0x0001 2 b) ≤ argLen 0x0001 b]).all id = true := by
  decide +kernel
/-- An ATTEST record is shorter than the buffer of the witness above. -/
theorem witness_attest_fits {sub : Sub} {s : State} (h0 : s.stroke.captured0 = []) (h2 : s.stroke.captured2 = []) : (attestBytes sub s).length ≤ 0x1000000 := by
  have a : ∀ i, attestSize i < 65536 := fun i => Nat.mod_lt _ (by decide)
  have a16 := a 16
  have a17 := a 17
  have a18 := a 18
  have h1 : (wordsBytes (fillWords 16 [])).length = 64 := by decide +kernel
  have h3 : (wordsBytes (fillWords 64 [])).length = 256 := by decide +kernel
  have hl : (leBytes 32 (arg 0x0900 0 sub)).length = 32 := by simp [leBytes]
  simp only [attestBytes, identityBytes, List.length_append, List.length_map, List.length_range, h0, h2, h1, h3, hl]
  omega
def twoQps : State := { up with link := { up.link with qps := [(1, live), (2, { live with cmds := [{ cid := 9, opcode := 0x0100, sub := { tag := 5 } }] })] } }
def boundUp : State := { up with link := { up.link with binds := [(4, { source := 1, kind := 6, qp := 1 })] } }
theorem witness_QueueCommandRows : ([
    served 0x0003 [2, 0x1000, 0x2000, 1, 3, 2047, 4, 1, 0, 0] up fun b u => ownQp 1 (arg 0x0003 0 b) u == some 2 && arg 0x0003 0 b != 0 && ctxOk (ctxOf b) && (u.qp 2).state == .free && !(ctxOf b).pin,
    served 0x0004 [2] twoQps fun b u => arg 0x0004 0 b != 0 && liveQp 1 (arg 0x0004 0 b) u == some 2 && (u.qp 2).state != .deleting,
    served 0x0005 [1, 31, 2047, 7, 1, 0, 0] up fun b u => arg 0x0005 0 b != 0 && liveQp 1 (arg 0x0005 0 b) u == some 1 && (u.qp 1).state == .active && modifyStatus 1 (u.qp 1) (modified b (u.qp 1)) u == 0,
    served 0x0007 [2, 5] twoQps fun b u => liveQp 1 (arg 0x0007 0 b) u == some 2 && ((u.qp 2).cmds.find? fun m => m.phase == .fetched && m.sub.tag.toNat == arg 0x0007 1 b).isSome,
    served 0x0008 [0x5A17] up fun b _ => arg 0x0008 0 b == 0x5A17, served 0x0008 [0x5A16] up fun b _ => arg 0x0008 0 b != 0x5A17, served 0x0100 [] up fun _ _ => true,
    served 0x0600 [1, 1, 6] up fun b u => (match bindCheck 1 b u with | .ok g => g == 1 | .error _ => false), served 0x0601 [4] boundUp fun b u => (tabFind u.link.binds (arg 0x0601 0 b)).isSome]).all id = true ∧
    ({ up with boot := { up.boot with warmDelay := some 5 } } : State).alive = true ∧ up.boot.warmReq = none := by
  decide +kernel
def planBody : List Byte := leBytes 4 0x4E414C50 ++ leBytes 2 1 ++ leBytes 1 3 ++ leBytes 1 0 ++ leBytes 4 100000 ++ leBytes 4 1 ++ leBytes 2 1 ++ leBytes 2 0 ++ leBytes 4 314263148 ++ leBytes 8 0 ++ zeroBytes 32 ++
  [0, 0, 0, 0] ++ leBytes 4 1000 ++ leBytes 4 0x100 ++ leBytes 4 0
def forced : State := { up with stroke := { up.stroke with inProfile := 1, powered := 1, profile := 4 }, eng := { up.eng with tab := [(0, { ({} : Engine) with st := .run })] } }
def openUp : State := { up with fcu := { up.fcu with recs := [(1, { ({} : FaultRec) with isOpen := true })] } }
def flashed : State := { up with em := { up.em with flash := [(0, zeroBytes 6 ++ [1, 0, 5, 0, 0, 0])] } }
/-- The CRC-32C of the plan, ten bytes at a time. -/
theorem test_plan_crc : crc32c (listPatch (planBody.take 80) 0x14 [0, 0, 0, 0]) = w32 314263148 := by
  unfold crc32c
  have e : listPatch (planBody.take 80) 0x14 [0, 0, 0, 0] = (listPatch (planBody.take 80) 0x14 [0, 0, 0, 0]).extract 0 10 ++ ((listPatch (planBody.take 80) 0x14 [0, 0, 0, 0]).extract 10 20 ++ ((listPatch (planBody.take 80) 0x14 [0, 0, 0, 0]).extract 20 30 ++ ((listPatch (planBody.take 80) 0x14 [0, 0, 0, 0]).extract 30 40 ++ ((listPatch (planBody.take 80) 0x14 [0, 0, 0, 0]).extract 40 50 ++ ((listPatch (planBody.take 80) 0x14 [0, 0, 0, 0]).extract 50 60 ++ ((listPatch (planBody.take 80) 0x14 [0, 0, 0, 0]).extract 60 70 ++ ((listPatch (planBody.take 80) 0x14 [0, 0, 0, 0]).extract 70 80))))))) := by decide +kernel
  rw [e]
  simp only [List.foldl_append]
  rw [show ((listPatch (planBody.take 80) 0x14 [0, 0, 0, 0]).extract 0 10).foldl crc32cByte 4294967295#32 = 2762707461#32 by decide +kernel]
  rw [show ((listPatch (planBody.take 80) 0x14 [0, 0, 0, 0]).extract 10 20).foldl crc32cByte 2762707461#32 = 1145951899#32 by decide +kernel]
  rw [show ((listPatch (planBody.take 80) 0x14 [0, 0, 0, 0]).extract 20 30).foldl crc32cByte 1145951899#32 = 936700362#32 by decide +kernel]
  rw [show ((listPatch (planBody.take 80) 0x14 [0, 0, 0, 0]).extract 30 40).foldl crc32cByte 936700362#32 = 1962251289#32 by decide +kernel]
  rw [show ((listPatch (planBody.take 80) 0x14 [0, 0, 0, 0]).extract 40 50).foldl crc32cByte 1962251289#32 = 3163842353#32 by decide +kernel]
  rw [show ((listPatch (planBody.take 80) 0x14 [0, 0, 0, 0]).extract 50 60).foldl crc32cByte 3163842353#32 = 2316891529#32 by decide +kernel]
  rw [show ((listPatch (planBody.take 80) 0x14 [0, 0, 0, 0]).extract 60 70).foldl crc32cByte 2316891529#32 = 1841770265#32 by decide +kernel]
  rw [show ((listPatch (planBody.take 80) 0x14 [0, 0, 0, 0]).extract 70 80).foldl crc32cByte 1841770265#32 = 3980704147#32 by decide +kernel]
  decide +kernel
theorem test_plan_ok : (match checkPlan planBody 80 with | .ok _ => true | .error _ => false) = true := by
  rw [checkPlan.eq_1]
  generalize hc : crc32c (listPatch (planBody.take 80) 0x14 [0, 0, 0, 0]) = c
  rw [test_plan_crc] at hc
  subst hc
  decide +kernel
theorem witness_ImmediateCommandRows : ([
    served 0x0200 [0, 80, 3] up fun b u => planBody.length == argLen 0x0200 b && arg 0x0200 2 b ≤ 3 && u.stroke.active != some (arg 0x0200 2 b),
    served 0x0300 [0x10000000, 0, 11, 100] forced fun b u => jobRangeOk b u && u.inForce.getLsbD (arg 0x0300 1 b) && (read40 .pegbox 0 (arg 0x0300 0 b) 8 u).1.all.isSome &&
      jobRoom (gateKey (arg 0x0300 1 b) (arg 0x0300 2 b)) (arg 0x0300 3 b) (jobStroke b (read40 .pegbox 0 (arg 0x0300 0 b) 8 u).2) (read40 .pegbox 0 (arg 0x0300 0 b) 8 u).2,
    served 0x0303 [0, 0] forced fun b u => arg 0x0303 0 b == 0 && arg 0x0303 1 b == 0 && (u.engine ⟨0, 0⟩).st != .off && (u.engine ⟨0, 0⟩).st != .bist,
    served 0x0401 [0, 57600000000000, 15] up fun b u => arg 0x0401 1 b ≤ 57600000000000 && arg 0x0401 0 b < 2 ^ 63 && arg 0x0401 2 b < 16 && u.lgs.trigs.length < 16, served 0x0405 [] up fun _ _ => true,
    served 0x0702 [] up fun _ u => !u.fcu.safe, served 0x0702 [] safe fun _ u => u.fcu.safe, served 0x0700 [1, 3] up fun b _ => srcImpl (arg 0x0700 0 b) && arg 0x0700 1 b ≤ 3 && !srcFixed (arg 0x0700 0 b),
    served 0x0701 [1] openUp fun b u => srcImpl (arg 0x0701 0 b) && (u.frec (arg 0x0701 0 b)).isOpen && !(u.frec (arg 0x0701 0 b)).cause, served 0x0704 [1, 2, 0] forced fun b _ => srcImpl (arg 0x0704 0 b) && arg 0x0704 1 b == 2 && arg 0x0704 2 b == 0,
    served 0x0704 [0x400, 1, 6] forced fun b u => srcImpl (arg 0x0704 0 b) && arg 0x0704 1 b ≤ 1 && instOfCe (arg 0x0704 0 b) == some 224 && 1 ≤ arg 0x0704 2 b && arg 0x0704 2 b ≤ 6 && (u.ecc 224).armed == none,
    served 0x0805 [8, 1] up fun b _ => arg 0x0805 0 b ≤ 8 && arg 0x0805 1 b ≤ 1, served 0x0806 [1, 0, 0] up fun b u => arg 0x0806 0 b ≤ 2 && ([] : List Byte).length == argLen 0x0806 b && verifyImage u (targetType (arg 0x0806 0 b) []) [] != 0,
    served 0x0901 [1, 5, 0x5A17] flashed fun b u => 1 ≤ arg 0x0901 0 b && arg 0x0901 0 b ≤ 4 && arg 0x0901 2 b == 0x5A17 && ((u.fuses.floors.toList[arg 0x0901 0 b]?).getD 0).toNat < arg 0x0901 1 b && imageAtFloor (arg 0x0901 0 b) (arg 0x0901 1 b) u,
    served 0x0902 [3, 0x5A17] up fun b u => arg 0x0902 0 b < 4 && arg 0x0902 1 b == 0x5A17 && arg 0x0902 0 b != u.boot.fwKey]).all id = true := by
  decide +kernel
def e0 : Eng := ⟨0, 0⟩
/-- Engine 0 of course 0 running, with a word at its pc. -/
def core (w : W32) (x : Engine) : State :=
  { forced with eng := { tab := [(0, { x with st := .run, run := true, pq := [(x.pc, some w)], remap := false, fetchRemap := false })] } }
/-- The state in which the word at the pc has been fetched. -/
def fetchedIn (s : State) : State := (fetchCurrent e0 (s.setEngine e0 Engine.endEntry)).2
/-- The word at the pc is fetched and issues as the operation. -/
def issuesAt (op : EOp) (s : State) : Bool :=
  s.coreIssues e0 && (fetchCurrent e0 (s.setEngine e0 Engine.endEntry)).1.bind decodeWord == some op && !illegalPlace (s.engine e0) op &&
    !((op.reads (shapeOf (s.engine e0).vshape).sew).any fun r => (s.engine e0).owed.contains r)
def issuesAs (op : EOp) (w : W32) (x : Engine) : Bool := issuesAt op (core w x)
theorem issues_of {op : EOp} {s : State} (h : issuesAt op s = true) : Issues e0 op s (fetchedIn s) := by
  simp only [issuesAt, Bool.and_eq_true, beq_iff_eq, Bool.not_eq_true'] at h
  obtain ⟨⟨⟨h1, h2⟩, h4⟩, h5⟩ := h
  obtain ⟨w, hw, hd⟩ := Option.bind_eq_some_iff.1 h2
  exact ⟨h1, ⟨w, Prod.ext hw rfl, hd⟩, h4, h5⟩

def aJob : GateJob := { fret := 0, crit := false, budget := 10, entry := 0, arg := 0, adhoc := none, index := 0, stroke := 1 }
def beat : State := { forced with stroke := { forced.stroke with started := true } }
/-- A state of each clause of the stroke rows. -/
theorem witness_StrokeRows : beat.alive = true ∧ beat.stroke.started = true ∧ beat.time.counting = true ∧ beat.brl.anchor = none ∧ nextStroke beat = { num := beat.stroke.num + 1, vt := beat.nextBoundary } ∧
    up.snap.hold = false ∧ ({ up with snap := { up.snap with hidden := some (1, 2, []) } } : State).snap.hidden = some (1, 2, []) ∧ up.snap.hidden = none ∧ up.ready Rdy.pcieAdmin = true ∧ (1 : W32).getLsbD 0 = true ∧ (2 : W32).getLsbD 0 = false ∧
    beat.fretNow < 63 ∧ 63 ≤ ({ beat with time := { beat.time with vt64 := 1599999 } } : State).fretNow ∧ ((beat.stroke.vt + w64 ((beat.fretNow + 1) * beat.fretVt)) - beat.now).toNat < 2 ^ 63 ∧
    ((beat.setGate (gateKey 15 11) fun g => { g with cur := some aJob }).gate (gateKey 15 11)).cur.isSome = true ∧ ((beat.setGate (gateKey 15 11) fun g => { g with cur := some aJob }).gate (gateKey 15 11)).ovr = false ∧
    ((beat.setGate (gateKey 0 0) fun g => { g with cur := some aJob, ovr := true }).gate (gateKey 0 0)).ovr = true ∧ beat.stroke.policy ≠ 1 ∧ ({ beat with stroke := { beat.stroke with policy := 1 } } : State).stroke.policy = 1 ∧
    beat.slotEngine (gateKey 0 0) = ⟨0, 0⟩ ∧ aJob.adhoc = none ∧ beat.stroke.rated = false ∧ (∀ n p, Master.pf ≠ .engine n p) ∧ beat.stroke.powered.getLsbD 0 = true ∧
    ({ beat with stroke := { beat.stroke with inProfile := 0 } } : State).stroke.inProfile.getLsbD 0 = false ∧ courseRuns 0 beat = false := by
  refine ⟨?_, ?_, ?_, ?_, ?_, ?_, ?_, ?_, ?_, ?_, ?_, ?_, ?_, ?_, ?_, ?_, ?_, ?_, ?_, ?_, ?_, ?_, fun n p => by simp, ?_, ?_, ?_⟩ <;> decide +kernel
theorem witness_GptpRows : ∃ s : State, s.gptpRuns 7 = true ∧ (3 : Byte).toNat ≠ s.time.gptpDomain ∧ (0 : Byte).toNat = s.time.gptpDomain ∧ (s.port 7).state = 2 ∧ (s.port 7).pdelayT1 = some ((4 : W16).toNat, 1) ∧ (s.port 7).pendSync = some (9, 0, true) ∧ (9 : W16).toNat = 9 ∧ s.gptpRole 7 = 1 ∧
    ∃ m : State, m.gptpRuns 0 = true ∧ (m.port 0).state = 1 ∧ m.gptpRole 0 = 2 ∧ (m.port 0).pendSync = none ∧ (m.port 0).prevGm = some 5 ∧
    ∃ v : State, v.gptpRuns 0 = true ∧ v.gptpRole 0 = 3 ∧ (v.port 0).state = 2 := by
  refine ⟨{ up with time := { up.time with gptpMask := 0x80, gptpRoles := Vector.replicate 8 1, ports := [(7, { ({} : GptpPort) with state := 2, pendSync := some (9, 0, true), pdelayT1 := some (4, 1) })] } }, ?_, ?_, ?_, ?_, ?_, ?_, ?_, ?_,
    { up with time := { up.time with gptpMask := 1, gptpRoles := Vector.replicate 8 2, ports := [(0, { ({} : GptpPort) with state := 1, prevGm := some 5 })] } }, ?_, ?_, ?_, ?_, ?_,
    { up with time := { up.time with gptpMask := 1, gptpRoles := Vector.replicate 8 3, ports := [(0, { ({} : GptpPort) with state := 2 })] } }, ?_, ?_, ?_⟩ <;> decide +kernel
def timed (f : TimeEng → TimeEng) : State := { up with time := f up.time }
theorem witness_ReferenceRows : up.time.counting = true ∧ (true != (up.time.ppsEdge == 0)) = false ∧ (false != (up.time.ppsEdge == 0)) = true ∧ up.edgeStamped 48 = true ∧ ({ up with sen := { up.sen with lastEdge := [(48, 0), (47, 0)] } } : State).edgeStamped 48 = false ∧
    ((timed fun t => { t with tracks := [(4, { ({} : Track) with valid := true })] }).track 4).valid = true ∧ (timed fun t => { t with tracks := [(4, { ({} : Track) with valid := true })] }).time.source ≠ 4 ∧ (timed fun t => { t with servo := .holdover }).time.servo = .holdover ∧
    (timed fun t => { t with ref10 := true }).time.ref10 = true ∧ up.time.ref10 = false ∧ (timed fun t => { t with pathFailed := 1 }).time.pathFailed.getLsbD 0 = true ∧ up.time.pathFailed.getLsbD 0 = false ∧ up.time.path = decide (0 = 1) ∧ up.time.pathFailed.getLsbD (1 - 0) = false ∧
    up.time.path ≠ decide (1 = 1) ∧ up.time.pathFailed.getLsbD 1 = false ∧ up.ready Rdy.pps = true ∧ up.pins.safeHeld = false ∧ (timed fun t => { t with servo := .locked, source := 1 }).quality = .locked ∧ up.quality = .free ∧
    (timed fun t => { t with ppsFall := some 5 }).time.ppsFall = some 5 ∧ up.time.ppsFall = none ∧ (16 : Nat) ≤ 16 ∧ (timed fun t => { t with ppsRef := some (1, 2) }).time.ppsRef = some (1, 2) ∧ up.time.ppsRef = none ∧ (timed fun t => { t with servo := .acquire, source := 2 }).time.source = 2 ∧ up.edgeStamped 49 = true ∧
    ({ up with sen := { up.sen with lastEdge := [(49, 0)] } } : State).edgeStamped 49 = false ∧ up.ready Rdy.vt = true ∧ edgeSelected (tioEdgeSel (up.sen.tioCfg 47)) true = false ∧
    edgeSelected (tioEdgeSel (({ up with sen := { up.sen with tio := [(47, 0x18)] } } : State).sen.tioCfg 47)) true = true ∧ ({ up with sen := { up.sen with lastEdge := [(48, 0), (47, 0)] } } : State).edgeStamped 47 = false ∧ up.edgeStamped 47 = true := by
  decide +kernel
/-- An engine word: major, the two register fields, the low fifteen bits (R211). -/
def enc (major rd rs1 low : Nat) : W32 := BitVec.ofNat 32 (major * 2 ^ 25 + rd * 2 ^ 20 + rs1 * 2 ^ 15 + low)
/-- Each form, its word as R211 to R221 lay it out, and that it issues as the operation the form names. -/
theorem witness_ScalarRegisterRows : ([
    issuesAs (.alu 13 1 2 3) (enc 0 1 2 (3 * 1024 + 13)) {}, issuesAs (.sel 1 2 3 4) (enc 2 1 2 (3 * 1024 + 4 * 32 + 5)) {}, issuesAs (.cmp 5 1 2 3) (enc 3 1 2 (3 * 1024 + 5)) {}, issuesAs (.imm 6 1 2 0x7FFF) (enc 0x0A 1 2 0x7FFF) {},
    issuesAs (.shi 3 1 2 31) (enc 0x0B 1 2 (3 * 4096 + 31)) {}, issuesAs (.lui 31 0xFFFFF) (enc 0x0C 31 31 0x7FFF) {}, issuesAs (.auipc 1 0) (enc 0x0D 1 0 0) {}, issuesAs (.carry 3 1 2 3 4) (enc 2 1 2 (3 * 1024 + 4 * 32 + 3)) {},
    issuesAs (.bitop 3 1 2) (enc 0 1 2 17) {}, issuesAs (.mul 0 1 2 3) (enc 1 1 2 (3 * 1024)) {}, issuesAs (.mul 3 30 2 3) (enc 1 30 2 (3 * 1024 + 3)) {}, issuesAs (.madd 1 2 3 4) (enc 2 1 2 (3 * 1024 + 4 * 32 + 4)) {},
    issuesAs (.div 3 1 2 3) (enc 1 1 2 (3 * 1024 + 7)) {}, issuesAs (.fp 3 true 2 4 6 8) (enc 0x2D 2 4 (6 * 1024 + 8 * 32 + 16 + 3)) {}, issuesAs (.fp 8 false 1 2 3 0) (enc 0x2D 1 2 (3 * 1024 + 8)) {},
    issuesAs (.fp 11 false 1 2 0 0) (enc 0x2D 1 2 11) {}]).all id = true ∧
    (core 0 { ({} : Engine) with div := some { rd := 1, result := 2, dz := true, cycles := 3 } }).coreLive e0 = true := by
  decide +kernel
/-- An engine whose g2 holds an address. -/
def at2 (a : W32) : Engine := ({} : Engine).setReg 2 a
/-- A load of the word at g2 gives bytes, or an error. -/
def readsOk (a n : Nat) (s : State) : Bool := (match (readPieces e0 n (pieces a n) s).1 with | .ok b => b.length == n | .error _ => false)
def loadsOk (a n : Nat) (s : State) : Bool := loadWay e0 a n s == .out && readsOk a n s
def loadsErr (a n : Nat) (s : State) : Bool := loadWay e0 a n s == .out && !readsOk a n s
def room (x : Engine) : Bool := x.loads.length < 4 && x.stores.length < 8 && !x.vq.any (·.store) && x.starts.length < 4 && !x.chordsAt false
def ea0 (x : Engine) (base am amf : Nat) : Nat := (address x.reg (fun i => (x.modBase.toList[i]?).getD 0) (fun i => (x.modLen.toList[i]?).getD 0) base am amf).1.toNat
/-- The state and operation of a witness issue, its engine has room, and the rest of the clause holds after the fetch. -/
def meets (op : EOp) (s : State) (p : State → Engine → Bool) : Bool := issuesAt op s && p (fetchedIn s) ((fetchedIn s).engine e0)
def atGate : State := (core (enc 0x14 1 2 0) (at2 0x0C001000)).setGate 0 fun g => { g with fresh := true }
def emptyGate : State := core (enc 0x14 1 2 0) (at2 0x0C001000)
def nextGate : State := emptyGate.setGate 0 fun g => { g with cur := some { fret := 0, crit := false, budget := 10, entry := 0, arg := 0, adhoc := none, index := 0, stroke := 0 }, job := 0, queue := [{ fret := 0, crit := false, budget := 10, entry := 4, arg := 0, adhoc := none, index := 1, stroke := 0 }] }
def acking (a : Nat) : State := core 0 { ({} : Engine) with stores := [{ addr := a, bytes := [1, 2, 3, 4] }] }
def goingOut : State := core 0 { ({} : Engine) with stores := [{ addr := 0x41102008, bytes := [1, 0, 0, 0] }] }
/-- LW and LD, LWX, SW and SD, AMOs and paired words (R226, R238, R241, R214), at an LSP word, at a register window, at a hole. -/
theorem witness_ScalarMemoryRows : ([
    meets (.load 4 1 2 0 0) (core (enc 0x14 1 2 0) (at2 0x100)) fun u x => room x && (fgNextAt e0 (ea0 x 2 0 0) u).isNone && loadsOk (ea0 x 2 0 0) 4 u,
    meets (.load 6 4 2 0 8) (core (enc 0x16 4 2 8) (at2 0x100)) fun u x => room x && loadsOk (ea0 x 2 0 8) 8 u,
    meets (.load 4 1 2 0 0) (core (enc 0x14 1 2 0) (at2 0x09000000)) fun u x => room x && (fgNextAt e0 (ea0 x 2 0 0) u).isNone && loadsErr (ea0 x 2 0 0) 4 u,
    meets (.load 4 1 2 0 0) atGate fun u x => room x && ea0 x 2 0 0 % 4 == 0 && fgNextAt e0 (ea0 x 2 0 0) u == some 0 && loadWay e0 (ea0 x 2 0 0) 4 u == .out && !x.chordsAt false && (u.gate 0).fresh,
    loadAt e0 atGate == some (4, 0x0C001000) && fgNextAt e0 0x0C001000 atGate == some 0,
    meets (.load 4 1 2 0 0) emptyGate fun u x => room x && ea0 x 2 0 0 % 4 == 0 && fgNextAt e0 (ea0 x 2 0 0) u == some 0 && loadWay e0 (ea0 x 2 0 0) 4 u == .out && !(u.gate 0).fresh && !((endJob 0 u).gate 0).fresh,
    meets (.load 4 1 2 0 0) nextGate fun u x => room x && ea0 x 2 0 0 % 4 == 0 && fgNextAt e0 (ea0 x 2 0 0) u == some 0 && loadWay e0 (ea0 x 2 0 0) 4 u == .out && !(u.gate 0).fresh && ((endJob 0 u).gate 0).fresh,
    meets (.load 4 1 2 0 0) (core (enc 0x14 1 2 0) { at2 0x100 with stores := [{ addr := 0x100, bytes := [1, 2, 3, 4] }] }) fun u x => x.loads.length < 4 && loadWay e0 (ea0 x 2 0 0) 4 u == .forward [1, 2, 3, 4],
    meets (.load 4 1 2 0 0) (core (enc 0x14 1 2 0) { at2 0x100 with stores := [{ addr := 0x102, bytes := [1, 2, 3, 4] }] }) fun u x => loadWay e0 (ea0 x 2 0 0) 4 u == .wait,
    meets (.load 5 1 2 0 0) (core (enc 0x15 1 2 0) (at2 0x101)) fun u x => room x && loadsOk (ea0 x 2 0 0 / 4 * 4) 4 u,
    meets (.load 5 1 2 0 0) (core (enc 0x15 1 2 0) (at2 0x09000001)) fun u x => room x && loadsErr (ea0 x 2 0 0 / 4 * 4) 4 u,
    (core 0 { ({} : Engine) with loads := [{ writes := [(1, 2)] }] }).coreLive e0,
    meets (.store 3 4 2 0 0) (core (enc 0x1B 4 2 0) (at2 0x100)) fun u x => room x && isGo e0 (ea0 x 2 0 0) (leBytes 8 (x.pair 4)) u == none,
    meets (.store 2 1 2 0 0) (core (enc 0x1A 1 2 0) ((at2 0x0C002008).setReg 1 1)) fun u x => room x && isGo e0 (ea0 x 2 0 0) (leBytes 4 (x.reg 1).toNat) u == some (0, 0) && x.priv != 0,
    meets (.store 2 1 2 0 0) (core (enc 0x1A 1 2 0) { ((at2 0x0C002008).setReg 1 1) with priv := 0 }) fun u x => room x && isGo e0 (ea0 x 2 0 0) (leBytes 4 (x.reg 1).toNat) u == some (0, 0) && x.priv == 0 && x.loads == [],
    (storeReady e0 ((acking 0x100).engine e0) 0).isSome && (storeReady e0 ((acking 0x100).engine e0) 1).isNone && isGo e0 0x100 [1, 2, 3, 4] (acking 0x100) == none && (writePieces e0 0 [1, 2, 3, 4] (pieces 0x100 4) 0 ((acking 0x100).setEngine e0 fun y => { y with stores := [] })).1 == none,
    (writePieces e0 0 [1, 2, 3, 4] (pieces 0x09000000 4) 0 ((acking 0x09000000).setEngine e0 fun y => { y with stores := [] })).1 == some 0x09000000,
    isGo e0 0x41102008 [1, 0, 0, 0] goingOut == some (1, 0) && (writePieces e0 0 [1, 0, 0, 0] (pieces 0x41102008 4) 0 (goingOut.setEngine e0 fun y => { y with stores := [] })).1 == some 0x41102008,
    meets (.amo 3 1 2 3) (core (enc 0x1C 1 2 (3 * 4096 + 3 * 128)) (at2 0x100)) fun u x => room x && regionOf x.remap 0x100 == .lsp 0x100 && (allBytes (memLoad (.lsp 0 0) 0x100 4 u).1).isSome && (memStore (.lsp 0 0) 0x100 [1, 2, 3, 4] (memLoad (.lsp 0 0) 0x100 4 u).2).1,
    meets (.amo 3 1 2 3) (core (enc 0x1C 1 2 (3 * 4096 + 3 * 128)) (at2 0x10000000)) fun u x => room x && regionOf x.remap 0x10000000 == .csm 0 && u.csmOk 0 && (allBytes (memLoad (.csm 0) 0 4 u).1).isSome && (memStore (.csm 0) 0 [1, 2, 3, 4] (memLoad (.csm 0) 0 4 u).2).1,
    meets (.amo 0 1 2 3) (core (enc 0x1C 1 2 (3 * 128)) (at2 0x102)) fun _ x => (x.reg 2).toNat % 4 != 0 && x.loads == [],
    meets (.paired 0x441 0x862) (core (0x80000862 + 0x441 * 65536) {}) fun _ _ => !sopMem 0x441 && !sopMem 0x862,
    meets (.paired 0x5441 0) (core (0x80000000 + 0x5441 * 65536) (at2 0x100)) fun u x => room x && ([0x5441, 0].find? sopMem) == some 0x5441 && bitsAt 0x5441 10 5 == 21 && isGo e0 (x.reg (bitsAt 0x5441 5 5)).toNat (leBytes 4 (x.reg (bitsAt 0x5441 0 5)).toNat) u == none,
    meets (.paired 0x5022 0) (core (0x80000000 + 0x5022 * 65536) (at2 0x100)) fun u x => room x && ([0x5022, 0].find? sopMem) == some 0x5022 && bitsAt 0x5022 10 5 != 21 && (fgNextAt e0 (x.reg (bitsAt 0x5022 0 5)).toNat u).isNone && loadsOk (x.reg (bitsAt 0x5022 0 5)).toNat 4 u
    ]).all id = true := by
  decide +kernel
theorem witness_ScalarControlRows : ([
    issuesAs (.branch true 3 1) (enc 0x21 3 0 1) {}, issuesAs (.jump false 0x1FFFFFF) (enc 0x22 31 31 0x7FFF) {}, issuesAs (.jump true 1) (enc 0x23 0 0 1) {}, issuesAs (.jalr 1 2 0x7FFF) (enc 0x24 1 2 0x7FFF) {},
    issuesAs (.loop 1 true 3 4) (enc 0x28 24 0 (3 * 8192 + 4)) {}, issuesAs (.loop 0 false 1023 1) (enc 0x28 7 31 (3 * 8192 + 1)) {}, issuesAs (.mfc 1 8) (enc 0x2C 1 0 8) {} && cregReadable 3 8,
    issuesAs (.mfc 1 0x1E) (enc 0x2C 1 0 0x1E) {}, issuesAs (.mfc 1 1) (enc 0x2C 1 0 1) { ({} : Engine) with priv := 0 } && !cregReadable 0 1, issuesAs (.mtc 1 8) (enc 0x2C 1 2 8) {} && cregWritable 3 8,
    issuesAs (.mtc 1 0) (enc 0x2C 1 2 0) { (({} : Engine).setReg 1 2) with priv := 1 } && cregWritable 1 0, issuesAs (.mtc 1 0) (enc 0x2C 1 2 0) { (({} : Engine).setReg 1 3) with priv := 1 }, issuesAs (.mtc 1 0) (enc 0x2C 1 2 0) { ({} : Engine) with priv := 0 } && !cregWritable 0 0,
    issuesAs (.syscall 255) (enc 0x2C 0 4 255) {}, issuesAs (.brk 255) (enc 0x2C 0 6 255) {}, issuesAs .rfe (enc 0x2C 0 8 0) {}, issuesAs .rfe (enc 0x2C 0 8 0) { ({} : Engine) with priv := 0 }, issuesAs .sync (enc 0x2C 0 10 0) {},
    issuesAs .iflush (enc 0x2C 0 12 0) {}, issuesAs .wait (enc 0x2C 0 14 0) { ({} : Engine) with irqPend := 1, irqEn := 1 }, issuesAs .wait (enc 0x2C 0 14 0) {}]).all id = true := by
  decide +kernel
/-- Engine 0 of course 0 in a state of its own. -/
def engine (x : Engine) : State := { forced with eng := { tab := [(0, x)] } }
def pended : Engine := { ({} : Engine) with st := .run, run := true, remap := false, ie := true, irqPend := 8, irqEn := 8 }
/-- Source 3 above a source 0 that is being entered. -/
def taken : Engine := { pended with irqPend := 9, irqEn := 9, irqLvl0 := 0xC0 }
def entry (a : Option (Nat × List Byte)) : EntryRun := { source := some 0, oldPriv := 3, oldIe := true, oldG30 := 0, stackAt := a, stores := [] }
def starting (p : PrivStart) : Engine := { pended with starts := [p] }
def dmaStart : State := { engine (starting (.dma 2 4)) with dma := { ({} : Dma) with ch := [(2, { ({} : DmaCh) with code := 1, starter := some (e0, 4) })] } }
/-- The state after a WAIT that ends. -/
def waitOver : State := (engine { pended with waiting := true }).setEngine e0 fun x => (x.results []).retire 0 none
theorem witness_EngineEventRows : ([
    forced.alive && Eng.ok e0, (4 : W32).getLsbD 2 && !(3 : W32).getLsbD 2 && (3 : W32).getLsbD 0 && !(2 : W32).getLsbD 0, (engine { ({} : Engine) with st := .idle }).engine e0 == { ({} : Engine) with st := .idle },
    irqTop pended == some 3, waitOver.atBoundary e0 && (waitOver.engine e0).irqDue && (waitOver.engine e0).asyncQ == [] && pended.irqPend &&& pended.irqEn != 0, ({} : Engine).st == .off && ({ ({} : Engine) with st := .bist } : Engine).st == .bist, (entry none).age ≤ 7 && 7 < ({ entry none with age := 8 } : EntryRun).age && ({ entry none with source := none } : EntryRun).source == none, (engine pended).atBoundary e0, !pended.waiting && pended.asyncQ == [] && pended.delay == none && pended.mtc == none, irqTop ({} : Engine) == none,
    (engine { pended with asyncQ := [.buserr 4] }).atBoundary e0 && !pended.esc, (engine { pended with asyncQ := [.startErr true 4] }).atBoundary e0, (engine { pended with asyncQ := [.buserr 4], esc := true }).atBoundary e0,
    (engine { taken with entry := some (entry none) }).coreLive e0 && irqTop taken == some 3 && irqBefore taken 3 0, regionOf false 0x100 == .lsp 0x100,
    ({ pended with window := 5 } : Engine).window != 0, ({} : Engine).st == .off, (starting (.stream 1 4)).starts.find? (checkable e0 (engine (starting (.stream 1 4)))) == some (.stream 1 4),
    (starting (.dma 2 4)).starts.find? (checkable e0 dmaStart) == some (.dma 2 4), ({} : Engine).starts.find? (checkable e0 (engine {})) == none]).all id = true := by
  decide +kernel
/-- A vector word's low fifteen bits: its second group, mask bit, source and function (R294). -/
def vlow (vs2 vm src func : Nat) : Nat := vs2 * 1024 + vm * 512 + src * 128 + func
/-- An engine of the shape and length given, with addresses in g2 and g4. -/
def vec (shape : W32) (vl : Nat) : Engine := { ((at2 0x100).setReg 4 0x100) with vshape := shape, vl := vl }
def vaMeets (c : EClass) (op : EOp) (w shape : W32) : Bool :=
  meets op (core w (vec shape 4)) fun _ x => op.cls == c && x.vq.length < 4 && (match op with | .va major vd v1 vs2 vm src func => !vaIllegal (shapeOf x.vshape) major vd v1 vs2 vm src func | _ => false)
def elems (x : Engine) (vm : Bool) : List Nat := ((List.range x.vl).drop x.vpos).filter fun i => vm || vmask x.v 0 i
/-- The vector queue still has room after the elements have moved. -/
def wholeRoom (st : Bool) (u : State) (x : Engine) : Bool :=
  (((List.range (8 * (shapeOf x.vshape).grp)).foldl (fun z k => vecMove e0 st 2 64 k ((x.reg 2).toNat + 8 * k) z) u).engine e0).vq.length < 4
def elemRoom (st : Bool) (r2 mode eew : Nat) (u : State) (x : Engine) : Bool :=
  (((elems x true).foldl (fun z i => vecMove e0 st 2 (shapeOf x.vshape).sew i (elemAddr x (shapeOf x.vshape) 2 r2 mode eew i).toNat z) u).engine e0).vq.length < 4
theorem witness_VectorRows : ([
    issuesAs (.setvl 1 2) (enc 0x30 1 2 0) (vec 8 0), issuesAs (.shape 63) (enc 0x30 0 0 (4096 + 63)) {}, meets (.shaper 3) (core (enc 0x30 0 3 8192) {}) fun _ x => (x.reg 3).toNat < 64,
    meets (.shaper 2) (core (enc 0x30 0 2 8192) (at2 64)) fun _ x => 64 ≤ (x.reg 2).toNat && x.loads == [], meets (.vrds 1 2) (core (enc 0x30 1 0 (3 * 4096 + 2048)) {}) fun _ x => x.vq.length < 4,
    meets (.vrds 0 0) (core (enc 0x30 0 0 (3 * 4096)) {}) fun _ x => x.vq.length < 4, meets (.vwrs 2) (core (enc 0x30 0 2 (4 * 4096)) {}) fun _ x => x.vq.length < 4,
    vaMeets .vectorArith (.va 0x31 2 3 4 true 0 0) (enc 0x31 2 3 (vlow 4 1 0 0)) 8, vaMeets .vectorCompare (.va 0x31 0 3 4 false 2 23) (enc 0x31 0 3 (vlow 4 0 2 23)) 8, vaMeets .vectorReduction (.va 0x35 1 3 4 true 0 0) (enc 0x35 1 3 (vlow 4 1 0 0)) 8,
    vaMeets .vectorPermute (.va 0x35 2 3 4 true 1 4) (enc 0x35 2 3 (vlow 4 1 1 4)) 8, vaMeets .vgetVput (.va 0x35 2 3 4 true 0 8) (enc 0x35 2 3 (vlow 4 1 0 8)) 12, vaMeets .vgetVput (.va 0x35 2 4 4 true 0 9) (enc 0x35 2 4 (vlow 4 1 0 9)) 12,
    meets (.va 0x31 0 3 4 false 0 0) (core (enc 0x31 0 3 (vlow 4 0 0 0)) (vec 8 4)) fun _ x => vaIllegal (shapeOf x.vshape) 0x31 0 3 4 false 0 0 && x.loads == [],
    (core 0 { ({} : Engine) with vq := [{ flags := 1 }] }).alive && !((core 0 { ({} : Engine) with vq := [{ flags := 1 }] }).engine e0).vq.isEmpty,
    meets (.vmem false 2 2 0 true 3 0) (core (enc 0x36 2 2 (vlow 0 1 3 0)) (vec 9 4)) fun u x => wholeRoom false u x && !vecWaits x && x.vq == [] && x.loads == [] && !vmIllegal (shapeOf x.vshape) false 2 0 true 3 0 && wholeCheck x (shapeOf x.vshape) false (x.reg 2).toNat == none,
    meets (.vmem true 2 2 0 true 3 0) (core (enc 0x37 2 2 (vlow 0 1 3 0)) (vec 9 4)) fun u x => wholeRoom true u x && !vecWaits x && x.vq == [] && x.loads == [] && !vmIllegal (shapeOf x.vshape) true 2 0 true 3 0 && wholeCheck x (shapeOf x.vshape) true (x.reg 2).toNat == none,
    meets (.vmem false 2 2 0 true 0 0) (core (enc 0x36 2 2 (vlow 0 1 0 0)) (vec 8 4)) fun u x => elemRoom false 0 0 0 u x && !vecWaits x && x.vq == [] && x.loads == [] && !vmIllegal (shapeOf x.vshape) false 2 0 true 0 0 && (elems x true).length == 4 &&
      (elems x true).all fun i => elemCheck x (shapeOf x.vshape) false (elemAddr x (shapeOf x.vshape) 2 0 0 0 i).toNat == none,
    meets (.vmem true 2 2 4 true 1 0) (core (enc 0x37 2 2 (vlow 4 1 1 0)) (vec 8 4)) fun u x => elemRoom true 4 1 0 u x && !vecWaits x && x.vq == [] && x.loads == [] && !vmIllegal (shapeOf x.vshape) true 2 4 true 1 0 && (elems x true).length == 4 &&
      (elems x true).all fun i => elemCheck x (shapeOf x.vshape) true (elemAddr x (shapeOf x.vshape) 2 4 1 0 i).toNat == none,
    meets (.vmem false 2 2 3 true 2 1) (core (enc 0x36 2 2 (vlow 3 1 2 32)) (vec 8 4)) fun u x => elemRoom false 3 2 1 u x && !vecWaits x && x.vq == [] && x.loads == [] && !vmIllegal (shapeOf x.vshape) false 2 3 true 2 1 && (elems x true).length == 4 &&
      (elems x true).all fun i => elemCheck x (shapeOf x.vshape) false (elemAddr x (shapeOf x.vshape) 2 3 2 1 i).toNat == none]).all id = true := by
  decide +kernel
/-- A descriptor in LSP at 0x100, as the smallest chord needs it. -/
def chordAt (d : List Byte) (w : W32) (x : Engine) : State := (memStore (.lsp 0 0) 0x100 d (core w x)).2
def startsOk (a : Nat) (s : State) : Bool := (match startCheck e0 a s.restartMode s with | (.ok _, _) => true | _ => false)
def startsErr (a : Nat) (s : State) : Bool := (match startCheck e0 a s.restartMode s with | (.error _, v) => (v.engine e0).loads == [] | _ => false)
/-- Convert four signed bytes at 0x200 to 0x300. -/
def aDesc : List Byte := leBytes 4 0x00200219 ++ leBytes 4 4 ++ zeroBytes 8 ++ leBytes 4 0x200 ++ leBytes 4 1 ++ zeroBytes 28 ++ leBytes 4 0x300 ++ leBytes 4 1 ++ zeroBytes 4
def someChord : Chord := { ticket := 0, instr := 0, addr := 0x100, descs := [aDesc], handler := false, checked := true, restart := false, bank := 0, state := .running }
theorem witness_StreamRows : ([
    meets (.sstart 1 2) (chordAt aDesc (enc 0x38 1 2 0) (at2 0x100)) fun u x => u.ready Rdy.ucode && !x.storesOut x.storeSeq && x.su.chords == [] && x.loads == [] && startsOk (x.reg 2).toNat u,
    meets (.sstart 1 2) (chordAt (0xFF :: aDesc) (enc 0x38 1 2 0) (at2 0x100)) fun u x => u.ready Rdy.ucode && !x.storesOut x.storeSeq && x.su.chords == [] && x.loads == [] && startsErr (x.reg 2).toNat u,
    meets (.sstart 0 2) (core (enc 0x38 0 2 0) (at2 0x101)) fun u x => u.ready Rdy.ucode && !x.storesOut x.storeSeq && x.su.chords == [] && x.loads == [] && startsErr (x.reg 2).toNat u,
    meets (.sstarta 1 2) (core (enc 0x38 1 2 4096) {}) fun u x => u.ready Rdy.ucode && x.priv != 0 && x.su.chords == [] && x.starts == [], meets (.sstarta 1 2) (core (enc 0x38 1 2 4096) { ({} : Engine) with priv := 0 }) fun _ x => x.priv == 0 && x.loads == [],
    meets (.swait 1 2) (core (enc 0x38 1 2 8192) (at2 255)) fun _ x => x.su.chords == [], issuesAs (.sstat 1 5) (enc 0x38 1 0 (3 * 4096 + 5 * 256)) {},
    meets (.swait 1 2) (core (enc 0x38 1 2 8192) { at2 0 with su := { ({} : StreamUnit) with chords := [someChord] } }) fun _ x => x.su.chords.any (·.ticket == (x.reg 2).toNat % 256),
    meets (.sstart 1 2) (core (enc 0x38 1 2 0) { at2 0x100 with storeSeq := 1, stores := [{ addr := 0x100, bytes := [1] }] }) fun _ x => x.storesOut x.storeSeq,
    meets .scancel (core (enc 0x38 0 0 (4 * 4096)) {}) fun _ x => x.priv != 0, meets .scancel (core (enc 0x38 0 0 (4 * 4096)) { ({} : Engine) with priv := 0 }) fun _ x => x.priv == 0 && x.loads == []]).all id = true := by
  decide +kernel
/-- The chord of `aDesc`, as started. -/
def aChord : Chord := { ticket := 0, instr := 0, addr := 0x100, descs := [aDesc], handler := false, checked := true, restart := false, bank := 0, state := .running }
def withChord (c : Chord) : Engine := { pended with su := { ({} : StreamUnit) with chords := [c] } }
/-- An engine whose chord's destination is a hole in the address space. -/
def holeDesc : List Byte := leBytes 4 0x00200219 ++ leBytes 4 4 ++ zeroBytes 8 ++ leBytes 4 0x200 ++ leBytes 4 1 ++ zeroBytes 28 ++ leBytes 4 0x09000000 ++ leBytes 4 1 ++ zeroBytes 4
def runNow (c : Chord) (s : State) : ChordRun := chordRun e0 c s
def commits (c : Chord) (k : Nat) (s : State) : Option Nat × State := commitTo e0 c (runNow c s) k s
def stays (c : Chord) (s : State) : Bool := ((s.engine e0).su.chords.find? (·.ticket == c.ticket)).isSome
def staged : Chord := { aChord with staged := true, restart := true }
def stopped : Chord := { aChord with state := .stopping, index := 4 }
/-- The slot of a stopped chord: tag 1, the rest 0, and its CRC. -/
def slot : List Byte := [1] ++ zeroBytes 251
def inSlot (b : List Byte) : State := (memStore (.lsp 0 0) 0x3FF00 b (engine (withChord { aChord with state := .stopped }))).2
def spoilt (key cw : Nat) (s : State) : State := s.setEcc key fun r => { r with bad := [(cw, [(3, 1), (4, 1)])] }
theorem witness_ChordRows : ([
    (engine (withChord { aChord with state := .queued })).suLive e0 && nextChord (withChord { aChord with state := .queued }).su == some { aChord with state := .queued } && !(withChord aChord).storesOut 0,
    (engine (withChord aChord)).alive && (withChord aChord).su.active == some aChord && !aChord.cancel && endedBad (withChord aChord).su == none,
    endedBad (putThread 0 { ({} : UThread) with ended := some 3 } (withChord aChord).su) == some (3, 0),
    (commits aChord (runNow aChord (engine (withChord aChord))).index (touchSources e0 aChord (runNow aChord (engine (withChord aChord))) (engine (withChord aChord)))).1 == none,
    stays aChord (commits aChord (runNow aChord (engine (withChord aChord))).index (engine (withChord aChord))).2,
    (runNow aChord (engine (withChord aChord))).index == 4,
    (let c := { aChord with descs := [holeDesc] }; let s := engine (withChord c); (commits c (runNow c s).index (touchSources e0 c (runNow c s) s)).1 == some 3 && stays c (commits c (runNow c s).index s).2),
    (let s := engine (withChord staged); let w := commits staged (runNow staged s).index (touchSources e0 staged (runNow staged s) s); w.1 == none && (drainStage e0 staged w.2).1 && stays staged (drainStage e0 staged w.2).2),
    (withChord stopped).su.active == some stopped && (stopIndex stopped (runNow stopped (engine (withChord stopped))) (engine (withChord stopped))).1 == 4,
    (let c := { stopped with cancel := true }; stays c (commitTo e0 c (runNow c (engine (withChord c))) 4 (touchSources e0 c { runNow c (engine (withChord c)) with code := 0 } (engine (withChord c)))).2),
    (withChord { stopped with restart := true, committed := true }).su.active == some { stopped with restart := true, committed := true }, (withChord stopped).st != .halt,
    (withChord { aChord with state := .stopped }).su.waiting .stopped == some { aChord with state := .stopped }, (inSlot []).suLive e0,
    (allBytes (memLoad (.lsp 0 0) 0x3FF00 256 (spoilt 0 8184 (inSlot []))).1) == none,
    (withChord { aChord with state := .abandoned, committed := true }).su.waiting .abandoned == some { aChord with state := .abandoned, committed := true }, (withChord { aChord with state := .abandoned }).su.waiting .abandoned == some { aChord with state := .abandoned },
    startsOk 0x100 (memStore (.lsp 0 0) 0x100 aDesc (engine (withChord { aChord with state := .abandoned }))).2, startsErr 0x101 (engine (withChord { aChord with state := .abandoned })), stopped.trap != some false]).all id = true := by
  decide +kernel
/-- The CRC-32C register after `n` more zero bytes. -/
def zeros (n : Nat) (x : W32) : W32 := (List.replicate n (0 : Byte)).foldl crc32cByte x
theorem zeros_add (m n : Nat) (x : W32) : zeros (m + n) x = zeros n (zeros m x) := by
  simp only [zeros, ← List.replicate_append_replicate, List.foldl_append]
theorem test_slot_crc : crc32c slot = w32 1942027060 := by
  have h : slot.foldl crc32cByte 0xFFFFFFFF#32 = zeros (25 + (25 + (25 + (25 + (25 + (25 + (25 + (25 + (25 + (25 + 1)))))))))) (crc32cByte 0xFFFFFFFF#32 1) := rfl
  rw [crc32c, h]
  rw [zeros_add, show zeros 25 (crc32cByte 0xFFFFFFFF#32 1) = 46637670#32 by decide +kernel]
  rw [zeros_add, show zeros 25 46637670#32 = 348663344#32 by decide +kernel]
  rw [zeros_add, show zeros 25 348663344#32 = 1581335970#32 by decide +kernel]
  rw [zeros_add, show zeros 25 1581335970#32 = 1163769758#32 by decide +kernel]
  rw [zeros_add, show zeros 25 1163769758#32 = 2190718633#32 by decide +kernel]
  rw [zeros_add, show zeros 25 2190718633#32 = 963458210#32 by decide +kernel]
  rw [zeros_add, show zeros 25 963458210#32 = 3797769775#32 by decide +kernel]
  rw [zeros_add, show zeros 25 3797769775#32 = 679941986#32 by decide +kernel]
  rw [zeros_add, show zeros 25 679941986#32 = 2734187500#32 by decide +kernel]
  rw [zeros_add, show zeros 25 2734187500#32 = 4197790254#32 by decide +kernel]
  decide +kernel
def slotFull : List Byte := slot ++ leBytes 4 1942027060
theorem witness_resume : (allBytes (memLoad (.lsp 0 0) 0x3FF00 256 (inSlot slotFull)).1 == some slotFull && (inSlot slotFull).suLive e0 && leNat (slotFull.take 1) == 1 && slotFull.length == 256 && slotFull.take 252 == slot && w32 (leNat (slotFull.drop 252)) == w32 1942027060) = true ∧
    crc32c (slotFull.take 252) = w32 (leNat (slotFull.drop 252)) := by
  refine ⟨by decide +kernel, ?_⟩
  rw [show slotFull.take 252 = slot by decide +kernel, test_slot_crc]
  decide +kernel
/-- A microword: class, condition, target and operand (R343). -/
def mw (cls cond tgt opnd : Nat) : W64 := BitVec.ofNat 64 (cls * 2 ^ 60 + cond * 2 ^ 50 + tgt * 2 ^ 32 + opnd)
def onThread (th : Nat) (c : Chord) (x : UThread) : State := engine { withChord c with su := putThread th { x with active := true } (withChord c).su }
def mwReady (th : Nat) (word : W64) (cls : Nat) (holds : Bool) (s : State) : Bool :=
  match activeChord e0 th s with
  | none => false
  | some (c, bs) =>
    let x := threadOf (s.engine e0).su th
    let p := bankOf (s.engine e0).su c.bank
    s.suLive e0 && nextThread (s.engine e0).su == some th && c.trap != some true && wordMapped p x.upc && wordStands p x.upc word && (parseMw word).cls == cls &&
      condHolds (s.engine e0).su c (parseDesc bs) th x (parseMw word).cond == holds
theorem mwReady_spec {th : Nat} {word : W64} {cls : Nat} {holds : Bool} {s : State} (h : mwReady th word cls holds s = true) :
    ∃ c bs, MwReady e0 th word cls s c bs ∧ (MwHolds e0 th word s c bs ↔ holds = true) := by
  unfold mwReady at h
  split at h
  · cases h
  · rename_i c bs e
    simp only [Bool.and_eq_true, bne_iff_ne, beq_iff_eq] at h
    obtain ⟨⟨⟨⟨⟨⟨a, b⟩, d⟩, f⟩, g⟩, k⟩, l⟩ := h
    exact ⟨c, bs, ⟨e, a, b, d, f, g, k⟩, by rw [MwHolds, l]⟩
/-- A STAGE word issued, nothing moved yet. -/
def stepped (c : Chord) : State := (onThread 0 c {}).modSu e0 fun su => passCycles 0 (parseMw (mw 9 0 0 1)).cyc (putThread 0 (mwNext (threadOf su 0)) su)
def two : Chord := { aChord with descs := [aDesc, aDesc] }
/-- The first operation's thread has ended. -/
def afterFirst : State := (onThread 1 two {}).modSu e0 fun u => putThread 0 { (threadOf u 0) with ended := some 0 } u
theorem witness_MicrowordRows : ([
    ([0, 1, 2, 3, 4, 5, 6, 7, 8, 9, 10] : List Nat).all (fun k => mwReady 0 (mw k 1 0 0) k false (onThread 0 aChord {})), ([0, 1, 2, 3, 4, 5, 6, 7, 8, 9, 10] : List Nat).all (fun k => mwReady 0 (mw k 2 0 0) k true (onThread 0 aChord {})),
    mwReady 0 (mw 6 0 0x3FFF 1) 6 true (onThread 0 aChord {}), mwReady 0 (mw 7 0 0 (1 * 2 ^ 28 + 5)) 7 true (onThread 0 aChord {}), mwReady 0 (mw 7 0 0 (1 * 2 ^ 28 + 1)) 7 true (onThread 0 aChord {}),
    mwReady 1 (mw 4 0 0 (2 * 65536)) 4 true (onThread 1 two {}), bitsAt (parseMw (mw 3 0 0 (2 * 2 ^ 28))).opnd 28 4 == 2,
    mwReady 0 (mw 3 0 0 (3 * 2 ^ 28 + 2 * 2 ^ 20)) 3 true (onThread 0 aChord { execd := 4 }) && bitsAt (parseMw (mw 3 0 0 (3 * 2 ^ 28 + 2 * 2 ^ 20))).opnd 28 4 == 3 && aChord.descs.length == 1,
    mwReady 1 (mw 10 0 0 0) 10 true (onThread 1 two {}) && !cwaitOver ((onThread 1 two {}).engine e0).su 1, mwReady 1 (mw 10 0 0 0) 10 true afterFirst && cwaitOver (afterFirst.engine e0).su 1,
    mwReady 0 (mw 9 0 0 1) 9 true (onThread 0 staged {}) && !staged.committed && (parseMw (mw 9 0 0 1)).opnd == 1,
    (let s := stepped staged; let w := commits staged (runNow staged s).index s; w.1 == none && (drainStage e0 staged (w.2.modChord e0 0 fun d => { d with committed := true })).1),
    (let s := onThread 3 { aChord with descs := [aDesc, aDesc, aDesc, aDesc] } { upc := 0x4000 }; (activeChord e0 3 s).isSome && s.suLive e0 && nextThread (s.engine e0).su == some 3 && aChord.trap != some true && !wordMapped (bankOf (s.engine e0).su 0) (threadOf (s.engine e0).su 3).upc)]).all id = true := by
  decide +kernel
/-- A word stuck on its way: a store to a register window, a load from one, a DMA channel, and the same through a remote window. -/
def loadAtWin (a : W32) : State := core (enc 0x14 1 2 0) (at2 a)
def dmaDesc (ctl n0 src dst : Nat) : List Byte := leBytes 4 ctl ++ leBytes 2 (n0 - 1) ++ zeroBytes 10 ++ leBytes 8 src ++ leBytes 8 dst ++ leBytes 4 4 ++ zeroBytes 8 ++ leBytes 4 4 ++ zeroBytes 8 ++ zeroBytes 8
def moving (c : DmaCh) : State := { forced with dma := { forced.dma with ch := [(2, { c with code := 1 })] } }
def dma4 : DmaCh := { ({} : DmaCh) with desc := some (dmaDesc 0x00A00000 2 0x1000000000 0x1000000100) }
def dmaHole : DmaCh := { ({} : DmaCh) with desc := some (dmaDesc 0x00A00000 2 0x3000000000 0x1000000100) }
def windowed (s : State) : State := { s with brl := { s.brl with wins := [(1, { cube := 1, base := 0, size := 4096 })] } }
def remoteDma : DmaCh := { ({} : DmaCh) with desc := some (dmaDesc 0x00A00000 2 0x8400000000 0x1000000100) }
def isBar0 (a : Nat) : Bool := match target40 a with | .bar0 _ => true | _ => false
def timedFab (s : State) : State := raiseFault Src.fabTimeout 0 unitNone { s with fab := { s.fab with errValid := true, errTimeout := true, errWrite := false, errMaster := 0, errAddr := 0 } }
def wrongs (p : List (Nat × Byte)) : State := up.setEcc 0 fun r => { r with bad := [(8703, p)], back := [8703] }
theorem witness_MemoryRows : ([
    ((wrongs [(3, 1)]).ecc (MemInst.key (.lsp 0 0))).back.contains 8703, 8703 < instCws (MemInst.key (.lsp 0 0)) up, (up.ecc 0).bad.isEmpty && (up.ecc 0).armed == none, ((wrongs []).ecc 0).bad.isEmpty == false,
    (let m := eccMeet { key := 0, idx := 8703, start := 8703 * 32, k := 32 } true (wrongs []); eccDecode 32 m.1 == .clean),
    (let m := eccMeet { key := 0, idx := 8703, start := 8703 * 32, k := 32 } true (wrongs [(3, 1)]); eccDecode 32 m.1 == .corrected 3 1),
    (let m := eccMeet { key := 0, idx := 8703, start := 8703 * 32, k := 32 } true (wrongs [(3, 1), (4, 1)]); eccDecode 32 m.1 == .uncorrectable),
    Eng.ok ⟨15, 12⟩ && tabGet ({ up with fab := { up.fab with starve := [(15, 1)] } } : State).fab.starve 15 0x1000 != 0, rowInRange (.csm 15 7 2047), rowInRange (.dram 3 63), !rowInRange (.csm 0 8 0),
    isBar0 0x3000000000 && hangs .pf 0x3000000000 true up, !up.fab.errValid, ({ up with fab := { up.fab with errValid := true } } : State).fab.errValid, isBar0 0x3001001000 && hangs (.engine 0 0) 0x3001001000 false (loadAtWin 0x0C001000),
    hangsLoad e0 0x3001001000 (timedFab (loadAtWin 0x0C001000)) == some 0x0C001000, hangs (.engine 0 0) 0x3001001000 true (acking 0x0C001000),
    hangsStore e0 0x3001001000 (timedFab (acking 0x0C001000)) == some 0 && (storeReady e0 ((timedFab (acking 0x0C001000)).engine e0) 0).isSome && isGo e0 0x0C001000 [1, 2, 3, 4] (timedFab (acking 0x0C001000)) == none,
    hangs (.courseDma 0) 0x3000000000 false (moving dmaHole), hangsDma 0 0x3000000000 false (timedFab (moving dmaHole)) == some 2,
    (tabFind (windowed up).brl.wins 1).isSome && target40 0x8400000000 == .remote 1 0, hangs (.vf 3) 0x8400000000 false (windowed up), hangs (.engine 0 0) 0x8400000000 false (windowed (loadAtWin 0x62000000)),
    (hangsLoad e0 0x8400000000 (raiseFault Src.brlTimeout (w64 (remoteLink 0x8400000000 (windowed (loadAtWin 0x62000000)))) unitNone (windowed (loadAtWin 0x62000000)))) == some 0x62000000,
    hangsDma 0 0x8400000000 false (raiseFault Src.brlTimeout 0 unitNone (windowed (moving remoteDma))) == some 2, (0x80000000 : W32).getLsbD 31, !(0x7FFFFFFF : W32).getLsbD 31]).all id = true := by
  decide +kernel
/-- A descriptor in CSM at 0x1000. -/
def fetchDma (d : List Byte) (cur : W64) : State := (memStore (.csm 0) 0x1000 d (moving { ({} : DmaCh) with cur := cur })).2
def goingIn : Engine := { pended with stores := [{ addr := 0x0C002008, bytes := [1, 0, 0, 0] }] }
def dmaDone (d : List Byte) (n : Nat) (s : State) : Bool := (moveFlush 0 (parseDma d) n s).1 == .done
def one : List Byte := dmaDesc 0x00A00000 1 0x1000000000 0x1000000100
theorem witness_DmaRows : ([
    dmaMaster (.engine 0 12) 0 && dmaMaster .pf 15 && !dmaRunning (forced.dmaCh 255) && dmaRunning ((moving {}).dmaCh (dmaKey 0 2)), 
    goStore e0 0 0 (engine goingIn) == some 0 && goStore e0 0 0 (engine pended) == none && !dmaMaster (.vf 1) 0 && !dmaMaster (.courseDma 0) 0, ((moving {}).dmaCh 2).desc == none, dmaAddrOk (fetchDma one 0x1000001000) 0 0x1000001000,
    (fetchDma one 0x1000001000).memAt 0 (target40 0x1000001000) 64 == some (.csm 0, 0x1000), (allBytes (memLoad (.csm 0) 0x1000 64 (fetchDma one 0x1000001000)).1) == some one, dmaCause (fetchDma one 0x1000001000) 0 one == none,
    dmaCause (fetchDma one 0x1000001000) 0 (dmaDesc 0x10A00000 1 0x1000000000 0x1000000100) == some 2, (allBytes (memLoad (.csm 0) 0x1000 64 (spoilt 208 0x100 (fetchDma one 0x1000001000))).1) == none,
    dmaAddrOk (fetchDma one 0x1000001020) 0 0x1000001020 == false, ((moving dma4).dmaCh 2).desc == some (dmaDesc 0x00A00000 2 0x1000000000 0x1000000100) && dmaDone (dmaDesc 0x00A00000 2 0x1000000000 0x1000000100) 2 (moving dma4),
    (match (moveFlush 0 (parseDma (dmaDesc 0x00A00000 2 0x1000000000 0x9000000000)) 2 (moving dma4)).1 with | .fail _ _ => true | _ => false), ((moving { ({} : DmaCh) with stopReq := true }).dmaCh 2).stopReq,
    (parseDma one).total == 1 && dmaDone one 0 (moving dma4).draw.2, (moveElems 0 (parseDma one) 1 1 0 {} (moving dma4).draw.2).1 == .done]).all id = true := by
  decide +kernel
/-- Whatever the free value is, some length of descriptor leaves it a stop before its end. -/
theorem some_rest (x : Nat) (h : x < 2 ^ 64) : ∃ t ∈ ([1, 2, 4, 6, 10, 12, 16, 18, 22, 28, 30, 36, 40, 42, 46, 52] : List Nat), x % (t + 1) ≠ t := by
  by_contra hn
  have d : ∀ t ∈ ([1, 2, 4, 6, 10, 12, 16, 18, 22, 28, 30, 36, 40, 42, 46, 52] : List Nat), (t + 1) ∣ x + 1 := fun t ht => by
    have e : x % (t + 1) = t := by by_contra e; exact hn ⟨t, ht, e⟩
    exact ⟨x / (t + 1) + 1, by have := Nat.div_add_mod x (t + 1); rw [e] at this; rw [Nat.mul_add]; omega⟩
  have m := fun (a b : Nat) (c : Nat.Coprime a b) (p : a ∣ x + 1) (q : b ∣ x + 1) => Nat.Coprime.mul_dvd_of_dvd_of_dvd c p q
  have r := m _ 53 (by decide +kernel) (m _ 47 (by decide +kernel) (m _ 43 (by decide +kernel) (m _ 41 (by decide +kernel) (m _ 37 (by decide +kernel) (m _ 31 (by decide +kernel) (m _ 29 (by decide +kernel) (m _ 23 (by decide +kernel)
    (m _ 19 (by decide +kernel) (m _ 17 (by decide +kernel) (m _ 13 (by decide +kernel) (m _ 11 (by decide +kernel) (m _ 7 (by decide +kernel) (m _ 5 (by decide +kernel) (m 2 3 (by decide +kernel)
    (d 1 (by decide)) (d 2 (by decide))) (d 4 (by decide))) (d 6 (by decide))) (d 10 (by decide))) (d 12 (by decide))) (d 16 (by decide))) (d 18 (by decide))) (d 22 (by decide))) (d 28 (by decide))) (d 30 (by decide))) (d 36 (by decide)))
    (d 40 (by decide))) (d 42 (by decide))) (d 46 (by decide))) (d 52 (by decide))
  have := Nat.le_of_dvd (by omega) r
  omega
def bytesDma (n : Nat) : List Byte := listPatch (listPatch (dmaDesc 0 n 0x1000000000 0x1000000100) 0x20 [1]) 0x2C [1]
def stopping (n : Nat) : State := moving { ({} : DmaCh) with stopReq := true, desc := some (bytesDma n) }
theorem stop_moves : (([1, 2, 4, 6, 10, 12, 16, 18, 22, 28, 30, 36, 40, 42, 46, 52] : List Nat).all fun t => (parseDma (bytesDma t)).total == t && (List.range t).all fun n => dmaDone (bytesDma t) n { stopping t with free := 1 }) = true := by
  decide +kernel
theorem witness_DmaStop : ∃ t v x n w, dmaRunning ((stopping t).dmaCh 2) = true ∧ ((stopping t).dmaCh 2).stopReq = true ∧ ((stopping t).dmaCh 2).desc = some (bytesDma t) ∧ (stopping t).draw = (x, v) ∧
    n = x.toNat % ((parseDma (bytesDma t)).total + 1) ∧ n ≠ (parseDma (bytesDma t)).total ∧ moveFlush 0 (parseDma (bytesDma t)) n v = (.done, w) := by
  obtain ⟨t, ht, hx⟩ := some_rest (Config.freeValue 0).toNat (Config.freeValue 0).isLt
  have a := List.all_eq_true.1 stop_moves t ht
  simp only [Bool.and_eq_true, beq_iff_eq, List.all_eq_true, dmaDone] at a
  have hn : (Config.freeValue 0).toNat % (t + 1) < t := by have := Nat.mod_lt (Config.freeValue 0).toNat (show 0 < t + 1 by omega); omega
  refine ⟨t, { stopping t with free := 1 }, Config.freeValue 0, (Config.freeValue 0).toNat % (t + 1), (moveFlush 0 (parseDma (bytesDma t)) ((Config.freeValue 0).toNat % (t + 1)) { stopping t with free := 1 }).2,
    rfl, rfl, rfl, rfl, by rw [a.1], by rw [a.1]; exact hx, ?_⟩
  rw [← a.2 _ (List.mem_range.2 hn)]
def evs (l : List SenEvent) : State := { up with sen := { up.sen with inflight := l } }
def anEvent : SenEvent := { prod := 508, ch := 111, due := 5, consumers := [.count 159] }
def ball (cfg : W32) : State := { up with sen := { up.sen with tio := [(47, cfg)], ballDue := [(47, 9, true)] } }
def safeBall : State := { ball 1 with pins := { up.pins with safeHeld := true } }
theorem witness_SenRows : up.alive = true ∧ up.ready Rdy.senTmr = true ∧ up.sen.firstDue = none ∧ (evs [anEvent]).sen.firstDue = some 5 ∧ ((ball 1).sen.ballDue.find? fun b => b.1 == 47) = some (47, 9, true) ∧ (up.sen.ballDue.find? fun b => b.1 == 47) = none ∧
    tioFunc ((ball 1).sen.tioCfg 47) = 1 ∧ (ball 1).pins.safeHeld = false ∧ tioFunc ((ball 0).sen.tioCfg 47) ≠ 1 ∧ safeBall.pins.safeHeld = true ∧ (senselKey ⟨15, 12⟩ 7) = 8 * 207 + 7 := by
  decide +kernel
def allOn : State := { up with stroke := { up.stroke with powered := 0xFFFF, inProfile := 0xFFFF, profile := 4 } }
def withTimer (i : Nat) (x : Timer) : State := { allOn with sen := { allOn.sen with timers := [(i, x)] } }
def capWait : CapWait := { value := 5, stamp := 6, ql := .free }
theorem witness_TimerRows : ([
    (withTimer 159 { run := true }).counts 159, (matchUpTo 159 3 (withTimer 159 { run := true })).timer 159 == { ({} : Timer) with run := true }, !allOn.counts 159, ({ mode := 3 } : Timer).mode == 3, ({ mode := 1 } : Timer).mode == 1,
    ({ evs [anEvent] with sen := { (evs [anEvent]).sen with timers := [(159, { mode := 2 })] } } : State).sen.firstDue == some 5 && (evs [anEvent]).sen.inflight.any (fun e => e.due == 5 && e.consumers.contains (.count 159)),
    ((withTimer 0 { carry := true, mode := 1, run := true }).timer 0).carry && (withTimer 0 { carry := true, mode := 1, run := true }).counts 0, !(up.timer 0).carry,
    ((withTimer 0 { arm := 1 }).timer 0).arm.getLsbD 0 && passed 0 0 && ((withTimer 0 { arm := 1 }).timer 0).cmp[0]! == 0, !passed 0 1, (up.timer 0).arm == 0, up.ready Rdy.senTmr, ((withTimer 0 { wait0 := [capWait], wait1 := [capWait, capWait] }).timer 0).wait0 == [capWait],
    (up.timer 159).wait0 == [] && (up.timer 159).wait1 == []]).all id = true := by
  decide +kernel
def port (ty p : Nat) (x : Port) (s : State) : State := { s with ports := { s.ports with ports := [(8 * ty + p, x)] } }
def csiCfg : List Byte := [1] ++ zeroBytes 16 ++ [1] ++ zeroBytes 14
def aFrame : CsiFrame := { entry := zeroBytes 16, frame := 1, base := 0, baseQl := .free, nobase := true, lines := 0, fsVt := 0, fsQl := .free, ls := none }
def framed (p vc : Nat) : State := { port 0 p { cfg := csiCfg } up with ports := { (port 0 p { cfg := csiCfg } up).ports with frames := [(16 * p + vc, aFrame)] } }
theorem witness_CameraRows : csiOn 7 0 (port 0 7 { cfg := csiCfg } up) = true ∧ (framed 7 15).csiFrame 7 15 = some aFrame ∧ up.csiFrame 0 0 = none ∧ (((port 0 7 { cfg := csiCfg } up).csi 7).byte 0 == 1 || ((port 0 7 { cfg := csiCfg } up).csiFrame 7 15).isSome) = true ∧
    ((port 0 7 { cfg := csiCfg } up).csi 7).byte 0 = 1 ∧ (port 0 7 { cfg := csiCfg } up).csiFrame 7 0 = none ∧ csiSupported 0x12 = true ∧ csiSupported 0x28 = true ∧ csiSupported 0x27 = false ∧ csiSupported 0x38 = false ∧ 16 ≤ entryByte [16] 0 ∧
    (csiOn 7 15 (framed 7 15) || ((framed 7 15).csiFrame 7 15).isSome) = true := by
  decide +kernel
def ethOn (rules : List (List Byte)) : State := port 1 7 { cfg := [1, 0, 0, 0] ++ leBytes 2 1518 ++ zeroBytes 10, linkUp := true, rules := rules } up
/-- A frame of an EtherType, at a length; a rule that matches anything, and one that drops it. -/
def ethData (ty n : Nat) : List Byte := [0x01, 0x80, 0xC2, 0, 0, 0x0E] ++ zeroBytes 6 ++ [BitVec.ofNat 8 (ty / 256), BitVec.ofNat 8 ty] ++ zeroBytes (n - 14)
def dropRule : List Byte := zeroBytes 0x16 ++ [1] ++ zeroBytes 9
theorem witness_EthernetRows : ([
    (ethOn []).time.counting && ((ethOn []).eth 7).byte 0 == 1 && ((ethOn []).eth 7).word 4 2 == 1518, (ethData 0x0800 1514).length + 4 == 1518, (ethData 0x0800 60).length + 4 == 64, (ethData 0x0800 59).length + 4 < 64, 1518 < (ethData 0x0800 1515).length + 4,
    etherType (ethData 0x8808 60) == 0x8808, etherType (ethData 0x88F7 60) == 0x88F7 && beNat ((ethData 0x88F7 60).take 6) == 0x0180C200000E, ((ethOn []).eth 7).rules.length == 0, ruleTakes (ethData 0x0800 60) (zeroBytes 32), ruleTakes (ethData 0x0800 60) dropRule,
    entryByte dropRule 0x16 % 2 == 1, ((ethOn [zeroBytes 32]).eth 7).rules == [zeroBytes 32] && (List.range 1).find? (fun i => ruleTakes (ethData 0x0800 60) ((((ethOn [zeroBytes 32]).eth 7).rules[i]?).getD [])) == some 0, ((ethOn []).eth 7).linkUp, !(up.eth 7).linkUp]).all id = true := by
  decide +kernel
def canCfg : List Byte := zeroBytes 10 ++ [1, 1] ++ zeroBytes 8 ++ [2] ++ zeroBytes 7
def aFr : CanFrame := { id := 0x7FF, ide := false, fdf := false, brs := false, remote := false, data := [1, 2] }
def canOn (off : Bool) : State := port 2 3 { cfg := canCfg, busOff := off } up
def spiOn (run : Option (W64 × Quality)) : State := port 3 3 { cfg := spiCfg, spiRun := run, spiLen := 1 } up
theorem witness_CanSpiRows : ([
    (canOn false).time.counting && !((canOn false).can 3).cfg.isEmpty && !((canOn false).can 3).busOff, aFr.remote == false, filterTakes ((canOn false).can 3) aFr 0 && (List.range (((canOn false).can 3).byte 11)).find? (filterTakes ((canOn false).can 3) aFr) == some 0,
    ((port 2 3 { cfg := [1] } up).can 3).byte 11 == 0 && !((port 2 3 { cfg := [1] } up).can 3).cfg.isEmpty, ((canOn false).can 3).byte 10 == 1, ((canOn true).can 3).busOff, ((spiOn none).sport 3 3).byte 0x13 == 1 && ((spiOn none).sport 3 3).byte 0x11 == 0,
    (spiOn none).edgeStamped 53, up.edgeStamped 53 && (up.sport 3 3).byte 0x13 != 1, !({ spiOn none with sen := { up.sen with lastEdge := [(53, 0)] } } : State).edgeStamped 53, ((spiOn (some (5, .free))).sport 3 3).spiRun == some (5, .free) && ((spiOn none).sport 3 3).spiRun == none && ((spiOn none).sport 3 3).spiLen == 1]).all id = true := by
  decide +kernel
def rec0 (st : Nat) : IngRecord := { stream := st, vt := 0, stamp := 0, ql := .free, seq := 0, cls := 0, info := 0, aux32 := 0, aux64 := 0, payload := [1] }
def ringed (q : List IngRecord) (qp : Nat) : State := { up with ports := { up.ports with queue := q, fill := 1, streams := [(5, { ring := some (0x10000000, 0x10000, qp) })] } }
def trigged (x : Trigger) (cfg : W32) : State := { up with ports := { up.ports with trigs := [(15, x)] }, sen := { up.sen with tio := [(15, cfg)] } }
theorem witness_IngressRows : ([
    up.ports.queue == [], ((ringed [rec0 4] 1).stream 4).ring == none, ((ringed [rec0 5] 1).stream 5).ring == some (0x10000000, 0x10000, 1), ((ringed [rec0 5] 0xFFFFFFFF).stream 5).ring == some (0x10000000, 0x10000, 0xFFFFFFFF), up.link.posting == [],
    (let x := (trigged { period := 100, fall := some 9 } 2).trig 15; x.fall == some 9 && !x.high && x.period != 0), (trigged { period := 100 } 2).time.counting && ((trigged { period := 100 } 2).trig 15).fall == none && !((trigged { period := 100 } 2).trig 15).high,
    ({ up with link := { up.link with posting := [{ qp := 1, cqe := unsolEntry up 4 0 0 }] } } : State).link.posting != [], (trigged { period := 100, width := 5 } 2).time.counting && ((trigged { period := 100, width := 5 } 2).trig 15).period == 100 && !(trigged { period := 100 } 2).fcu.safe,
    ((trigged { high := true, fall := some 9 } 2).trig 15).high, tioFunc ((trigged {} 2).sen.tioCfg 15) == 2 && tioFunc ((trigged {} 0).sen.tioCfg 15) != 2, !(trigged {} 2).pins.safeHeld && safeBall.pins.safeHeld]).all id = true := by
  decide +kernel
/-- A log store with NAND fitted and write protect off. -/
def lg (f : LogStore → LogStore) : State := { up with pins := { up.pins with wpN := true }, lgs := f { up.lgs with fit := some { ces := 1, luns := 1, planes := 2, blocks := 64, pages := 64, endurance := 3000, qualified := true }, slcSegs := 2, bulkSegs := 2 } }
def aSeg (slc : Bool) : Segment := { slc := slc, firstSeq := 0, vt := 0, gen := 0 }
/-- An append descriptor in the CSM of course 0. -/
def appended (b : List Byte) (val : W32) : State := (memStore (.csm 0) 0 b (lg fun l => { l with appends := [(0, [val])] })).2
def aCapsule : Capsule := { vt := 0, quality := .free, era := 0, stroke := 0, entries := [], lost := 0 }
theorem witness_LogRows : ([
    up.ready Rdy.dram && up.ready Rdy.lgsRead, (appQueue 15 up).length == 0, 64 ≤ (appQueue 15 ({ up with lgs := { up.lgs with appends := [(15, List.replicate 64 0)] } } : State)).length, appQueue 0 (appended [] 0) == [0], appendPlace 0 0x80000000 == none,
    appendPlace 0 0x3FFFFFFF == some (.csm 0, 32 * 0x3FFFFFFF) && !placeOk (appended [] 0) (.csm 0, 32 * 0x3FFFFFFF) 32, appendPlace 0 0 == some (.csm 0, 0) && placeOk (appended [] 0) (.csm 0, 0) 32, (allBytes (memLoad (.csm 0) 0 32 (appended [] 0)).1).isSome,
    (allBytes (memLoad (.csm 0) 0 32 (spoilt 208 0 (appended [] 0))).1) == none, (lg id).nandUp && !(lg id).logStopped, (nextPage (lg fun l => { l with queue := [aRec] }).lgs).1 == [aRec], (openSeg false 100 (lg id)).isSome, (openSeg false 100 up).isNone,
    (lg fun l => { l with placed := [aRec] }).lgs.placed != [], (lg fun l => { l with trigs := [{ id := 3, t := 0, pre := 0, post := 0, cls := 0, src := 0 }] }).lgs.trigs.length == 1, trigServed 3 (lg id).lgs, !trigServed 3 (lg fun l => { l with queue := [{ aRec with trig := 3 }] }).lgs,
    relocates 2 (lg fun l => { l with segs := [(2, aSeg false)], grown := [32] }) && (freeSeg (lg fun l => { l with segs := [(2, aSeg false)], grown := [32] }).lgs { ces := 1, luns := 1, planes := 2, blocks := 64, pages := 64, endurance := 3000, qualified := true } false) == some 3,
    segOfBlock 32 (lg fun l => { l with segs := [(2, aSeg false)] }).lgs == some 2, segOfBlock 32 (lg id).lgs == none, oldestSeg false (lg fun l => { l with segs := [(2, aSeg false), (3, aSeg false)] }).lgs == some (2, aSeg false),
    (regionSegs (lg fun l => { l with segs := [(2, aSeg false), (3, aSeg false)] }).lgs false).all (fun n => (tabFind (lg fun l => { l with segs := [(2, aSeg false), (3, aSeg false)] }).lgs.segs n).isSome),
    (lg id).em.capsules == [], ({ lg id with em := { (lg id).em with capsules := [aCapsule] } } : State).em.capsules == [aCapsule] && !((lg id).lgs.urgent ++ (lg id).lgs.placed).any (·.capsule), (lg fun l => { l with toErase := [5] }).lgs.toErase == [5]]).all id = true := by
  decide +kernel
def linked (l : BrLink) (known : Bool) (lead : Nat) : State :=
  { up with brl := { up.brl with links := up.brl.links.set! 0 l, leadKnown := known, lead := lead, present := 3, hops := 1 } }
/-- Link 0 up to device 1, which is the lead. -/
def follower (l : BrLink) : State := linked { l with state := 2, width := 3, nbr := 1, nbrOk := true } true 1
def aMsg : BrlMsg := { t1 := 5, t4 := 9, quality := 0, era := 0, anchorN := 0, anchorVt := 0, periodNs := 100000 }
theorem witness_BridgeRows : ([
    ((linked { state := 1 } false 0).brLink 0).state == 1, ((linked { state := 4 } false 0).brLink 0).state == 4, farEnd up.cubeId 0 == 1, (linkShape (servingLanes 0 (~~~ 0) up)).1 == 0, (linkShape (servingLanes 0 (~~~ 0x1F) up)).1 == 3, ((follower {}).brLink 0).state == 2,
    (lanesInUse ((follower {}).brLink 0)).testBit 3 && !(lanesInUse ((follower {}).brLink 0)).testBit 4, (linkShape (servingLanes 0 0x1E up)).1 < 3 && up.fcu.running && !(up.frec Src.brlLane).isOpen, ((linked { state := 3, width := 3 } false 0).brLink 0).width != 0,
    (follower {}).linkUp 0, (follower {}).ready Rdy.brl && (follower {}).isFollower, isUpstream 0 (follower {}) && !isUpstream 0 (linked { state := 2 } false 0), ((follower { exch := some (1, 2, 3) }).brLink 0).exch == some (1, 2, 3) && ((follower {}).brLink 0).exch == none,
    (follower {}).time.counting, !inboundOk 0x3000000000 && inboundOk 0x1000000000 && inboundOk 0x10000000 && !inboundOk 0x8000000000]).all id = true := by
  decide +kernel
def cubeOut : State := { up with brl := { up.brl with present := 3, cmds := [{ qp := 1, cid := 4, opcode := 0x0200, buf := 0, devs := [0, 1], own := some { cubeId := 0, status := 0, result := 0 } }] } }
theorem witness_LeadRows : ([
    up.ready Rdy.brl && up.isLead && up.time.counting, (follower {}).isFollower && !takesData 0x0100 && takesData 0x0200, dataFits 0x0200 (subFor 0x0200 [0, 80, 3]) (some planBody), checkCmd 0x0702 cubeQp {} (follower {}) == 0, checkCmd 0xFFFF cubeQp {} (follower {}) != 0,
    up.brl.cmds == [], (cubeOut.brl.cmds.find? fun c => c.own.isSome).isSome, cubeOut.brl.present.getLsbD 1 && !up.brl.present.getLsbD 1]).all id = true := by
  decide +kernel
theorem witness_FaultRows : up.fcu.running = true ∧ srcImpl 1 = true ∧ (up.frec 1).isOpen = false ∧ up.sevOf Src.thermtrip = 3 ∧ up.ready Rdy.fcu = true ∧ (0x8000 : W32).getLsbD 15 = true ∧ (0x7FFF : W32).getLsbD 15 = false ∧ (openUp.frec 1).isOpen = true ∧ (openUp.frec 1).cause = false ∧
    (up.frec 4095).cause = false ∧ up.frozen 159 = false ∧ (sramWrite 0 (4 * 1) openUp).1 = true ∧ ((sramWrite 0 (4 * 1) openUp).2.frec 1).isOpen = true ∧ ((sramWrite 0 (4 * 1) openUp).2.frec 1).cause = false ∧
    (sramWrite 0 4 (spoilt (instSram 0) 0 openUp)).1 = false := by
  decide +kernel
def seqState (q : SpareSeq) (f : Health → Health) : State := { up with health := f { up.health with seqs := [q] } }
def engSeq : SpareSeq := { cls := 0, out := 1, inc := 207, reinst := false }
theorem witness_HealthRows : ([
    up.fwUp && (List.replicate 19 0 : List Nat).length == 19, up.em.tens != 5 && ({ up with em := { up.em with tens := 5 } } : State).em.tens == 5, tabFind up.em.firstMargin 19 == none, tabFind ({ up with em := { up.em with firstMargin := [(19, 40)] } } : State).em.firstMargin 19 == some 40,
    !up.fcu.safe, classCode .pegbox < 4, seqTesting up 0 207 == none, seqTesting (seqState engSeq id) 0 207 == some engSeq, (seqState { engSeq with reinst := true } id).health.seqs.length == 1, up.pbxSpare && up.boot.warmReq == none, !({ up with health := { up.health with pbxShadow := false } } : State).pbxSpare,
    (seqState { engSeq with cls := 4, inc := 1 } fun h => { h with oscCompare := some true }).health.oscCompare == some true && (seqTesting (seqState { engSeq with cls := 4, inc := 1 } id) 4 1).isSome]).all id = true := by
  decide +kernel
theorem witness_RegisterWriteRows : up.link.up = true ∧ up.bar2Up 0 = true ∧ up.barHit 64 0 0 4 = false ∧ up.barHit 0 0 0x44 4 = true ∧ up.link.numVfs = 0 ∧ ({ up with link := { up.link with numVfs := 3 } } : State).link.numVfs ≠ 0 ∧
    ({ up with link := { up.link with numVfs := 63, ari := true } } : State).bar2Up 63 = true ∧ up.link.ari = false ∧ (7 : Nat) ≤ 7 ∧ barSize 0 (4 / 2 * 2) ≠ 0 ∧ barSize 1 (5 / 2 * 2) = 0 ∧ up.barHit 63 0 0 4 = false ∧ (writeReg .pegbox 0x54 5 none up).1 = .ok 0 ∧ (writeReg .pegbox 0x6FFC 5 none up).1 = .decode ∧ (writeReg (.engine 0 0) 0x400000 5 none up).1 = .err := by
  decide +kernel
def queued (l : List Instr) : State := { up with pending := l }
theorem witness_QueueStep : (queued [.sourceTimeout 5, .timerTick 0]).pending = .sourceTimeout 5 :: [.timerTick 0] := rfl
theorem witness_EmptyQueueTick : up.pending = [] ∧ up.alive = true ∧ State.reset.alive = false := by decide +kernel
/-- The steps the invariants speak of: one with a command in front, one that shifts the queue, one of an empty queue. -/
theorem witness_steps : ((match step (queued [.tmrGstartGo, .timerTick 0]) with | .next t => t.pending == [.timerTick 0] && t.boot.straps == 0 | _ => false) && (match step up with | .next t => t.pending == [] | _ => false)) = true ∧
    (∀ x r, (queued [.tmrGstartGo]).pending.head? ≠ some (.porstNRise x r)) := by
  refine ⟨by decide +kernel, fun x r => by simp [queued]⟩
def asked (op : Nat) (sub : Sub) (s : State) (p : State → Bool) : Bool := basutUp 1 (holding op sub s) && (claim 1 op sub (holding op sub s)).isSome && checkCmd op 1 sub (begun op sub s) != 0 && p (begun op sub s)
def vfQp : State := { up with link := { up.link with numVfs := 1, qps := [(16385, { live with cmds := [{ cid := 1, opcode := 0x0202, sub := subFor 0x0202 [4] }] })] } }
theorem witness_FailedCheckAnswers : ([
    asked 0x0100 { subFor 0x0100 [] with tag := 0xFFFF } up fun _ => true, asked 0x0303 (subFor 0x0303 [0, 0]) safe fun u => (match opInfo 0x0303 with | some f => mayIssue f 0x0303 1 (subFor 0x0303 [0, 0]) u && formOk f 0x0303 (subFor 0x0303 [0, 0]) && !f.safeOk | none => false) && u.fcu.safe,
    (match opInfo 0x0202 with | some f => !mayIssue f 0x0202 16385 (subFor 0x0202 [4]) (((claim 16385 0x0202 (subFor 0x0202 [4]) vfQp).map (·.2)).getD up) | none => false) && basutUp 16385 vfQp && (claim 16385 0x0202 (subFor 0x0202 [4]) vfQp).isSome]).all id = true := by
  decide +kernel
theorem witness_FinishRecords : (1 ≠ cubeQp ∧ ∀ c ∈ twoQps.brl.cmds, c.qp ≠ 1 ∨ c.cid ≠ 9) ∧ (twoQps.qp 2).cmds.length = 1 := by
  refine ⟨⟨by decide, fun c h => by cases h⟩, by decide +kernel⟩
def bothQps : State := { up with link := { up.link with qps := [(0, { live with sqTail := 1 }), (1, { live with sqTail := 3 })] } }
theorem witness_AdminQueuesFirst : nextSq sent = some 1 ∧ nextSq bothQps = some 0 ∧ canFetch bothQps 0 { live with sqTail := 1 } = true ∧ bothQps.isAdmin 0 = true := by decide +kernel
theorem witness_MergedRaise : openUp.fcu.running = true ∧ srcImpl 1 = true ∧ (openUp.frec 1).isOpen = true ∧ openUp.sevOf 1 ≠ 3 := by decide +kernel
theorem witness_IngressAdmission : ((ringed [] 1).stream 4).ring = none ∧ ((ringed [] 1).stream 5).ring ≠ none ∧ (((ringed [] 1).stream 5).cls.getD (rec0 5).cls < 8) ∧ ((ringed [] 1).ports.fill + 64 ≤ 1024 * min 8192 (((ringed [] 1).ports.thr.toList[0]?).getD 0)) ∧
    1024 * min 8192 (((ringed [] 1).ports.thr.toList[0]?).getD 0) < ({ ringed [] 1 with ports := { (ringed [] 1).ports with fill := 8388608 } } : State).ports.fill + 64 := by decide +kernel
theorem witness_MemoryStores : State.reset.memsWf ∧ (memStore (.lsp 15 12) 0x3FFFC [1, 2, 3, 4] State.reset).1 = true ∧ (memStore (.csm 15) 0x3FFFFF [1] State.reset).1 = true ∧ (memStore .dram 0 [1, 2] State.reset).1 = true ∧ (∀ k, (State.reset.ecc k).bad = [] ∧ (State.reset.ecc k).armed = none) ∧
    (cwsOf (.lsp 0 0) 0 32).all (fun c => 0 ≤ c.start && c.start + c.k ≤ 32) = true ∧ (memStore (.lsp 0 0) 0 (List.replicate 32 1) (wrongs [(3, 1)])).1 = true := by
  refine ⟨fun m => by cases m <;> rfl, by decide +kernel, by decide +kernel, by decide +kernel, fun k => ⟨rfl, rfl⟩, by decide +kernel, by decide +kernel⟩
theorem witness_BootRemap : (0xFFFF < 0x10000) ∧ (0x10000 ≤ 0x3FFFF ∧ 0x3FFFF < 0x40000) := by decide
theorem witness_SpiOverlap : ((spiOn (some (5, .free))).sport 3 3).spiRun.isSome = true ∧ ((spiOn (some (5, .free))).sport 3 3).spiRun = some (5, .free) ∧ ([7] : List Byte).length = ((spiOn (some (5, .free))).sport 3 3).spiLen ∧ up.alive = true := by decide +kernel
/-- A capo command that waits, and a state in which it does. -/
def item (c : Instr) (target : Nat) (strict : Bool) (fret : Nat) : CapoItem := { qp := 1, cid := 4, cmd := c, stroke := 0, fret := fret, mono := 0, target := target, strict := strict, cube := false }
def setTs : Instr := .timeSource 1 (subFor 0x0101 [1, 0])
def outSpare : State := { up with em := { up.em with retired := [unitKey 3 1] } }
theorem witness_CapoBoundary : ([
    ({ up with basut := { up.basut with capo := [item setTs 0 false 0] } } : State).basut.capo == [item setTs 0 false 0], !(item setTs 9 false 0).due 5 true, !(item setTs 0 false 63).due 5 false, (item setTs 5 true 0).due 5 false, (item setTs 0 false 63).due 5 true, safe.fcu.safe && !up.fcu.safe,
    (item setTs 4 true 0).strict && (item setTs 4 true 0).target < 5 && (item setTs 4 true 0).due 5 true, !tooEarly (item setTs 5 true 0) up, tooEarly (item (.profileSet 1 (subFor 0x0202 [0])) 0 false 0) forced && tooEarly (item (.profileSet 1 (subFor 0x0202 [0])) 5 true 0) forced, (applyItem (item setTs 0 false 0) up).1 == .done 0 0, (applyItem (item (.reinstate 1 (subFor 0x0804 [3, 1])) 0 false 0) outSpare).1 == .wait]).all id = true := by
  decide +kernel
def heldBanks : Engine := { ({} : Engine) with su := { ({} : StreamUnit) with chords := [{ aChord with bank := 0 }, { aChord with ticket := 1, bank := 1 }] } }
theorem witness_CapoChanges : ([
    arg 0x0101 1 (subFor 0x0101 [1, 0]) != 1 && (timed fun t => { t with ref10 := true }).time.ref10, !(rolesOf (subFor 0x0103 [1, 0, 2, 0])).contains 3, up.sources.contains 1, tabFind up.stroke.plans 3 == none,
    (let s : State := { up with stroke := { up.stroke with plans := [(3, { profile := up.stroke.profile, period := 100000, mask := 0, crc := 0, planId := 0, jobs := [] })] } }; (tabFind s.stroke.plans 3).isSome && s.stroke.period == 100000),
    !profileReady ({ up with boot := { up.boot with courseReady := 0 } } : State) 0, profileReady up 4 && profileMin 4 ≤ up.stroke.period, ({ up with stroke := { up.stroke with period := 10000 } } : State).stroke.period < profileMin 0 && profileReady up 0,
    arg 0x0203 0 (subFor 0x0203 [10000]) < profileMin 0 && profileMin 4 ≤ arg 0x0203 0 (subFor 0x0203 [10000]) && arg 0x0203 0 (subFor 0x0203 [10000]) != up.stroke.period,
    (match streamStatus 1 (subFor 0x0301 [0x1000, 1, 0x10000000, 0x10000]) up with | .ok g => g == 1 | .error _ => false), (match streamStatus 1 (subFor 0x0301 [0x1000, 2, 0x10000000, 0x10000]) up with | .ok _ => false | .error _ => true),
    freePatchBank ((engine heldBanks).engine e0).su == none && allEngines.contains e0, allEngines.all fun e => (freePatchBank (up.engine e).su).isSome, arg 0x0400 0 (subFor 0x0400 [1, 64]) == 1 && arg 0x0400 0 (subFor 0x0400 [0, 64]) == 0, !ringClash 64 up, ringClash 0x100000 up,
    up.em.tune.length < 256 && tabFind up.em.tune 2 == none, (tabFind ({ up with em := { up.em with tune := [(1, 5)] } } : State).em.tune 1).isSome, 256 ≤ (List.replicate 256 ((1000, 5) : Nat × W32)).length && tabFind (List.replicate 256 ((1000, 5) : Nat × W32)) 2 == none,
    arg 0x0803 0 (subFor 0x0803 [0, 207]) == 0 && arg 0x0803 1 (subFor 0x0803 [0, 207]) == 207 && !up.unitOut 0 207 && !seqHolds up 0 207 && coursePowered up 15 && up.slotOf (engOf 207) == none && proposalOf up 0 207 == none,
    !up.unitOut 3 1, outSpare.unitOut 3 1 && !seqHolds outSpare 3 1 && arg 0x0804 0 (subFor 0x0804 [3, 1]) == 3, (follower {}).brl.present.getLsbD 1 && !(follower {}).brl.present.getLsbD 7, startsTimer (subFor 0x0604 [1, 255, 65535]) 0]).all id = true := by
  decide +kernel
/-! ### Single steps, their values from the rules named -/

/-- The published check value of CRC-32C over the nine digits. -/
theorem test_crc32c_digits : crc32c [0x31, 0x32, 0x33, 0x34, 0x35, 0x36, 0x37, 0x38, 0x39] = 0xE3069283 := by decide +kernel
/-- BOOTSRC 0b11 holds the device in reset (R31). -/
theorem test_reserved_source_holds : (match exec (.porstNRise 3 7) State.reset with | .next t => t.boot.held && t.pins.porstN && !t.pins.faultN && !t.pins.rstoutN | _ => false) = true := by decide +kernel
/-- CLZ, POPC, BREV and BSWAP (R247). -/
theorem test_bit_operations : bitOp 0 1 = 31 ∧ bitOp 1 0xF0F0 = 8 ∧ bitOp 2 1 = 0x80000000 ∧ bitOp 3 0x11223344 = 0x44332211 := by decide +kernel
/-- An addition wraps, a signed quotient overflows to its dividend with no flag, and a division by zero flags (R244, R248). -/
theorem test_wraps : aluOp 0 0xFFFFFFFF 1 = 0 ∧ divOp 0 0x80000000 0xFFFFFFFF = (0x80000000, false) ∧ (divOp 1 7 0).2 = true := by decide +kernel
/-- ID_PART and ID_STEP (R81). -/
theorem test_identity : (readReg 0x08 up).1 = .ok 0x31920100 ∧ (readReg 0x0C up).1 = .ok 0xA1 := by decide +kernel
/-- ADD g1, g2, g2 with g2 at 0x80000000: the sum wraps, the pc advances by four (R244). -/
theorem test_add_step : (match exec (.integerOp e0) (core (enc 0 1 2 (2 * 1024)) (at2 0x80000000)) with | .next t => (t.engine e0).reg 1 == 0 && (t.engine e0).reg 2 == 0x80000000 && (t.engine e0).pc == 4 | _ => false) = true := by decide +kernel
/-! ### The published check values of the algorithms of R52 (log 133) -/

/-- SHA-256 and SHA-384 of the three bytes abc (FIPS 180-4). -/
theorem test_sha256_abc : Crypto.h32 [0x61, 0x62, 0x63] = Crypto.beBytes 32 0xba7816bf8f01cfea414140de5dae2223b00361a396177a9cb410ff61f20015ad := by decide +kernel
theorem test_sha384_abc : Crypto.h48 [0x61, 0x62, 0x63] = Crypto.beBytes 48 0xcb00753f45a35e8bb5a03d699ac65007272c32ab0eded1631a8b605a43ff5bed8086072ba1e7cc2358baeca134c825a7 := by decide +kernel
/-- The GCM tag of one ciphertext block under the zero key. -/
theorem test_gcm_block : Crypto.gcmTag (List.replicate 32 0) (List.replicate 12 0) [] (Crypto.beBytes 16 0xcea7403d4d606b6e074ec5d3baf39d18) = Crypto.beBytes 16 0xd0d1c8a799996bf0265b98b5d48ab919 := by decide +kernel
/-- The ECDSA P-384 signature of the word sample (RFC 6979). -/
theorem test_ecdsa_sample : Crypto.ecdsaOk (4 :: (Crypto.beBytes 48 0xEC3A4E415B4E19A4568618029F427FA5DA9A8BC4AE92E02E06AAE5286B300C64DEF8F0EA9055866064A254515480BC13 ++ Crypto.beBytes 48 0x8015D9B72D7D57244EA8EF9AC0C621896708A59367F9DFB9F54CA84B3F1C9DB1288B231C3AE0D4FE7344FD2533264720))
    (Crypto.beBytes 48 0x94EDBB92A5ECB8AAD4736E56C691916B3F88140666CE9FA73D64C4EA95AD133C81A648152E44ACF96E36DD1E80FABE46 ++ Crypto.beBytes 48 0x99EF4AEB15F178CEA1FE40DB2603138F130E740A19624526203B6351D0A3A94FA329C145786E679E7B82C71A38628AC8)
    [0x73, 0x61, 0x6D, 0x70, 0x6C, 0x65] = true := by decide +kernel
end Sys2Proof.Tests
end

section
/-! PROOFS. The boot ROM and LSP bank 0 in an engine's own addresses (R59). -/
namespace Sys2Proof.Machine

theorem inRange_iff {x lo hi : Nat} : inRange x lo hi = true ↔ lo ≤ x ∧ x < hi := by simp [inRange]

/-- The low window: what `remap` chooses of the boot ROM and LSP bank 0. -/
theorem regionOf_lowWindow (remap : Bool) {a : Nat} (h : a < 0x10000) :
    regionOf remap a = if remap then .rom a else .lsp a :=
  if_pos h

/-- LSP banks 1 to 3, whatever `remap` is. -/
theorem regionOf_upperBanks (remap : Bool) {a : Nat} (hlo : 0x10000 ≤ a) (hhi : a < 0x40000) :
    regionOf remap a = .lsp a :=
  (if_neg (Nat.not_lt.mpr hlo)).trans (if_pos hhi)

/-- The window at 0x08000000: the one of the two that `remap` keeps out of the low window. -/
theorem regionOf_highWindow (remap : Bool) {a : Nat} (h : a < 0x10000) :
    regionOf remap (0x08000000 + a) = if remap then .lsp a else .rom a := by
  have notLow : ¬ 0x08000000 + a < 0x10000 := by omega
  have notBank : ¬ 0x08000000 + a < 0x40000 := by omega
  have here : inRange (0x08000000 + a) 0x08000000 0x08010000 = true := inRange_iff.mpr (by omega)
  rw [regionOf, if_neg notLow, if_neg notBank, if_pos here, Nat.add_sub_cancel_left]

/-- Settles O53: each window holds what `remap` puts there, read off for both values of the bit. -/
theorem bootRemap : Obligations.BootRemap := by
  intro a h
  exact ⟨regionOf_lowWindow true h, regionOf_highWindow true h, regionOf_lowWindow false h,
    regionOf_highWindow false h, fun remap _ hlo hhi => regionOf_upperBanks remap hlo hhi⟩

end Sys2Proof.Machine
end

section
/-! PROOFS. The bit operations and the minima and maxima of the scalar core (R247). -/
namespace Sys2Proof.Machine

theorem bitsAt_one_eq_toNat_testBit (x i : Nat) : bitsAt x i 1 = (x.testBit i).toNat := by
  rw [bitsAt, Nat.toNat_testBit, Nat.pow_one]

theorem foldl_range_add_eq_sum (f : Nat → Nat) (n : Nat) :
    (List.range n).foldl (fun a i => a + f i) 0 = ∑ i ∈ Finset.range n, f i := by
  induction n with
  | zero => rfl
  | succ n ih => rw [List.range_succ, List.foldl_append, ih, Finset.sum_range_succ, List.foldl_cons, List.foldl_nil]

theorem bitRev_eq_sum (k x : Nat) :
    bitRev k x = ∑ i ∈ Finset.range k, bitsAt x i 1 * 2 ^ (k - 1 - i) :=
  foldl_range_add_eq_sum _ k

/-- A longer reversal moves the bits already reversed up by one and takes the next bit in below them. -/
theorem bitRev_succ (k x : Nat) : bitRev (k + 1) x = Nat.bit (x.testBit k) (bitRev k x) := by
  have moved : ∀ i ∈ Finset.range k, bitsAt x i 1 * 2 ^ (k + 1 - 1 - i) = 2 * (bitsAt x i 1 * 2 ^ (k - 1 - i)) := by
    intro i hi
    have hi : k - i = k - 1 - i + 1 := by have := Finset.mem_range.mp hi; omega
    rw [Nat.add_sub_cancel, hi, Nat.pow_succ]
    ring
  rw [bitRev_eq_sum, Finset.sum_range_succ, Finset.sum_congr rfl moved, ← Finset.mul_sum, ← bitRev_eq_sum,
    bitsAt_one_eq_toNat_testBit]
  simp [Nat.bit_val]

theorem testBit_bitRev (k x j : Nat) :
    (bitRev k x).testBit j = (decide (j < k) && x.testBit (k - 1 - j)) := by
  induction k generalizing j with
  | zero => simp [bitRev]
  | succ k ih =>
    rw [bitRev_succ]
    cases j with
    | zero => simp
    | succ j => simp [Nat.testBit_bit_succ, ih, Nat.sub_sub, Nat.add_comm]

theorem bitOp_brev (a : W32) : bitOp 2 a = w32 (bitRev 32 a.toNat) := rfl

theorem bitOp_bswap (a : W32) :
    bitOp 3 a = w32 (bitsAt a.toNat 0 8 * 2 ^ 24 + bitsAt a.toNat 8 8 * 2 ^ 16 + bitsAt a.toNat 16 8 * 2 ^ 8 +
      bitsAt a.toNat 24 8) := rfl

theorem getLsbD_bitOp_brev (a : W32) {i : Nat} (h : i < 32) :
    (bitOp 2 a).getLsbD i = a.getLsbD (31 - i) := by
  rw [bitOp_brev, w32, BitVec.getLsbD_ofNat, testBit_bitRev, decide_eq_true h, Bool.true_and, Bool.true_and, BitVec.getLsbD]

theorem toNat_extractLsb'_eq_bitsAt {w : Nat} (x : BitVec w) (lo n : Nat) :
    (x.extractLsb' lo n).toNat = bitsAt x.toNat lo n := by
  rw [BitVec.extractLsb'_toNat, Nat.shiftRight_eq_div_pow, bitsAt]

theorem toNat_append_eq_add {m n : Nat} (x : BitVec m) (y : BitVec n) :
    (x ++ y).toNat = x.toNat * 2 ^ n + y.toNat := by
  rw [BitVec.toNat_append, ← Nat.shiftLeft_add_eq_or_of_lt y.isLt, Nat.shiftLeft_eq]

theorem getLsbD_append_of_lt {m n i : Nat} (x : BitVec m) (y : BitVec n) (h : i < n) :
    (x ++ y).getLsbD i = y.getLsbD i := by
  rw [BitVec.getLsbD_append, if_pos h]

theorem getLsbD_append_add {m n : Nat} (x : BitVec m) (y : BitVec n) (i : Nat) :
    (x ++ y).getLsbD (n + i) = x.getLsbD i := by
  rw [BitVec.getLsbD_append, if_neg (Nat.not_lt.mpr (Nat.le_add_right n i)), Nat.add_sub_cancel_left]

theorem getLsbD_extractLsb'_of_lt {w n i : Nat} (x : BitVec w) (lo : Nat) (h : i < n) :
    (x.extractLsb' lo n).getLsbD i = x.getLsbD (lo + i) := by
  rw [BitVec.getLsbD_extractLsb', decide_eq_true h, Bool.true_and]

/-- BSWAP puts the four bytes together in the opposite order. -/
theorem getLsbD_bitOp_bswap_eq_append (a : W32) (i : Nat) :
    (bitOp 3 a).getLsbD i =
      (a.extractLsb' 0 8 ++ a.extractLsb' 8 8 ++ a.extractLsb' 16 8 ++ a.extractLsb' 24 8).getLsbD i := by
  have value : (a.extractLsb' 0 8 ++ a.extractLsb' 8 8 ++ a.extractLsb' 16 8 ++ a.extractLsb' 24 8).toNat =
      bitsAt a.toNat 0 8 * 2 ^ 24 + bitsAt a.toNat 8 8 * 2 ^ 16 + bitsAt a.toNat 16 8 * 2 ^ 8 +
        bitsAt a.toNat 24 8 := by
    simp only [toNat_append_eq_add, toNat_extractLsb'_eq_bitsAt]
    ring
  rw [bitOp_bswap, ← value, w32, BitVec.ofNat_toNat, BitVec.setWidth_eq]

theorem getLsbD_bitOp_bswap (a : W32) {i : Nat} (h : i < 8) :
    (bitOp 3 a).getLsbD i = a.getLsbD (24 + i) ∧ (bitOp 3 a).getLsbD (8 + i) = a.getLsbD (16 + i) ∧
      (bitOp 3 a).getLsbD (16 + i) = a.getLsbD (8 + i) ∧ (bitOp 3 a).getLsbD (24 + i) = a.getLsbD i := by
  have byteTwo : 16 + i = 8 + (8 + i) := by omega
  have byteThree : 24 + i = 8 + (8 + (8 + i)) := by omega
  simp only [getLsbD_bitOp_bswap_eq_append]
  refine ⟨?_, ?_, ?_, ?_⟩
  · rw [getLsbD_append_of_lt _ _ h, getLsbD_extractLsb'_of_lt _ _ h]
  · rw [getLsbD_append_add, getLsbD_append_of_lt _ _ h, getLsbD_extractLsb'_of_lt _ _ h]
  · rw [byteTwo, getLsbD_append_add, getLsbD_append_add, getLsbD_append_of_lt _ _ h,
      getLsbD_extractLsb'_of_lt _ _ h]
  · rw [byteThree, getLsbD_append_add, getLsbD_append_add, getLsbD_append_add, getLsbD_extractLsb'_of_lt _ _ h,
      Nat.zero_add]

theorem toInt_aluOp_min (a b : W32) : (aluOp 10 a b).toInt = min a.toInt b.toInt :=
  (apply_ite BitVec.toInt _ _ _).trans (min_def _ _).symm

theorem toInt_aluOp_max (a b : W32) : (aluOp 11 a b).toInt = max a.toInt b.toInt :=
  (apply_ite BitVec.toInt _ _ _).trans (max_def _ _).symm

theorem toNat_aluOp_minu (a b : W32) : (aluOp 12 a b).toNat = min a.toNat b.toNat :=
  (apply_ite BitVec.toNat _ _ _).trans (min_def _ _).symm

theorem toNat_aluOp_maxu (a b : W32) : (aluOp 13 a b).toNat = max a.toNat b.toNat :=
  (apply_ite BitVec.toNat _ _ _).trans (max_def _ _).symm

theorem rotateRight_zero {w : Nat} (x : BitVec w) : x.rotateRight 0 = x := by
  apply BitVec.eq_of_getLsbD_eq
  intro i hi
  simp [hi]

theorem aluOp_rotr_eq_self (a : W32) {b : W32} (h : b.toNat % 32 = 0) : aluOp 9 a b = a := by
  rw [aluOp, h, rotateRight_zero]

theorem bitOp_clz_zero : bitOp 0 0 = 32 := rfl

theorem bitOp_popc_zero : bitOp 1 0 = 0 := by decide

/-- Settles O54: each operation by the lemma that reads off its result. -/
theorem bitOperations : Obligations.BitOperations := by
  intro a b
  exact ⟨bitOp_clz_zero, bitOp_popc_zero, fun _ => getLsbD_bitOp_brev a, fun _ => getLsbD_bitOp_bswap a,
    aluOp_rotr_eq_self a, toInt_aluOp_min a b, toInt_aluOp_max a b, toNat_aluOp_minu a b, toNat_aluOp_maxu a b⟩

end Sys2Proof.Machine
end

section
/-! PROOFS. Data-ready events during an SPI transaction, and the record that reports them (R445, R446). -/
namespace Sys2Proof.Machine

/-- A function that leaves the deep blocks alone leaves every sensor port alone. -/
theorem State.sport_of_deep {s t : State} (h : t.deep = s.deep) (ty p : Nat) : t.sport ty p = s.sport ty p := by
  have ports : t.ports = s.ports := congrArg (·.2.2.2.2.1) h
  rw [State.sport, State.sport, ports]

@[simp] theorem raiseFault_sport (id : Nat) (info : W64) (unit : W16) (s : State) (ty p : Nat) :
    (raiseFault id info unit s).sport ty p = s.sport ty p :=
  State.sport_of_deep (raiseFault_deep id info unit s) ty p

@[simp] theorem postBound_sport (kind : Nat) (srcs : Nat → Bool) (result : Option W32) (vt : W64) (ql : Quality) (s : State)
    (ty p : Nat) : (postBound kind srcs result vt ql s).sport ty p = s.sport ty p :=
  State.sport_of_deep (postBound_deep kind srcs result vt ql s) ty p

@[simp] theorem assertProducer_sport (id : Nat) (s : State) (ty p : Nat) :
    (assertProducer id s).sport ty p = s.sport ty p := rfl

/-- What a data-ready event does before it starts a transaction or counts an overlap. -/
def readySignalled (p : Nat) (stamp : W64) (ql : Quality) (s : State) : State :=
  postBound 4 (fun src => src == 0x4000 + 256 * p) none stamp ql (assertProducer (500 + p) s)

@[simp] theorem readySignalled_sport (p : Nat) (stamp : W64) (ql : Quality) (s : State) (ty j : Nat) :
    (readySignalled p stamp ql s).sport ty j = s.sport ty j := by
  rw [readySignalled, postBound_sport, assertProducer_sport]

/-- The state of a port after one more data-ready event during its transaction. -/
def Port.overlapped (stamp : W64) (x : Port) : Port :=
  { (x.tick 2) with overlaps := x.overlaps + 1, lastOverlap := stamp }

/-- The state of a port whose transaction has ended: nothing overlapped since its record. -/
def Port.spiEnded (x : Port) : Port :=
  { (x.tick 1) with spiRun := none, overlaps := 0, lastOverlap := 0 }

/-- The record of a transaction of port `p` that began with `stamp` and `ql` and read `data`; `x` is the port at its end. -/
def spiRecord (p : Nat) (stamp : W64) (ql : Quality) (x : Port) (data : List Byte) : IngRecord :=
  { stream := streamId 3 p 0, vt := stamp, stamp := stamp, ql := ql, seq := 0, cls := 4, info := qualCode ql,
    aux32 := w32 x.overlaps, aux64 := x.lastOverlap, payload := data }

/-- A data-ready event while a transaction runs is counted and raises SPI_OVERLAP. -/
theorem dataReady_of_running {p : Nat} {s : State} (stamp : W64) (ql : Quality) (h : (s.sport 3 p).spiRun.isSome = true) :
    dataReady p stamp ql s =
      raiseFault Src.spiOverlap (w64 p) unitNone ((readySignalled p stamp ql s).setSport 3 p (Port.overlapped stamp)) := by
  have running : ((readySignalled p stamp ql s).sport 3 p).spiRun.isSome = true := by rw [readySignalled_sport, h]
  exact if_pos running

theorem dataReady_sport_of_running {p : Nat} {s : State} (stamp : W64) (ql : Quality)
    (h : (s.sport 3 p).spiRun.isSome = true) :
    (dataReady p stamp ql s).sport 3 p = (s.sport 3 p).overlapped stamp := by
  rw [dataReady_of_running stamp ql h, raiseFault_sport, State.sport_setSport_same, readySignalled_sport]

/-- The end of a transaction that runs: the port starts afresh and the record is offered. -/
theorem spiDone_of_running {p : Nat} {s : State} {stamp : W64} {ql : Quality} (data : List Byte)
    (h : (s.sport 3 p).spiRun = some (stamp, ql)) :
    spiDone p data s =
      offer 3 p (s.sport 3 p).spiLen (spiRecord p stamp ql (s.sport 3 p) data) (s.setSport 3 p Port.spiEnded) := by
  rw [spiDone, h]
  rfl

theorem exec_spiTransactionComplete (p : Nat) (data : List Byte) (s : State) :
    exec (.spiTransactionComplete p data) s =
      act (s.alive && p < 4 && data.length == (s.sport 3 p).spiLen) (spiDone p data) s := rfl

/-- Settles O55: an event during a transaction by what it does to the port, the end of one by the record it offers. -/
theorem spiOverlap : Obligations.SpiOverlap := by
  intro p stamp ql s hp
  constructor
  · intro running
    exact ⟨readySignalled p stamp ql s, rfl, dataReady_of_running stamp ql running,
      dataReady_sport_of_running stamp ql running⟩
  · intro began q data alive run length
    have taken : (s.alive && p < 4 && data.length == (s.sport 3 p).spiLen) = true := by simp [alive, hp, length]
    refine Runs.of_act (exec_spiTransactionComplete p data s) taken ?_
    exact ⟨spiRecord p began q (s.sport 3 p) data, s.setSport 3 p Port.spiEnded, rfl,
      State.sport_setSport_same s 3 p Port.spiEnded, spiDone_of_running data run⟩

end Sys2Proof.Machine
end

section
/-! PROOFS. What every step keeps: the queue behind its front and the straps, with fuses that are blown only (R18, R53, R124). -/
namespace Sys2Proof.Machine

theorem Fuses.le_refl (f : Fuses) : f.le f := ⟨fun _ => Nat.le_refl _, fun _ h => h⟩

theorem Fuses.le_trans {f g h : Fuses} (fg : f.le g) (gh : g.le h) : f.le h :=
  ⟨fun i => Nat.le_trans (fg.1 i) (gh.1 i), fun k r => gh.2 k (fg.2 k r)⟩

/-- `t` is `s` with fuses blown at most: the waiting commands and the straps are those of `s`. -/
def State.RomGrows (s t : State) : Prop := s.fuses.le t.fuses ∧ t.pending = s.pending ∧ t.boot.straps = s.boot.straps

theorem State.RomGrows.of_kept (s t : State) (h : t.rom = s.rom) : s.RomGrows t := by
  simp only [State.rom, Prod.mk.injEq] at h
  obtain ⟨fuses, pending, straps⟩ := h
  exact ⟨fuses ▸ Fuses.le_refl _, pending, straps⟩

theorem State.RomGrows.trans (s t u : State) (st : s.RomGrows t) (tu : t.RomGrows u) : s.RomGrows u :=
  ⟨Fuses.le_trans st.1 tu.1, tu.2.1.trans st.2.1, tu.2.2.trans st.2.2⟩

theorem State.RomGrows.modFuses {s : State} {f : Fuses → Fuses} (h : s.fuses.le (f s.fuses)) : s.RomGrows (s.modFuses f) :=
  ⟨h, rfl, rfl⟩

/-- A floor is raised to a value above it (R124). -/
theorem raiseFloor_le {f : Fuses} {t n : Nat} (h : ((f.floors.toList[t]?).getD 0).toNat < n) (hn : n < 2 ^ 32) :
    f.le (raiseFloor t n f) := by
  refine ⟨fun i => ?_, fun _ r => r⟩
  rcases eq_or_ne t i with rfl | other
  · have floor : (f.floors.toList[(i : Nat)]?).getD 0 = f.floors[i] := by simp
    rw [floor] at h
    simpa [raiseFloor, w32] using (Nat.mod_eq_of_lt hn).symm ▸ h.le
  · simp [raiseFloor, other]

/-- A slot is revoked beside those that are (R124). -/
theorem revokeKey_le (f : Fuses) (slot : Nat) : f.le (revokeKey slot f) := by
  refine ⟨fun _ => Nat.le_refl _, fun k h => ?_⟩
  simp [revokeKey, putBit, h]

theorem svnRaise_floor_lt (sub : Sub) : arg 0x0901 1 sub < 2 ^ 32 :=
  Nat.mod_lt _ (by decide)

theorem bodySvnRaise_romGrows (q cid : Nat) (sub : Sub) (s : State) : s.RomGrows (bodySvnRaise q cid sub s) := by
  unfold bodySvnRaise
  dsimp only
  split
  · exact .of_kept _ _ (refuse_kept ..)
  next accepted =>
    have above : ((s.fuses.floors.toList[arg 0x0901 0 sub]?).getD 0).toNat < arg 0x0901 1 sub := by
      simp only [Bool.or_eq_true, not_or, decide_eq_true_eq, Nat.not_le] at accepted
      exact accepted.1.2
    exact .trans _ _ _ (.modFuses (raiseFloor_le above (svnRaise_floor_lt sub))) (.of_kept _ _ (succeed_kept ..))

theorem bodyKeyRevoke_romGrows (q cid : Nat) (sub : Sub) (s : State) : s.RomGrows (bodyKeyRevoke q cid sub s) := by
  unfold bodyKeyRevoke
  dsimp only
  split
  · exact .of_kept _ _ (refuse_kept ..)
  · exact .trans _ _ _ (.modFuses (revokeKey_le _ _)) (.of_kept _ _ (succeed_kept ..))

theorem runBasut_romGrows {op q : Nat} {sub : Sub} {body : Body}
    (h : ∀ (cid : Nat) (sub : Sub) (s : State), s.RomGrows (body q cid sub s)) {s t : State} :
    runBasut op q sub body s = .next t → s.RomGrows t :=
  runBasut_rel State.RomGrows.of_kept State.RomGrows.trans h

theorem ite_body_kept {c : Prop} [Decidable c] {a b : Body} {q cid : Nat} {sub : Sub} {s : State}
    (hb : (b q cid sub s).rom = s.rom) (ha : c → (a q cid sub s).rom = s.rom) :
    ((if c then a else b) q cid sub s).rom = s.rom := by
  split
  · exact ha ‹c›
  · exact hb

theorem bodyOf_kept {op : Nat} (noRaise : op ≠ 0x0901) (noRevoke : op ≠ 0x0902) (q : Nat) (sub : Sub) (data : Option (List Byte))
    (cid : Nat) (sub2 : Sub) (s : State) : (bodyOf op q sub data q cid sub2 s).rom = s.rom := by
  unfold bodyOf
  repeat refine ite_body_kept ?_ fun named => ?_
  all_goals simp_all

/-- Of the bodies a follower can run, SVN_RAISE and KEY_REVOKE alone blow fuses (R496). -/
theorem bodyOf_romGrows (op q : Nat) (sub : Sub) (data : Option (List Byte)) (cid : Nat) (sub2 : Sub) (s : State) :
    s.RomGrows (bodyOf op q sub data q cid sub2 s) := by
  by_cases raise : op = 0x0901
  · subst raise
    exact bodySvnRaise_romGrows q cid sub2 s
  by_cases revoke : op = 0x0902
  · subst revoke
    exact bodyKeyRevoke_romGrows q cid sub2 s
  · exact .of_kept _ _ (bodyOf_kept raise revoke ..)

theorem cubeReceive_romGrows (op : Nat) (sub : Sub) (data : Option (List Byte)) (s : State) :
    s.RomGrows (cubeReceive op sub data s) :=
  .trans _ _ _ (.of_kept _ _ (State.modBasut_kept ..))
    (perform_rel State.RomGrows.of_kept State.RomGrows.trans (fun _ _ => bodyOf_romGrows ..) _)

/-- Every command but the four that blow fuses, or may carry one that does, or latch the straps. -/
theorem exec_kept {c : Instr} {s t : State} (h : exec c s = .next t) (noRise : ∀ x r, c ≠ .porstNRise x r)
    (noRaise : ∀ q sub, c ≠ .svnRaise q sub) (noRevoke : ∀ q sub, c ≠ .keyRevoke q sub)
    (noCube : ∀ op sub d, c ≠ .cubeCommandReceive op sub d) : t.rom = s.rom := by
  cases c with
  | porstNRise x r => exact absurd rfl (noRise x r)
  | svnRaise q sub => exact absurd rfl (noRaise q sub)
  | keyRevoke q sub => exact absurd rfl (noRevoke q sub)
  | cubeCommandReceive op sub d => exact absurd rfl (noCube op sub d)
  | porstNLow => exact execPorstNLow_kept _ h
  | supplyMonitorTrip _ => exact execSupplyMonitorTrip_kept _ _ h
  | wrstNAssert => exact execWrstNAssert_kept _ h
  | warmResetPerform => exact execWarmResetPerform_kept _ h
  | pegboxWatchdog => exact execPegboxWatchdog_kept _ h
  | perstNAssert _ _ => exact execPerstNAssert_kept _ _ _ h
  | rstoutNRise _ _ => exact execRstoutNRise_kept _ _ _ h
  | pfailNRecognised => exact execPfailNRecognised_kept _ h
  | powerFailFlushComplete => exact execPowerFailFlushComplete_kept _ h
  | pfailNHighExpiry => exact execPfailNHighExpiry_kept _ h
  | inflightProgramsEnd => exact execInflightProgramsEnd_kept _ h
  | tjWarnCrossing => exact execTjWarnCrossing_kept _ h
  | tjCritCrossing => exact execTjCritCrossing_kept _ h
  | thermtripNAssert => exact execThermtripNAssert_kept _ h
  | selftestComplete => exact execSelftestComplete_kept _ h
  | xspiReadComplete => exact execXspiReadComplete_kept _ h
  | xspiReadTimeout => exact execXspiReadTimeout_kept _ h
  | patchDeliveryTimeout => exact execPatchDeliveryTimeout_kept _ h
  | imageVerifyDone => exact execImageVerifyDone_kept _ h
  | bootCtlGo _ => exact execBootCtlGo_kept _ _ h
  | bootCtlWarm _ => exact execBootCtlWarm_kept _ _ h
  | bootCtlRecovery _ => exact execBootCtlRecovery_kept _ _ h
  | brlImageDelivery _ _ _ => exact execBrlImageDelivery_kept _ _ _ _ h
  | engineInitComplete _ => exact execEngineInitComplete_kept _ _ h
  | dramTrainingComplete _ => exact execDramTrainingComplete_kept _ _ h
  | logStoreReady _ => exact execLogStoreReady_kept _ _ h
  | brlReadyCheck => exact execBrlReadyCheck_kept _ h
  | pcieMemRead _ _ _ _ => exact execPcieMemRead_kept _ _ _ _ _ h
  | pcieMemWrite _ _ _ _ => exact execPcieMemWrite_kept _ _ _ _ _ h
  | pcieTlpError _ _ => exact execPcieTlpError_kept _ _ _ h
  | functionLevelReset _ => exact execFunctionLevelReset_kept _ _ h
  | vfEnableClear => exact execVfEnableClear_kept _ h
  | d3hotTransition _ => exact execD3hotTransition_kept _ _ h
  | msixTableWrite _ _ _ _ => exact execMsixTableWrite_kept _ _ _ _ _ h
  | ptmRequestIssue _ => exact execPtmRequestIssue_kept _ _ h
  | ptmDialogComplete _ _ => exact execPtmDialogComplete_kept _ _ _ h
  | doeDiscovery _ _ => exact execDoeDiscovery_kept _ _ _ h
  | spdmGetVersion _ => exact execSpdmGetVersion_kept _ _ h
  | spdmGetCapabilities _ => exact execSpdmGetCapabilities_kept _ _ h
  | spdmNegotiateAlgorithms _ _ _ => exact execSpdmNegotiateAlgorithms_kept _ _ _ _ h
  | spdmGetDigests _ => exact execSpdmGetDigests_kept _ _ h
  | spdmGetCertificate _ _ _ _ => exact execSpdmGetCertificate_kept _ _ _ _ _ h
  | spdmChallenge _ _ _ => exact execSpdmChallenge_kept _ _ _ _ h
  | spdmGetMeasurements _ _ _ => exact execSpdmGetMeasurements_kept _ _ _ _ h
  | spdmOtherRequest _ _ => exact execSpdmOtherRequest_kept _ _ _ h
  | aqCtlEnable _ => exact execAqCtlEnable_kept _ _ h
  | aqCtlDisable _ => exact execAqCtlDisable_kept _ _ h
  | sqTailDoorbell _ _ _ _ => exact execSqTailDoorbell_kept _ _ _ _ _ h
  | cqHeadDoorbell _ _ _ _ => exact execCqHeadDoorbell_kept _ _ _ _ _ h
  | doorbellPairWrite _ _ _ _ => exact execDoorbellPairWrite_kept _ _ _ _ _ h
  | qcapDbdropRead _ => exact execQcapDbdropRead_kept _ _ h
  | sqEntryFetch => exact execSqEntryFetch_kept _ h
  | sqReadCompletion _ _ => exact execSqReadCompletion_kept _ _ _ h
  | sqReadTimeout _ => exact execSqReadTimeout_kept _ _ h
  | completionPost _ => exact execCompletionPost_kept _ _ h
  | moderationTimerExpiry _ => exact execModerationTimerExpiry_kept _ _ h
  | queueFullClose _ => exact execQueueFullClose_kept _ _ h
  | qpDeleteComplete _ => exact execQpDeleteComplete_kept _ _ h
  | snapshot _ _ => exact execSnapshot_kept _ _ _ h
  | identify _ _ => exact execIdentify_kept _ _ _ h
  | qpCreate _ _ => exact execQpCreate_kept _ _ _ h
  | qpDelete _ _ => exact execQpDelete_kept _ _ _ h
  | qpModify _ _ => exact execQpModify_kept _ _ _ h
  | qpQuery _ _ => exact execQpQuery_kept _ _ _ h
  | abort _ _ => exact execAbort_kept _ _ _ h
  | warmReset _ _ => exact execWarmReset_kept _ _ _ h
  | warmResetDelayExpiry => exact execWarmResetDelayExpiry_kept _ h
  | timeGet _ _ => exact execTimeGet_kept _ _ _ h
  | timeSource _ _ => exact execTimeSource_kept _ _ _ h
  | servoConfig _ _ => exact execServoConfig_kept _ _ _ h
  | gptpConfig _ _ => exact execGptpConfig_kept _ _ _ h
  | ppsConfig _ _ => exact execPpsConfig_kept _ _ _ h
  | ptmCorrelate _ _ => exact execPtmCorrelate_kept _ _ _ h
  | timeStatus _ _ => exact execTimeStatus_kept _ _ _ h
  | planLoad _ _ _ => exact execPlanLoad_kept _ _ _ _ h
  | planActivate _ _ => exact execPlanActivate_kept _ _ _ h
  | profileSet _ _ => exact execProfileSet_kept _ _ _ h
  | strokeSet _ _ => exact execStrokeSet_kept _ _ _ h
  | overrunPolicy _ _ => exact execOverrunPolicy_kept _ _ _ h
  | strokeStats _ _ => exact execStrokeStats_kept _ _ _ h
  | jobSubmit _ _ => exact execJobSubmit_kept _ _ _ h
  | streamBind _ _ => exact execStreamBind_kept _ _ _ h
  | ucodeLoad _ _ _ => exact execUcodeLoad_kept _ _ _ _ h
  | engineReset _ _ => exact execEngineReset_kept _ _ _ h
  | lgsMode _ _ => exact execLgsMode_kept _ _ _ h
  | lgsTrigger _ _ => exact execLgsTrigger_kept _ _ _ h
  | lgsRead _ _ => exact execLgsRead_kept _ _ _ h
  | lgsClass _ _ => exact execLgsClass_kept _ _ _ h
  | lgsLife _ _ => exact execLgsLife_kept _ _ _ h
  | lgsSeal _ _ => exact execLgsSeal_kept _ _ _ h
  | portConfig _ _ _ => exact execPortConfig_kept _ _ _ _ h
  | trigSchedule _ _ => exact execTrigSchedule_kept _ _ _ h
  | ingressClass _ _ => exact execIngressClass_kept _ _ _ h
  | lidarRules _ _ _ => exact execLidarRules_kept _ _ _ _ h
  | portStatus _ _ => exact execPortStatus_kept _ _ _ h
  | evtBind _ _ => exact execEvtBind_kept _ _ _ h
  | evtUnbind _ _ => exact execEvtUnbind_kept _ _ _ h
  | senConfig _ _ _ => exact execSenConfig_kept _ _ _ _ h
  | tmrConfig _ _ _ => exact execTmrConfig_kept _ _ _ _ h
  | tmrStart _ _ => exact execTmrStart_kept _ _ _ h
  | fcuSeverity _ _ => exact execFcuSeverity_kept _ _ _ h
  | fcuClear _ _ => exact execFcuClear_kept _ _ _ h
  | fjExport _ _ => exact execFjExport_kept _ _ _ h
  | fjRead _ _ => exact execFjRead_kept _ _ _ h
  | fcuInject _ _ => exact execFcuInject_kept _ _ _ h
  | tuneSet _ _ => exact execTuneSet_kept _ _ _ h
  | tuneClear _ _ => exact execTuneClear_kept _ _ _ h
  | healthRead _ _ => exact execHealthRead_kept _ _ _ h
  | retire _ _ => exact execRetire_kept _ _ _ h
  | reinstate _ _ => exact execReinstate_kept _ _ _ h
  | sparePolicy _ _ => exact execSparePolicy_kept _ _ _ h
  | imageUpdate _ _ _ => exact execImageUpdate_kept _ _ _ _ h
  | attest _ _ => exact execAttest_kept _ _ _ h
  | cubeStatus _ _ => exact execCubeStatus_kept _ _ _ h
  | leadSet _ _ => exact execLeadSet_kept _ _ _ h
  | remoteWindow _ _ => exact execRemoteWindow_kept _ _ _ h
  | strokeBoundary _ => exact execStrokeBoundary_kept _ _ h
  | snapBankSwitch => exact execSnapBankSwitch_kept _ h
  | snapCtlHold _ => exact execSnapCtlHold_kept _ _ h
  | fretBoundary => exact execFretBoundary_kept _ h
  | budgetExpiry _ _ => exact execBudgetExpiry_kept _ _ _ h
  | fgNextRead _ => exact execFgNextRead_kept _ _ h
  | fgDoneWrite _ _ _ _ => exact execFgDoneWrite_kept _ _ _ _ _ h
  | coursePowerDown _ => exact execCoursePowerDown_kept _ _ h
  | gptpSyncReceive _ _ => exact execGptpSyncReceive_kept _ _ _ h
  | gptpFollowUpReceive _ _ _ => exact execGptpFollowUpReceive_kept _ _ _ _ h
  | gptpAnnounceReceive _ _ => exact execGptpAnnounceReceive_kept _ _ _ h
  | gptpPdelayReceive _ _ => exact execGptpPdelayReceive_kept _ _ _ h
  | gptpSyncTransmit _ => exact execGptpSyncTransmit_kept _ _ h
  | gptpPdelayReqTransmit _ => exact execGptpPdelayReqTransmit_kept _ _ h
  | gptpAnnounceTransmit _ => exact execGptpAnnounceTransmit_kept _ _ h
  | gptpReceiptTimeout _ _ => exact execGptpReceiptTimeout_kept _ _ _ h
  | ppsInEdge _ => exact execPpsInEdge_kept _ _ h
  | sourceTimeout _ => exact execSourceTimeout_kept _ _ h
  | holdoverLimitExpiry => exact execHoldoverLimitExpiry_kept _ h
  | ref10InLoss => exact execRef10InLoss_kept _ h
  | crystalPathFailure _ => exact execCrystalPathFailure_kept _ _ h
  | tdcRecalibration _ _ _ => exact execTdcRecalibration_kept _ _ _ _ h
  | vt64Save => exact execVt64Save_kept _ h
  | ppsOutRise => exact execPpsOutRise_kept _ h
  | ppsOutFall => exact execPpsOutFall_kept _ h
  | tePtmOfsWrite _ => exact execTePtmOfsWrite_kept _ _ h
  | tioEdge _ _ => exact execTioEdge_kept _ _ _ h
  | veCtlRun _ _ => exact execVeCtlRun_kept _ _ _ h
  | veCtlRst _ _ => exact execVeCtlRst_kept _ _ _ h
  | veCtlRemap _ _ => exact execVeCtlRemap_kept _ _ _ h
  | integerOp _ => exact execIntegerOp_kept _ _ h
  | carryBorrowOp _ => exact execCarryBorrowOp_kept _ _ h
  | bitOp _ => exact execBitOp_kept _ _ h
  | multiplyOp _ => exact execMultiplyOp_kept _ _ h
  | divideOp _ => exact execDivideOp_kept _ _ h
  | divideComplete _ => exact execDivideComplete_kept _ _ h
  | pairedWord _ => exact execPairedWord_kept _ _ h
  | load _ => exact execLoad_kept _ _ h
  | loadReturn _ => exact execLoadReturn_kept _ _ h
  | lwx _ => exact execLwx_kept _ _ h
  | store _ => exact execStore_kept _ _ h
  | storeAck _ _ => exact execStoreAck_kept _ _ _ h
  | atomic _ => exact execAtomic_kept _ _ h
  | branch _ => exact execBranch_kept _ _ h
  | jump _ => exact execJump_kept _ _ h
  | jalr _ => exact execJalr_kept _ _ h
  | loop _ => exact execLoop_kept _ _ h
  | mfc _ => exact execMfc_kept _ _ h
  | mtc _ => exact execMtc_kept _ _ h
  | syscall _ => exact execSyscall_kept _ _ h
  | brk _ => exact execBrk_kept _ _ h
  | rfe _ => exact execRfe_kept _ _ h
  | sync _ => exact execSync_kept _ _ h
  | iflush _ => exact execIflush_kept _ _ h
  | wait _ => exact execWait_kept _ _ h
  | fpArith _ => exact execFpArith_kept _ _ h
  | fpMinMaxCompare _ => exact execFpMinMaxCompare_kept _ _ h
  | fpConvert _ => exact execFpConvert_kept _ _ h
  | interruptEntry _ => exact execInterruptEntry_kept _ _ h
  | asyncErrorEntry _ => exact execAsyncErrorEntry_kept _ _ h
  | interruptTakeover _ => exact execInterruptTakeover_kept _ _ h
  | handlerWindowExpiry _ => exact execHandlerWindowExpiry_kept _ _ h
  | irqSourceEdge _ _ => exact execIrqSourceEdge_kept _ _ _ h
  | irqSetWrite _ _ => exact execIrqSetWrite_kept _ _ _ h
  | irqPendWrite _ _ _ => exact execIrqPendWrite_kept _ _ _ _ h
  | pegboxMailbox _ => exact execPegboxMailbox_kept _ _ h
  | startCheckComplete _ => exact execStartCheckComplete_kept _ _ h
  | setvl _ => exact execSetvl_kept _ _ h
  | shape _ => exact execShape_kept _ _ h
  | shaper _ => exact execShaper_kept _ _ h
  | vrds _ => exact execVrds_kept _ _ h
  | vwrs _ => exact execVwrs_kept _ _ h
  | vectorArith _ => exact execVectorArith_kept _ _ h
  | vectorCompare _ => exact execVectorCompare_kept _ _ h
  | vectorReduction _ => exact execVectorReduction_kept _ _ h
  | vectorPermute _ => exact execVectorPermute_kept _ _ h
  | vgetVput _ => exact execVgetVput_kept _ _ h
  | vectorLoad _ => exact execVectorLoad_kept _ _ h
  | vectorStore _ => exact execVectorStore_kept _ _ h
  | vectorComplete _ => exact execVectorComplete_kept _ _ h
  | sstart _ => exact execSstart_kept _ _ h
  | sstarta _ => exact execSstarta_kept _ _ h
  | swait _ => exact execSwait_kept _ _ h
  | sstat _ => exact execSstat_kept _ _ h
  | scancel _ => exact execScancel_kept _ _ h
  | chordStart _ => exact execChordStart_kept _ _ h
  | chordComplete _ => exact execChordComplete_kept _ _ h
  | chordStop _ => exact execChordStop_kept _ _ h
  | chordResume _ => exact execChordResume_kept _ _ h
  | chordRestart _ => exact execChordRestart_kept _ _ h
  | mwNop _ _ _ => exact execMwNop_kept _ _ _ _ h
  | mwUalu _ _ _ => exact execMwUalu_kept _ _ _ _ h
  | mwLdc _ _ _ => exact execMwLdc_kept _ _ _ _ h
  | mwLane _ _ _ => exact execMwLane_kept _ _ _ _ h
  | mwExec _ _ _ => exact execMwExec_kept _ _ _ _ h
  | mwBr _ _ _ => exact execMwBr_kept _ _ _ _ h
  | mwCall _ _ _ => exact execMwCall_kept _ _ _ _ h
  | mwLoop _ _ _ => exact execMwLoop_kept _ _ _ _ h
  | mwEnd _ _ _ => exact execMwEnd_kept _ _ _ _ h
  | mwStage _ _ _ => exact execMwStage_kept _ _ _ _ h
  | mwCwait _ _ _ => exact execMwCwait_kept _ _ _ _ h
  | eccWriteBack _ _ => exact execEccWriteBack_kept _ _ _ h
  | patrolScrubRead _ _ => exact execPatrolScrubRead_kept _ _ _ h
  | lspStarveLimit _ => exact execLspStarveLimit_kept _ _ h
  | spareRowCopy _ => exact execSpareRowCopy_kept _ _ h
  | dramRefresh k => exact execDramRefresh_kept k _ h
  | fabricTimeout _ _ _ => exact execFabricTimeout_kept _ _ _ _ h
  | remoteAccessTimeout _ _ _ => exact execRemoteAccessTimeout_kept _ _ _ _ h
  | fabErrValidWrite _ => exact execFabErrValidWrite_kept _ _ h
  | dmaCmdGo _ _ _ => exact execDmaCmdGo_kept _ _ _ _ h
  | dmaCmdStop _ _ _ => exact execDmaCmdStop_kept _ _ _ _ h
  | dmaDescriptorCheck _ _ => exact execDmaDescriptorCheck_kept _ _ _ h
  | dmaStopTaken _ _ => exact execDmaStopTaken_kept _ _ _ h
  | dmaDescriptorComplete _ _ => exact execDmaDescriptorComplete_kept _ _ _ h
  | dmaErrorResponse _ _ _ => exact execDmaErrorResponse_kept _ _ _ _ h
  | senSwpulseWrite _ => exact execSenSwpulseWrite_kept _ _ h
  | senEventDelivery => exact execSenEventDelivery_kept _ h
  | veSenselRead _ _ => exact execVeSenselRead_kept _ _ _ h
  | timerTick _ => exact execTimerTick_kept _ _ h
  | linkedCarryArrive _ => exact execLinkedCarryArrive_kept _ _ h
  | timerCompareMatch _ _ => exact execTimerCompareMatch_kept _ _ _ h
  | tmrCmpWrite _ _ _ _ => exact execTmrCmpWrite_kept _ _ _ _ _ h
  | tmrCntWrite _ _ _ => exact execTmrCntWrite_kept _ _ _ _ h
  | tmrEvctlRead _ => exact execTmrEvctlRead_kept _ _ h
  | tmrCapselRead _ => exact execTmrCapselRead_kept _ _ h
  | captureLand _ _ => exact execCaptureLand_kept _ _ _ h
  | tmrCapLoRead _ _ => exact execTmrCapLoRead_kept _ _ _ h
  | tmrGstartGo => exact execTmrGstartGo_kept _ h
  | tmrGstartStop => exact execTmrGstartStop_kept _ h
  | tioBallDrive _ => exact execTioBallDrive_kept _ _ h
  | tioCfgRead _ => exact execTioCfgRead_kept _ _ h
  | stormWindowEnd => exact execStormWindowEnd_kept _ h
  | csi2FrameStart _ _ _ => exact execCsi2FrameStart_kept _ _ _ _ h
  | csi2LineStart _ _ => exact execCsi2LineStart_kept _ _ _ h
  | csi2LongPacket _ _ _ _ _ _ => exact execCsi2LongPacket_kept _ _ _ _ _ _ _ h
  | csi2FrameEnd _ _ => exact execCsi2FrameEnd_kept _ _ _ h
  | ethernetFrameReceive _ _ _ => exact execEthernetFrameReceive_kept _ _ _ _ h
  | ethBlockLockLoss _ => exact execEthBlockLockLoss_kept _ _ h
  | canFrameReceive _ _ => exact execCanFrameReceive_kept _ _ _ h
  | canBusOff _ => exact execCanBusOff_kept _ _ h
  | canBusOffRecovery _ => exact execCanBusOffRecovery_kept _ _ h
  | spiDrdyEvent _ => exact execSpiDrdyEvent_kept _ _ h
  | spiTransactionComplete _ _ => exact execSpiTransactionComplete_kept _ _ _ h
  | triggerRise _ => exact execTriggerRise_kept _ _ h
  | triggerFall _ => exact execTriggerFall_kept _ _ h
  | ingressRecordWrite => exact execIngressRecordWrite_kept _ h
  | eventEntryPost => exact execEventEntryPost_kept _ h
  | ingFillRead => exact execIngFillRead_kept _ h
  | lgsAppendWrite _ _ => exact execLgsAppendWrite_kept _ _ _ h
  | appendProcess _ => exact execAppendProcess_kept _ _ h
  | lgsQfillRead => exact execLgsQfillRead_kept _ h
  | pageProgramComplete _ => exact execPageProgramComplete_kept _ _ h
  | commitPoint => exact execCommitPoint_kept _ h
  | triggerClose _ => exact execTriggerClose_kept _ _ h
  | periodicSeal => exact execPeriodicSeal_kept _ h
  | blockRelocation _ => exact execBlockRelocation_kept _ _ h
  | retentionScrub _ _ _ _ _ => exact execRetentionScrub_kept _ _ _ _ _ _ h
  | segmentReclaim _ => exact execSegmentReclaim_kept _ _ h
  | capsuleCommit => exact execCapsuleCommit_kept _ h
  | brlTrainingComplete _ _ _ _ => exact execBrlTrainingComplete_kept _ _ _ _ _ h
  | brlLaneFailure _ _ => exact execBrlLaneFailure_kept _ _ _ h
  | brlRetrainComplete _ _ => exact execBrlRetrainComplete_kept _ _ _ h
  | brlLinkDown _ _ => exact execBrlLinkDown_kept _ _ _ h
  | brlTimeMessageSend => exact execBrlTimeMessageSend_kept _ h
  | brlTimeMessageReceive _ _ => exact execBrlTimeMessageReceive_kept _ _ _ h
  | brlReplyReceive _ => exact execBrlReplyReceive_kept _ _ h
  | leadLoss => exact execLeadLoss_kept _ h
  | remoteWindowAccessIn _ _ _ _ => exact execRemoteWindowAccessIn_kept _ _ _ _ _ h
  | cubeCommandComplete _ => exact execCubeCommandComplete_kept _ _ h
  | faultRaise _ _ _ => exact execFaultRaise_kept _ _ _ _ h
  | fcuSrcOpenWrite _ _ _ => exact execFcuSrcOpenWrite_kept _ _ _ _ h
  | healthMonitorSample _ => exact execHealthMonitorSample_kept _ _ h
  | ceRateCheck => exact execCeRateCheck_kept _ h
  | eyeMarginCheck _ _ _ => exact execEyeMarginCheck_kept _ _ _ _ h
  | unitSelfTestComplete _ _ _ => exact execUnitSelfTestComplete_kept _ _ _ _ h
  | pbxLockstepMismatch => exact execPbxLockstepMismatch_kept _ h
  | oscCompareEnd _ => exact execOscCompareEnd_kept _ _ h
  | registerWrite _ _ _ => exact execRegisterWrite_kept _ _ _ _ h
  | functionBecomesUsable _ => exact execFunctionBecomesUsable_kept _ _ h
  | junctionTemperatureFall _ => exact execJunctionTemperatureFall_kept _ _ h
  | ethBlockLockGain _ => exact execEthBlockLockGain_kept _ _ h
  | csi2UlpsExit _ => exact execCsi2UlpsExit_kept _ _ h
  | csi2UlpsEntry _ => exact execCsi2UlpsEntry_kept _ _ h
  | debugHalt _ => exact execDebugHalt_kept _ _ h
  | debugHaltRelease _ => exact execDebugHaltRelease_kept _ _ h
  | nandBlockEraseComplete _ _ => exact execNandBlockEraseComplete_kept _ _ _ h

/-- A step of any command but a rising PORST_N. -/
theorem exec_romGrows {c : Instr} {s t : State} (h : exec c s = .next t) (noRise : ∀ x r, c ≠ .porstNRise x r) : s.RomGrows t := by
  by_cases raise : ∃ q sub, c = .svnRaise q sub
  · obtain ⟨q, sub, rfl⟩ := raise
    exact runBasut_romGrows (fun _ _ _ => bodySvnRaise_romGrows ..) h
  by_cases revoke : ∃ q sub, c = .keyRevoke q sub
  · obtain ⟨q, sub, rfl⟩ := revoke
    exact runBasut_romGrows (fun _ _ _ => bodyKeyRevoke_romGrows ..) h
  by_cases cube : ∃ op sub d, c = .cubeCommandReceive op sub d
  · obtain ⟨op, sub, d, rfl⟩ := cube
    rcases act_next _ (cubeReceive op.toNat sub d) s with ⟨_, e⟩ | ⟨_, e⟩
    all_goals
      obtain rfl := Host.Outcome.next.inj (e.symm.trans h)
    · exact cubeReceive_romGrows ..
    · exact .of_kept _ _ rfl
  · push Not at raise revoke cube
    exact .of_kept _ _ (exec_kept h noRise raise revoke cube)

/-- PORST_N rising latches straps; fuses and the waiting commands stay. -/
theorem exec_porstNRise_kept {x : BitVec 7} {r : BitVec 3} {s t : State} (h : exec (.porstNRise x r) s = .next t) :
    t.fuses = s.fuses ∧ t.pending = s.pending := by
  rcases act_next (!s.pins.porstN) (porstRise x r) s with ⟨_, e⟩ | ⟨_, e⟩
  all_goals
    obtain rfl := Host.Outcome.next.inj (e.symm.trans h)
    exact ⟨rfl, rfl⟩

/-- What a step does: a tick, or the front command on the state without it. -/
theorem step_next {s t : State} (h : step s = .next t) :
    (s.pending = [] ∧ t = idle s) ∨ ∃ c rest, s.pending = c :: rest ∧ exec c { s with pending := rest } = .next t := by
  unfold step at h
  split at h
  next empty => exact .inl ⟨empty, (Host.Outcome.next.inj h).symm⟩
  next c rest waiting => exact .inr ⟨c, rest, waiting, h⟩

/-- A step blows fuses at most and takes the front of the queue alone. -/
theorem step_fuses_pending {s t : State} (h : step s = .next t) : s.fuses.le t.fuses ∧ t.pending = s.pending.tail := by
  rcases step_next h with ⟨empty, rfl⟩ | ⟨c, rest, waiting, h⟩
  · obtain ⟨fuses, pending, -⟩ := State.RomGrows.of_kept s _ (idle_kept s)
    exact ⟨fuses, by rw [pending, empty, List.tail_nil]⟩
  · rw [waiting, List.tail_cons]
    by_cases rise : ∃ x r, c = .porstNRise x r
    · obtain ⟨x, r, rfl⟩ := rise
      obtain ⟨fuses, pending⟩ := exec_porstNRise_kept h
      exact ⟨fuses ▸ Fuses.le_refl _, pending⟩
    · push Not at rise
      obtain ⟨fuses, pending, -⟩ := exec_romGrows h rise
      exact ⟨fuses, pending⟩

/-- Settles O43: every command keeps the fuses, or blows some, or latches the straps alone. -/
theorem fusesOnlyGrow : Obligations.FusesOnlyGrow := fun _ _ h => (step_fuses_pending h).1

/-- Settles O45: no command touches the queue behind the front. -/
theorem queueOrder : Obligations.QueueOrder := fun _ _ h => (step_fuses_pending h).2

/-- Settles O44: every command but PORST_N rising keeps the straps. -/
theorem strapsHeld : Obligations.StrapsHeld := by
  intro s t noRise h
  rcases step_next h with ⟨-, rfl⟩ | ⟨c, rest, waiting, h⟩
  · exact (State.RomGrows.of_kept s _ (idle_kept s)).2.2
  · refine (exec_romGrows h fun x r e => noRise x r ?_).2.2
    rw [waiting, e, List.head?_cons]

end Sys2Proof.Machine
end

section
/-! PROOFS. No command stops the block: every one answers a next state (R555). -/
namespace Sys2Proof.Machine

/-- An instruction of a class issues, raises an exception or waits. -/
theorem issue_total (e : Eng) (cls : EClass) (f : EOp → State → Option State) (s : State) : ∃ t, issue e cls f s = .next t := by
  unfold issue
  split
  · exact ⟨_, rfl⟩
  · exact ⟨_, rfl⟩

/-- A microword issues, ends its thread or waits. -/
theorem mwIssue_total (e : Eng) (th : Nat) (word : Option W64) (cls : Nat) (s : State) : ∃ t, mwIssue e th word cls s = .next t := by
  unfold mwIssue
  dsimp only
  split
  · exact ⟨_, rfl⟩
  split
  · exact ⟨_, rfl⟩
  split
  · exact ⟨_, rfl⟩
  split
  · exact ⟨_, rfl⟩
  · exact act_total ..

theorem execFgNextRead_total (e : Eng) (s : State) : ∃ t, execFgNextRead e s = .next t := by
  unfold execFgNextRead
  split
  · split
    · exact ⟨_, rfl⟩
    · exact issue_total ..
  · exact ⟨_, rfl⟩

theorem execInterruptEntry_total (e : Eng) (s : State) : ∃ t, execInterruptEntry e s = .next t := by
  unfold execInterruptEntry
  dsimp only
  split
  · exact ⟨_, rfl⟩
  · exact ⟨_, rfl⟩

theorem execInterruptTakeover_total (e : Eng) (s : State) : ∃ t, execInterruptTakeover e s = .next t := by
  unfold execInterruptTakeover
  dsimp only
  split
  · exact act_total ..
  · exact ⟨_, rfl⟩

/-- Every command but these answers by `act`, or by one next state outright. -/
theorem exec_total (c : Instr) (s : State) : ∃ t, exec c s = .next t := by
  cases c
  case fgNextRead => exact execFgNextRead_total ..
  case interruptEntry => exact execInterruptEntry_total ..
  case interruptTakeover => exact execInterruptTakeover_total ..
  case mwNop | mwUalu | mwLdc | mwLane | mwExec | mwBr | mwCall | mwLoop | mwEnd | mwStage | mwCwait =>
    exact mwIssue_total ..
  case integerOp | carryBorrowOp | bitOp | multiplyOp | divideOp | pairedWord | load | lwx | store | atomic | branch |
      jump | jalr | loop | mfc | mtc | syscall | brk | rfe | sync | iflush | wait | fpArith | fpMinMaxCompare |
      fpConvert | setvl | shape | shaper | vrds | vwrs | vectorArith | vectorCompare | vectorReduction | vectorPermute
      | vgetVput | vectorLoad | vectorStore | sstart | sstarta | swait | sstat | scancel =>
    exact issue_total ..
  all_goals exact ⟨_, rfl⟩

/-- Settles O42: a tick answers a next state, and so does every command. -/
theorem noStop : Obligations.NoStop := by
  intro s
  unfold Safe step
  split
  · exact ⟨_, rfl⟩
  · exact exec_total ..

end Sys2Proof.Machine
end

section
/-! PROOFS. The order in which the arbiter visits SQs (R89). -/
namespace Sys2Proof.Machine

theorem nextAfter_mem {last q : Nat} {l : List Nat} (h : nextAfter last l = some q) : q ∈ l := by
  unfold nextAfter at h
  split at h
  next found =>
    obtain rfl := Option.some.inj h
    exact List.mem_of_find?_eq_some found
  · exact List.mem_of_head? h

theorem nextAfter_eq_none_iff {last : Nat} {l : List Nat} : nextAfter last l = none ↔ l = [] := by
  unfold nextAfter
  split
  next found => simp [List.ne_nil_of_mem (List.mem_of_find?_eq_some found)]
  · exact List.head?_eq_none_iff

/-- The SQs that can be fetched. -/
def State.fetchable (s : State) : List Nat := (s.link.qps.filter fun p => canFetch s p.1 p.2).map (·.1)

theorem State.mem_fetchable {s : State} {q : Nat} : q ∈ s.fetchable ↔ ∃ c, (q, c) ∈ s.link.qps ∧ canFetch s q c = true := by
  simp [State.fetchable]

/-- The arbiter names an admin queue where one can be fetched, else the next SQ of all. -/
theorem nextSq_cases {s : State} {q : Nat} (h : nextSq s = some q) :
    (q ∈ s.fetchable ∧ s.isAdmin q = true) ∨ (q ∈ s.fetchable ∧ ∀ a ∈ s.fetchable, s.isAdmin a = false) := by
  change (match nextAfter s.link.lastAdmin (s.fetchable.filter s.isAdmin) with
    | some q => some q | none => nextAfter s.link.lastVisit s.fetchable) = some q at h
  split at h
  next admin =>
    obtain rfl := Option.some.inj h
    exact .inl (List.mem_filter.mp (nextAfter_mem admin))
  next noAdmin =>
    refine .inr ⟨nextAfter_mem h, ?_⟩
    simpa using nextAfter_eq_none_iff.mp noAdmin

/-- Settles O48: by what `nextSq` names. -/
theorem adminQueuesFirst : Obligations.AdminQueuesFirst := by
  intro s q h
  rcases nextSq_cases h with ⟨can, admin⟩ | ⟨can, noAdmin⟩
  · exact ⟨State.mem_fetchable.mp can, fun _ => admin⟩
  · refine ⟨State.mem_fetchable.mp can, ?_⟩
    rintro ⟨a, c, held, fetch, admin⟩
    simp [noAdmin a (State.mem_fetchable.mpr ⟨c, held, fetch⟩)] at admin

end Sys2Proof.Machine
end

section
/-! PROOFS. A raise of a source whose record is open (R511). -/
namespace Sys2Proof.Machine

/-- The record of a source raised once more at `now`. -/
def FaultRec.merge (now : W64) (r : FaultRec) : FaultRec := { r with merges := satAdd 16 r.merges 1, last := now }

/-- A raise of an open source below severity 3 counts and stamps. -/
theorem raiseFault_of_open {s : State} {id : Nat} (info : W64) (unit : W16) (running : s.fcu.running = true)
    (impl : srcImpl id = true) (isOpen : (s.frec id).isOpen = true) (below : s.sevOf id ≠ 3) :
    raiseFault id info unit s =
      (s.setRec id (FaultRec.merge s.now)).modFcu fun u => { u with merged := u.merged + 1 } := by
  simp [raiseFault, openFault, running, impl, isOpen, below]
  rfl

/-- Settles O50: such a raise touches one record and one counter. -/
theorem mergedRaise : Obligations.MergedRaise := by
  intro s id info unit running impl isOpen below
  refine ⟨_, rfl, ?_⟩
  rw [raiseFault_of_open info unit running impl isOpen below]
  refine ⟨?_, fun j other => ?_, rfl, rfl, rfl, rfl, rfl, rfl⟩
  · refine (setRec_frec_same s id (FaultRec.merge s.now)).trans ?_
    rw [FaultRec.merge, satAdd, min_comm]
    rfl
  · exact setRec_frec_ne s (FaultRec.merge s.now) other

end Sys2Proof.Machine
end

section
/-! PROOFS. A stroke marked overloaded stays so while entries are posted and faults are raised (R195). -/
namespace Sys2Proof.Machine

theorem foldl_loaded {α : Type} {f : State → α → State} (h : ∀ s a, s.stroke.loaded = true → (f s a).stroke.loaded = true)
    (l : List α) {s : State} (hs : s.stroke.loaded = true) : (l.foldl f s).stroke.loaded = true := by
  induction l generalizing s with
  | nil => exact hs
  | cons a l ih => exact ih (h s a hs)

@[simp] theorem sendMsix_stroke (v vec : Nat) (s : State) : (sendMsix v vec s).stroke = s.stroke := by
  unfold sendMsix
  split <;> rfl

@[simp] theorem moderate_stroke (q : Nat) (success : Bool) (s : State) : (moderate q success s).stroke = s.stroke := by
  unfold moderate
  dsimp only
  split
  · rfl
  split
  · exact sendMsix_stroke ..
  · rfl

@[simp] theorem writeCqe_stroke (q : Nat) (e : Cqe) (s : State) : (writeCqe q e s).stroke = s.stroke :=
  moderate_stroke ..

theorem openOverflow_loaded (q : Nat) (e : Cqe) (s : State) : (openOverflow q e s).stroke.loaded = true := by
  unfold openOverflow
  dsimp only
  split
  · rfl
  · simp [State.count, State.setQp]

theorem postUnsol_loaded (q : Nat) (e : Cqe) {s : State} (h : s.stroke.loaded = true) : (postUnsol q e s).stroke.loaded = true := by
  unfold postUnsol
  dsimp only
  split
  · exact h
  split
  · simpa [State.count] using h
  · simp only [State.count, State.setQp, State.modLink_stroke]
    split
    · exact h
    · exact openOverflow_loaded ..

theorem postCovered_loaded (kind src : Nat) (e : Cqe) {s : State} (h : s.stroke.loaded = true) :
    (postCovered kind src e s).stroke.loaded = true := by
  unfold postCovered
  split
  · exact postUnsol_loaded _ _ h
  · exact foldl_loaded (fun _ _ => postUnsol_loaded _ _) _ h

@[simp] theorem finish_stroke (q cid st : Nat) (r : W32) (s : State) : (finish q cid st r s).stroke = s.stroke := by
  unfold finish finishAt
  split
  · rfl
  split <;> rfl

theorem enterSafe_loaded (id : Nat) (info : W64) (unit : W16) {s : State} (h : s.stroke.loaded = true) :
    (enterSafe id info unit s).stroke.loaded = true := by
  unfold enterSafe
  split
  · exact h
  · exact foldl_loaded (fun t _ ht => by simpa using ht) _ (foldl_loaded (fun t _ ht => by simpa using ht) _ h)

theorem openFault_loaded (id : Nat) (info : W64) (unit : W16) {s : State} (h : s.stroke.loaded = true) :
    (openFault id info unit s).stroke.loaded = true := by
  unfold openFault
  dsimp only
  split
  · exact h
  split
  · split
    · exact enterSafe_loaded _ _ _ h
    · exact h
  · set opened := journal 0 id _ _ 0 _ info unit _ with hopened
    have kept : opened.stroke.loaded = true := h
    have posted : (if 1 ≤ s.sevOf id then (faultEntry id 0 (s.sevOf id) opened).emit (.pegboxIrq id) else opened).stroke.loaded =
        true := by
      split
      · exact postCovered_loaded _ _ _ kept
      · exact kept
    split
    · exact enterSafe_loaded _ _ _ posted
    · exact posted

theorem propose_loaded (cls index reason src : Nat) (detail : W64) {s : State} (h : s.stroke.loaded = true) :
    (propose cls index reason src detail s).stroke.loaded = true := by
  unfold propose
  split
  · exact h
  split
  · exact h
  · exact openFault_loaded _ _ _ h

theorem raiseFault_loaded (id : Nat) (info : W64) (unit : W16) {s : State} (h : s.stroke.loaded = true) :
    (raiseFault id info unit s).stroke.loaded = true := by
  have raised := openFault_loaded id info unit h
  unfold raiseFault
  dsimp only
  split
  · split
    · exact propose_loaded _ _ _ _ _ raised
    · exact raised
  · exact raised

end Sys2Proof.Machine
end

section
/-! PROOFS. Admission and refusal of ingress records (R430, R431). -/
namespace Sys2Proof.Machine

theorem ports_of_deep {s t : State} (h : t.deep = s.deep) : t.ports = s.ports := congrArg (·.2.2.2.2.1) h

@[simp] theorem raiseFault_ports (id : Nat) (info : W64) (unit : W16) (s : State) : (raiseFault id info unit s).ports = s.ports :=
  ports_of_deep (raiseFault_deep ..)

/-- What an offered record becomes: admitted or refused, under the class of its stream. -/
theorem offer_of_ring {s : State} {r : IngRecord} (ty port n : Nat) (ring : (s.stream r.stream).ring ≠ none) :
    offer ty port n r s =
      if s.ports.admits ((s.stream r.stream).cls.getD r.cls) n then admitRecord { r with cls := (s.stream r.stream).cls.getD r.cls } s
      else refuseRecord ty port { r with cls := (s.stream r.stream).cls.getD r.cls } s := by
  rw [offer, if_neg (by simpa using ring)]

theorem offer_of_no_ring {s : State} {r : IngRecord} (ty port n : Nat) (noRing : (s.stream r.stream).ring = none) :
    offer ty port n r s = s := by
  rw [offer, if_pos (by simpa using noRing)]

theorem admitRecord_eq (r : IngRecord) (s : State) : admitRecord r s = { s with ports := (admitRecord r s).ports } := rfl

/-- A stream after one admitted record. -/
def IngStream.accept (x : IngStream) : IngStream := { x with seq := x.seq + 1, refused := none }

/-- A stream after the refusal of `r`: the sequence number is used, and the refusal kept for the gap record (R431). -/
def IngStream.refuse (r : IngRecord) (x : IngStream) : IngStream :=
  { x with
    seq := x.seq + 1
    refused := match x.refused with
      | some (q, v, k, _, n) => some (q, v, k, r.stamp, n + 1)
      | none => some (x.seq, r.stamp, r.ql, r.stamp, 1) }

theorem IngStream.refuse_refused_isSome (r : IngRecord) (x : IngStream) : (x.refuse r).refused.isSome = true := by
  unfold IngStream.refuse
  dsimp only
  split <;> rfl

@[simp] theorem admitRecord_stream (r : IngRecord) (s : State) :
    (admitRecord r s).stream r.stream = (s.stream r.stream).accept :=
  State.stream_setStream_same s r.stream IngStream.accept

theorem admitRecord_fill (r : IngRecord) (s : State) : (admitRecord r s).ports.fill = s.ports.fill + r.payload.length := rfl

/-- The record behind the gap record of its stream's refusals. -/
theorem admitRecord_queue (r : IngRecord) (s : State) : (admitRecord r s).ports.queue =
    s.ports.queue ++ ((s.stream r.stream).refused.map (gapRecord r.stream r.cls)).toList ++
      [{ r with seq := (s.stream r.stream).seq }] := by
  cases h : (s.stream r.stream).refused <;> simp [admitRecord, h, State.setStream]

theorem refuseRecord_ports (ty port : Nat) (r : IngRecord) (s : State) : 
    (refuseRecord ty port r s).ports.queue = s.ports.queue ∧ (refuseRecord ty port r s).ports.fill = s.ports.fill ∧
      (refuseRecord ty port r s).stream r.stream = (s.stream r.stream).refuse r := by
  have stream := State.stream_setStream_same s r.stream (IngStream.refuse r)
  unfold refuseRecord
  dsimp only
  simp only [raiseFault_ports, State.stream, State.modStroke_ports]
  split
  all_goals exact ⟨rfl, rfl, stream⟩

theorem refuseRecord_loaded (ty port : Nat) (r : IngRecord) (s : State) : (refuseRecord ty port r s).stroke.loaded = true :=
  raiseFault_loaded _ _ _ rfl

/-- Settles O51: by what admission and refusal do to the queue, the fill and the record's stream. -/
theorem ingressAdmission : Obligations.IngressAdmission := by
  intro s ty port n r
  refine ⟨offer_of_no_ring ty port n, ?_⟩
  rintro c ring rfl -
  rw [offer_of_ring ty port n ring, Ports.admits]
  constructor
  · intro fits
    rw [if_pos (decide_eq_true fits)]
    have stream := admitRecord_stream { r with cls := (s.stream r.stream).cls.getD r.cls } s
    refine ⟨_, rfl, admitRecord_fill .., ?_, ?_, ?_, ?_, admitRecord_eq ..⟩
    · simp [admitRecord_queue]
    · exact congrArg IngStream.refused stream
    · exact congrArg IngStream.seq stream
    · rw [admitRecord_queue]
      cases (s.stream r.stream).refused <;> simp
  · intro full
    rw [if_neg (by simpa using full)]
    obtain ⟨queue, fill, stream⟩ := refuseRecord_ports ty port { r with cls := (s.stream r.stream).cls.getD r.cls } s
    refine ⟨_, rfl, queue, fill, ?_, ?_, refuseRecord_loaded ..⟩
    · rw [stream]
      exact IngStream.refuse_refused_isSome ..
    · exact congrArg IngStream.seq stream

end Sys2Proof.Machine
end

section
/-! PROOFS. Stores to an LSP, a CSM or DRAM, codeword by codeword (R366, R370). -/
namespace Sys2Proof.Machine

/-- The memories a store can write. -/
def MemRef.writable : MemRef → Bool
  | .lsp _ _ | .csm _ | .dram => true
  | .rom _ _ | .emram => false

theorem State.memOf_setMem {m : MemRef} (hm : m.writable = true) (s : State) (v : Mem) : (s.setMem m v).memOf m = v := by
  cases m with
  | lsp n p => simp [State.setMem, State.memOf]
  | csm n => exact tabGet_tabSet_same ..
  | dram => rfl
  | rom n p => simp [MemRef.writable] at hm
  | emram => simp [MemRef.writable] at hm

theorem State.memByte_eq {m : MemRef} (hm : m.writable = true) (s : State) (x : Nat) : s.memByte m x = memRead (s.memOf m) x := by
  cases m with
  | lsp _ _ | csm _ | dram => rfl
  | rom n p => simp [MemRef.writable] at hm
  | emram => simp [MemRef.writable] at hm

@[simp] theorem State.memOf_setEcc (m : MemRef) (s : State) (key : Nat) (f : EccRec → EccRec) :
    (s.setEcc key f).memOf m = s.memOf m := by
  cases m <;> rfl

@[simp] theorem State.ecc_setMem (m : MemRef) (s : State) (v : Mem) (key : Nat) : (s.setMem m v).ecc key = s.ecc key := by
  cases m <;> rfl

theorem eccWritten_memOf (m : MemRef) (c : Cw) (first : Bool) (s : State) : (eccWritten c first s).memOf m = s.memOf m := by
  unfold eccWritten
  dsimp only
  repeat' split
  all_goals simp

/-- The memory with key `key` holds no error and no injection. -/
def State.eccClean (s : State) (key : Nat) : Prop := (s.ecc key).bad = [] ∧ (s.ecc key).armed = none

theorem eccWritten_eccClean {key : Nat} (c : Cw) (first : Bool) {s : State} (h : s.eccClean key) :
    (eccWritten c first s).eccClean key := by
  rcases eq_or_ne key c.key with rfl | other
  · obtain ⟨bad, armed⟩ := h
    unfold eccWritten
    simp only [armed]
    split
    · exact ⟨bad, armed⟩
    · simp [State.eccClean, bad, armed, tabDel]
  · have same : ∀ t f, (State.setEcc t c.key f).ecc key = t.ecc key := fun t f => State.ecc_setEcc_ne t f other
    unfold eccWritten State.eccClean
    dsimp only
    repeat' split
    all_goals simpa only [State.eccClean, same] using h

theorem eccCheck_of_clean {c : Cw} {s : State} (h : s.eccClean c.key) (first : Bool) : eccCheck c first s = (some [], s) := by
  simp [eccCheck, h.1, h.2]

/-- The part of the bytes at `a` that lies in codeword `c`, written. -/
def cwWrite (c : Cw) (a : Nat) (bytes : List Byte) (v : Mem) : Mem :=
  memWriteList v (max a c.start) ((bytes.drop (max a c.start - a)).take (min (a + bytes.length) (c.start + c.k) - max a c.start))

/-- A store to a codeword that is written whole, or whose memory is clean, writes the bytes that lie in it. -/
theorem storeCw_eq {m : MemRef} {c : Cw} {a : Nat} {bytes : List Byte} {s : State} (first : Bool)
    (h : (a ≤ c.start ∧ c.start + c.k ≤ a + bytes.length) ∨ s.eccClean c.key) :
    storeCw m c first a bytes s = (true, eccWritten c first (s.setMem m (cwWrite c a bytes (s.memOf m)))) := by
  unfold storeCw
  by_cases whole : a ≤ c.start ∧ c.start + c.k ≤ a + bytes.length
  · simp [whole, storeResidue, cwWrite]
  · simp only [Bool.and_eq_true, decide_eq_true_eq, whole, if_false, eccCheck_of_clean (h.resolve_left whole)]
    rfl

theorem memWf_cwWrite (c : Cw) (a : Nat) (bytes : List Byte) {v : Mem} (h : memWf v = true) : memWf (cwWrite c a bytes v) = true :=
  memWf_memWriteList _ _ _ h

/-- Address `x` lies in codeword `c`. -/
def Cw.has (c : Cw) (x : Nat) : Prop := c.start ≤ x ∧ x < c.start + c.k

theorem memRead_cwWrite_in {c : Cw} {a x : Nat} {bytes : List Byte} {v : Mem} (h : memWf v = true) (hc : c.has x) (ha : a ≤ x)
    (hx : x < a + bytes.length) : memRead (cwWrite c a bytes v) x = (bytes[x - a]?).getD 0 := by
  obtain ⟨lo, hi⟩ := hc
  obtain ⟨i, rfl⟩ := Nat.exists_eq_add_of_le (show max a c.start ≤ x by omega)
  have len : i < ((bytes.drop (max a c.start - a)).take (min (a + bytes.length) (c.start + c.k) - max a c.start)).length := by
    rw [List.length_take, List.length_drop]
    omega
  have place : max a c.start - a + i = max a c.start + i - a := by omega
  have inside : max a c.start + i - a < bytes.length := by omega
  rw [cwWrite, memRead_memWriteList_at _ _ _ _ h len, List.getElem_take, List.getElem_drop, List.getElem?_eq_getElem inside]
  simp [place]

theorem memRead_cwWrite_out {c : Cw} {a x : Nat} {bytes : List Byte} {v : Mem}
    (h : ¬ (c.has x ∧ a ≤ x ∧ x < a + bytes.length)) : memRead (cwWrite c a bytes v) x = memRead v x := by
  apply memRead_memWriteList_ne
  rw [List.length_take, List.length_drop]
  unfold Cw.has at h
  omega

/-- Every codeword of the list is written whole, or its memory is clean. -/
def storesPlainly (cs : List Cw) (a n : Nat) (s : State) : Prop :=
  ∀ c ∈ cs, (a ≤ c.start ∧ c.start + c.k ≤ a + n) ∨ s.eccClean c.key

/-- One step of `memStore`: the store to one codeword. -/
def storeStep (m : MemRef) (head : Option Cw) (a : Nat) (bytes : List Byte) (acc : Bool × State) (c : Cw) : Bool × State :=
  let (ok, s) := storeCw m c (some c == head) a bytes acc.2
  (acc.1 && ok, s)

theorem memStore_eq_foldl {m : MemRef} (hm : m.writable = true) (a : Nat) (bytes : List Byte) (s : State) :
    memStore m a bytes s =
      (cwsOf m a bytes.length).foldl (storeStep m (cwsOf m a bytes.length).head? a bytes) (true, s) := by
  cases m with
  | lsp _ _ | csm _ | dram => rfl
  | rom n p => simp [MemRef.writable] at hm
  | emram => simp [MemRef.writable] at hm

/-- The store to a list of codewords, address by address. -/
theorem foldl_storeStep {m : MemRef} (hm : m.writable = true) (head : Option Cw) (a : Nat) (bytes : List Byte) (cs : List Cw)
    (ok : Bool) {s : State} (plain : storesPlainly cs a bytes.length s) (wf : memWf (s.memOf m) = true) :
    memWf ((cs.foldl (storeStep m head a bytes) (ok, s)).2.memOf m) = true ∧
    (∀ x, (∃ c ∈ cs, c.has x) → a ≤ x → x < a + bytes.length →
      memRead ((cs.foldl (storeStep m head a bytes) (ok, s)).2.memOf m) x = (bytes[x - a]?).getD 0) ∧
    ∀ x, ¬ ((∃ c ∈ cs, c.has x) ∧ a ≤ x ∧ x < a + bytes.length) →
      memRead ((cs.foldl (storeStep m head a bytes) (ok, s)).2.memOf m) x = memRead (s.memOf m) x := by
  induction cs generalizing ok s with
  | nil => exact ⟨wf, fun x h => by simp at h, fun _ _ => rfl⟩
  | cons c cs ih =>
    have step : storeStep m head a bytes (ok, s) c =
        (ok && true, eccWritten c (some c == head) (s.setMem m (cwWrite c a bytes (s.memOf m)))) := by
      rw [storeStep, storeCw_eq _ (plain c List.mem_cons_self)]
    rw [List.foldl_cons, step]
    set u := eccWritten c (some c == head) (s.setMem m (cwWrite c a bytes (s.memOf m))) with hu
    have mem : u.memOf m = cwWrite c a bytes (s.memOf m) := by rw [hu, eccWritten_memOf, State.memOf_setMem hm]
    have plainRest : storesPlainly cs a bytes.length u := fun d hd =>
      (plain d (List.mem_cons_of_mem c hd)).imp id fun clean =>
        eccWritten_eccClean _ _ (by simpa only [State.eccClean, State.ecc_setMem] using clean)
    obtain ⟨wfRest, inside, outside⟩ := ih (ok && true) plainRest (mem ▸ memWf_cwWrite c a bytes wf)
    rw [mem] at outside
    refine ⟨wfRest, fun x covered lo hi => ?_, fun x away => ?_⟩
    · by_cases rest : ∃ d ∈ cs, d.has x
      · exact inside x rest lo hi
      · have here : c.has x := by simpa [rest] using covered
        rw [outside x fun h => rest h.1, memRead_cwWrite_in wf here lo hi]
    · have awayRest : ¬ ((∃ d ∈ cs, d.has x) ∧ a ≤ x ∧ x < a + bytes.length) := fun ⟨⟨d, hd, has⟩, range⟩ =>
        away ⟨⟨d, List.mem_cons_of_mem c hd, has⟩, range⟩
      rw [outside x awayRest]
      exact memRead_cwWrite_out fun ⟨has, range⟩ => away ⟨⟨c, List.mem_cons_self, has⟩, range⟩

/-- Data bytes of a codeword of a memory. -/
def MemRef.cwSize : MemRef → Nat
  | .csm _ => 16
  | _ => 32

theorem cwOf_start_k (m : MemRef) (a : Nat) : (cwOf m a).start = a / m.cwSize * m.cwSize ∧ (cwOf m a).k = m.cwSize := by
  cases m <;> exact ⟨rfl, rfl⟩

theorem cwsOf_eq (m : MemRef) {a n : Nat} (hn : 0 < n) :
    cwsOf m a n = (List.range ((a + n - 1) / m.cwSize - a / m.cwSize + 1)).map fun i =>
      cwOf m ((a / m.cwSize + i) * m.cwSize) := by
  have ne : (n == 0) = false := by simpa using hn.ne'
  cases m <;> simp [cwsOf, ne, MemRef.cwSize]

/-- Every byte of an access lies in one of its codewords. -/
theorem cwsOf_covers (m : MemRef) {a n x : Nat} (lo : a ≤ x) (hi : x < a + n) : ∃ c ∈ cwsOf m a n, c.has x := by
  have pos : 0 < m.cwSize := by cases m <;> simp [MemRef.cwSize]
  have low : a / m.cwSize ≤ x / m.cwSize := Nat.div_le_div_right lo
  have high : x / m.cwSize ≤ (a + n - 1) / m.cwSize := Nat.div_le_div_right (by omega)
  refine ⟨cwOf m (x / m.cwSize * m.cwSize), ?_, ?_⟩
  · rw [cwsOf_eq m (by omega)]
    exact List.mem_map.mpr ⟨x / m.cwSize - a / m.cwSize, List.mem_range.mpr (by omega), by rw [Nat.add_sub_cancel' low]⟩
  · obtain ⟨start, size⟩ := cwOf_start_k m (x / m.cwSize * m.cwSize)
    rw [Cw.has, start, size, Nat.mul_div_cancel _ pos]
    exact ⟨Nat.div_mul_le_self .., by rw [mul_comm]; exact Nat.lt_mul_div_succ x pos⟩

/-- Settles O52: a store writes each of its codewords plainly, and its codewords cover its bytes. -/
theorem memoryStores : Obligations.MemoryStores := by
  intro m a b s t wf stored plain
  have hm : m.writable = true := by
    cases m with
    | lsp _ _ | csm _ | dram => rfl
    | rom _ _ | emram => simp [memStore] at stored
  rw [memStore_eq_foldl hm] at stored
  obtain ⟨wfAfter, inside, outside⟩ := foldl_storeStep hm (cwsOf m a b.length).head? a b (cwsOf m a b.length) true plain (wf m)
  rw [stored] at wfAfter inside outside
  refine ⟨fun i hi => ?_, fun x away => ?_, wfAfter⟩
  · rw [State.memByte_eq hm, inside (a + i) (cwsOf_covers m (by omega) (by omega)) (by omega) (by omega), Nat.add_sub_cancel_left]
  · rw [State.memByte_eq hm, State.memByte_eq hm, outside x fun h => by omega]

end Sys2Proof.Machine
end

section
/-! PROOFS. Resets and their causes (R14, R43 to R45). -/
namespace Sys2Proof.Machine

theorem straps_mod_four (x : BitVec 7) :
    x.toNat % 4 = 3 ↔ ¬ (x.getLsbD 0 = false ∨ x.getLsbD 1 = false) := by
  revert x
  decide

/-- After PORST_N has risen the device runs where BOOTSRC is not 0b11 and all three rails are good (R16, R31). -/
theorem porstRise_alive (straps : BitVec 7) (rails : BitVec 3) (s : State) :
    (porstRise straps rails s).alive = true ↔ (straps.getLsbD 0 = false ∨ straps.getLsbD 1 = false) ∧ rails = 7 := by
  have held : (porstRise straps rails s).alive = !(straps.toNat % 4 == 3 || rails != 7) := rfl
  rw [held]
  simp [straps_mod_four, imp_iff_not_or]

theorem porstRise_eq (straps : BitVec 7) (rails : BitVec 3) (s : State) : porstRise straps rails s = { s with
    pins := { s.pins with porstN := true, rails := rails }
    boot := { s.boot with
      straps := straps, held := decide (straps.toNat % 4 = 3 ∨ rails ≠ 7), firstBoot := !s.em.marker, phase := .selftest } } := by
  have held : (straps.toNat % 4 == 3 || rails != 7) = decide (straps.toNat % 4 = 3 ∨ rails ≠ 7) := by
    simp [bne, beq_eq_decide]
  rw [← held]
  rfl

/-- Settles O1: each reset row by the state it builds. -/
theorem resetRows : Obligations.ResetRows := by
  refine ⟨fun s high => ?_, fun s straps rails low => ?_, fun s rail high => ?_, fun s k alive request idle => ?_⟩
  · refine Runs.of_act (show _ = execPorstNLow s from rfl) high ?_
    exact ⟨rfl, rfl, rfl, rfl, rfl, rfl, rfl, rfl, rfl, rfl, rfl, rfl, rfl, rfl, rfl, rfl⟩
  · exact Runs.of_act rfl (by simp [low]) ⟨porstRise_eq .., porstRise_alive ..⟩
  · refine Runs.of_act rfl high ?_
    exact ⟨rfl, rfl, rfl, rfl, Bool.and_false _, rfl, rfl, rfl, rfl, rfl⟩
  · refine Runs.of_act rfl (by simp [alive, request, idle]) ?_
    rw [request]
    exact ⟨rfl, rfl, rfl, rfl, rfl, rfl, rfl, rfl, rfl, rfl, rfl, rfl, rfl, rfl, rfl, rfl, rfl⟩

end Sys2Proof.Machine
end

section
/-! PROOFS. Commands that change the host link alone. -/
namespace Sys2Proof.Machine

/-- `t` differs from `s` in the QP contexts alone. -/
def State.OnlyQps (s t : State) : Prop := t = { s with link := { s.link with qps := t.link.qps } }

theorem State.OnlyQps.refl (s : State) : s.OnlyQps s := rfl

theorem State.OnlyQps.trans {s t u : State} (st : s.OnlyQps t) (tu : t.OnlyQps u) : s.OnlyQps u := by
  rw [OnlyQps, tu, st]

theorem State.OnlyQps.setQp (s : State) (q : Nat) (f : Qp → Qp) : s.OnlyQps (s.setQp q f) := rfl

theorem State.OnlyQps.foldl {α : Type} {f : State → α → State} (h : ∀ (s : State) a, s.OnlyQps (f s a)) (l : List α) (s : State) :
    s.OnlyQps (l.foldl f s) := by
  induction l generalizing s with
  | nil => exact .refl s
  | cons a l ih => exact (h s a).trans (ih _)

theorem deleteFn_onlyQps (v : Nat) (s : State) : s.OnlyQps (deleteFn v s) :=
  .foldl (fun s _ => .setQp s ..) _ s

/-- The QPs of a function deleting, with no SQ read outstanding. -/
def stopQps (v : Nat) (s : State) : State := (s.qpsOf v).foldl (fun s q => dropReads q s) (deleteFn v s)

theorem stopQps_onlyQps (v : Nat) (s : State) : s.OnlyQps (stopQps v s) :=
  (deleteFn_onlyQps v s).trans (.foldl (fun s _ => .setQp s ..) _ _)

/-- `t` differs from `s` in the host link alone. -/
def State.OnlyLink (s t : State) : Prop := t = { s with link := t.link }

theorem State.OnlyLink.refl (s : State) : s.OnlyLink s := rfl

theorem State.OnlyLink.trans {s t u : State} (st : s.OnlyLink t) (tu : t.OnlyLink u) : s.OnlyLink u := by
  rw [OnlyLink, tu, st]

theorem State.OnlyLink.modLink (s : State) (f : Link → Link) : s.OnlyLink (s.modLink f) := rfl

theorem State.OnlyQps.onlyLink {s t : State} (h : s.OnlyQps t) : s.OnlyLink t := by
  rw [OnlyLink, h]

theorem State.OnlyLink.foldl {α : Type} {f : State → α → State} (h : ∀ (s : State) a, s.OnlyLink (f s a)) (l : List α) (s : State) :
    s.OnlyLink (l.foldl f s) := by
  induction l generalizing s with
  | nil => exact .refl s
  | cons a l ih => exact (h s a).trans (ih _)

theorem resetFn_eq (v : Nat) (s : State) : resetFn v s = (stopQps v s).modLink fun l => { l with
    fns := tabDel l.fns v
    msix := l.msix.filter fun e => e.1 / 2048 != v
    pba := l.pba.filter fun k => k / 2048 != v } := rfl

theorem resetFn_onlyLink (v : Nat) (s : State) : s.OnlyLink (resetFn v s) :=
  (stopQps_onlyQps v s).onlyLink.trans (.modLink ..)

/-- What a reset of a function leaves of the host link: its registers, its vectors and its pending messages are gone. -/
theorem resetFn_link (v : Nat) (s : State) : (resetFn v s).link = { s.link with
    qps := (resetFn v s).link.qps
    fns := tabDel s.link.fns v
    msix := s.link.msix.filter fun e => e.1 / 2048 != v
    pba := s.link.pba.filter fun k => k / 2048 != v } := by
  have stopped : (stopQps v s).link = { s.link with qps := (stopQps v s).link.qps } :=
    congrArg State.link (stopQps_onlyQps v s)
  rw [resetFn_eq, State.modLink_link, stopped]

theorem vfsClear_onlyLink (s : State) : s.OnlyLink (vfsClear s) := by
  unfold vfsClear
  exact .trans (.foldl (fun s v => resetFn_onlyLink v s) _ s) (.modLink ..)

theorem flr_onlyLink (v : Nat) (s : State) : s.OnlyLink (flr v s) := by
  unfold flr
  split
  · exact (vfsClear_onlyLink s).trans ((resetFn_onlyLink 0 _).trans (.modLink ..))
  · exact resetFn_onlyLink v s

theorem mem_tabDel {α : Type} {t : Tab α} {i : Nat} {p : Nat × α} : p ∈ tabDel t i ↔ p ∈ t ∧ p.1 ≠ i := by
  simp [tabDel]

theorem tabFind_eq_none_iff {α : Type} {t : Tab α} {i : Nat} : tabFind t i = none ↔ ∀ p ∈ t, p.1 ≠ i := by
  induction t with
  | nil => simp [tabFind]
  | cons p t ih =>
    obtain ⟨k, v⟩ := p
    by_cases h : k = i <;> simp [tabFind, h, ih]

theorem tabFind_tabDel_same {α : Type} (t : Tab α) (i : Nat) : tabFind (tabDel t i) i = none :=
  tabFind_eq_none_iff.mpr fun _ h => (mem_tabDel.mp h).2

theorem tabFind_tabDel_ne {α : Type} (t : Tab α) {i j : Nat} (h : j ≠ i) : tabFind (tabDel t i) j = tabFind t j := by
  induction t with
  | nil => rfl
  | cons p t ih =>
    obtain ⟨k, v⟩ := p
    by_cases here : k = i
    · have ne : k ≠ j := by omega
      simpa [tabDel, tabFind, here, h.symm] using ih
    · by_cases there : k = j
      · simp [tabDel, tabFind, there, h]
      · simpa [tabDel, tabFind, here, there] using ih

/-- The link after a reset of the PF: its VFs are off, its registers and pending messages are gone (R104). -/
theorem flr_zero_link (s : State) : (flr 0 s).link.numVfs = 0 ∧ (flr 0 s).link.ptmEn = false ∧ (flr 0 s).link.ptmSent = none ∧
    (∀ p ∈ (flr 0 s).link.fns, p.1 ≠ 0) ∧ (∀ p ∈ (flr 0 s).link.msix, p.1 / 2048 ≠ 0) ∧ ∀ k ∈ (flr 0 s).link.pba, k / 2048 ≠ 0 := by
  have reset : (flr 0 s).link = { (resetFn 0 (vfsClear s)).link with
    ptmEn := false, ptmSent := none, ari := false, ecrcGen := false, ecrcChk := false } := rfl
  rw [reset, resetFn_link]
  refine ⟨rfl, rfl, rfl, fun p h => (mem_tabDel.mp h).2, fun p h => ?_, fun k h => ?_⟩
  all_goals simpa using (List.mem_filter.mp h).2

end Sys2Proof.Machine
end

section
/-! PROOFS. Warm-reset requests, link start and the sources of the boot image (R17, R28, R43 to R49). -/
namespace Sys2Proof.Machine

theorem askWarm_eq (k : Nat) (s : State) :
    askWarm k s = { s with boot := { s.boot with warmReq := some (s.boot.warmReq.getD k) } } := by
  have kept : (if s.boot.warmReq.isSome then s.boot.warmReq else some k) = some (s.boot.warmReq.getD k) := by
    cases s.boot.warmReq <;> rfl
  rw [← kept]
  rfl

theorem trainPcie_of_supported {width speed : Nat} (hw : width ∈ ([1, 2, 4, 8] : List Nat)) (lo : 1 ≤ speed) (hi : speed ≤ 5)
    (s : State) : trainPcie width speed s = s.modLink fun l => { l with up := true, width := width, speed := speed } := by
  unfold trainPcie inRange
  rw [if_pos]
  simp only [Bool.and_eq_true, List.contains_iff_mem, decide_eq_true_eq]
  exact ⟨hw, lo, by omega⟩

theorem trainPcie_of_unsupported {width speed : Nat} (h : width ∉ ([1, 2, 4, 8] : List Nat) ∨ speed = 0 ∨ 5 < speed) (s : State) :
    trainPcie width speed s = s.modLink fun l => { l with up := false, width := 0, speed := 0 } := by
  unfold trainPcie inRange
  rw [if_neg]
  simp only [Bool.and_eq_true, List.contains_iff_mem, decide_eq_true_eq, not_and]
  intro hw
  have := h.resolve_left (not_not_intro hw)
  omega

/-- Training changes the width, the speed and whether the link is up. -/
theorem trainPcie_link (width speed : Nat) (s : State) : ∃ up w v,
    trainPcie width speed s = s.modLink fun l => { l with up := up, width := w, speed := v } := by
  unfold trainPcie
  split <;> exact ⟨_, _, _, rfl⟩

/-- The link half of PERST_N: the PF reset, trained again, its errors and BARs cleared. -/
def perstLink (width speed : Nat) (s : State) : State :=
  (trainPcie width speed (flr 0 s)).modLink fun l => { l with aer := [], hdrLog := none, bars := [] }

theorem perstLink_onlyLink (width speed : Nat) (s : State) : s.OnlyLink (perstLink width speed s) := by
  obtain ⟨up, w, v, trained⟩ := trainPcie_link width speed (flr 0 s)
  rw [perstLink, trained]
  exact (flr_onlyLink 0 s).trans ((State.OnlyLink.modLink ..).trans (.modLink ..))

theorem perstLink_link (width speed : Nat) (s : State) :
    (perstLink width speed s).link.aer = [] ∧ (perstLink width speed s).link.numVfs = 0 ∧
      (perstLink width speed s).link.ptmEn = false ∧ (perstLink width speed s).link.bars = [] ∧
      (∀ p ∈ (perstLink width speed s).link.fns, p.1 ≠ 0) ∧ ∀ k ∈ (perstLink width speed s).link.pba, k / 2048 ≠ 0 := by
  obtain ⟨up, w, v, trained⟩ := trainPcie_link width speed (flr 0 s)
  obtain ⟨vfs, ptm, -, fns, -, pba⟩ := flr_zero_link s
  rw [perstLink, trained]
  exact ⟨rfl, vfs, ptm, rfl, fns, pba⟩

/-- PERST_N in a host-delivered boot: the data not yet accepted is lost (R45). -/
theorem perst_of_delivering {s : State} (width speed : Nat) (h : s.delivering = true) : perst width speed s =
    ((perstLink width speed s).modFab fun b => { b with csm := tabDel (tabDel b.csm 0) 1 }).modBoot fun b => { b with
      phase := if b.phase == .bootFail then .bootFail else .waitHost } := by
  have same : (perstLink width speed s).delivering = s.delivering := by rw [perstLink_onlyLink width speed s]; rfl
  exact if_pos (same.trans h)

theorem perst_of_not_delivering {s : State} (width speed : Nat) (h : s.delivering = false) :
    perst width speed s = perstLink width speed s := by
  have same : (perstLink width speed s).delivering = s.delivering := by rw [perstLink_onlyLink width speed s]; rfl
  exact if_neg (Bool.eq_false_iff.mp (same.trans h))

theorem perst_link (width speed : Nat) (s : State) : (perst width speed s).link = (perstLink width speed s).link := by
  cases h : s.delivering
  · rw [perst_of_not_delivering width speed h]
  · rw [perst_of_delivering width speed h]
    rfl

/-- No xSPI device is selected while nothing is read. -/
theorem selectXspi_of_verifying {s : State} (h : s.boot.verifying ≠ .idle) :
    selectXspi s = { s with pins := { s.pins with xspiCs0N := true, xspiCs1N := true } } := by
  have none : xspiReads s = false := by simp [xspiReads, h]
  rw [selectXspi, none]
  rfl

theorem xspiReads_iff (s : State) : xspiReads s = true ↔ s.alive = true ∧ s.boot.straps.toNat % 4 = 0 ∧ s.boot.verifying = .idle ∧
    (s.boot.phase = .loadFw ∨ s.boot.phase = .loadUcode) := by
  simp [xspiReads, bootSrc, and_assoc]

theorem xspiDone_of_loadFw {s : State} (h : s.boot.phase = .loadFw) : xspiDone s = { s with
    pins := { s.pins with xspiCs0N := true, xspiCs1N := true }
    boot := { s.boot with phase := .verifyFw, verifying := .bootFw, image := flashImage s.boot.attempt 1 s } } := by
  rw [xspiDone, h, if_pos (by decide), selectXspi_of_verifying (by simp [beginVerify])]
  rfl

theorem xspiDone_of_loadUcode {s : State} (h : s.boot.phase = .loadUcode) : xspiDone s = { s with
    pins := { s.pins with xspiCs0N := true, xspiCs1N := true }
    boot := { s.boot with verifying := .bootUcode, image := flashImage s.boot.attempt 2 s } } := by
  rw [xspiDone, h, if_neg (by decide), selectXspi_of_verifying (by simp [beginVerify])]
  rfl

/-- A read of the first device that times out: the second is next (R48). -/
theorem xspiTimeout_of_first {s : State} (alive : s.alive = true) (source : s.boot.straps.toNat % 4 = 0)
    (loading : s.boot.phase = .loadFw) (first : s.boot.attempt = 0) : xspiTimeout s = { s with
      pins := { s.pins with xspiCs0N := true, xspiCs1N := false }
      boot := { s.boot with error := 8, attempt := 1, source := 1, phase := .loadFw, verifying := .idle } } := by
  have retry : xspiTimeout s = selectXspi ((noteError 8 s).modBoot fun b => { b with
      attempt := 1, source := 1, phase := .loadFw, verifying := .idle }) := by
    simp [xspiTimeout, loading, firmwareFailed, noteError, bootSrc, source, first]
  have reads : xspiReads ((noteError 8 s).modBoot fun b => { b with
      attempt := 1, source := 1, phase := .loadFw, verifying := .idle }) = true :=
    (xspiReads_iff _).mpr ⟨alive, source, rfl, .inl rfl⟩
  rw [retry, selectXspi, reads]
  rfl

/-- Settles O2: each row by the lemma that gives its next state. -/
theorem bootSourceRows : Obligations.BootSourceRows := by
  refine ⟨fun s alive => ?_, fun s alive => ?_, fun s width speed alive low => ?_, fun s width speed alive => ?_,
    fun s alive source idle loading => ?_, fun s alive source idle loading => ?_, fun s alive source idle loading first => ?_,
    fun s alive source idle loading => ?_, fun s peer data alive source idle waiting => ?_,
    fun s peer data alive source lead ready => ?_⟩
  · exact Runs.of_act (show _ = execWrstNAssert s from rfl) alive (askWarm_eq ..)
  · exact Runs.of_act rfl alive (askWarm_eq ..)
  · refine Runs.of_act (show _ = execRstoutNRise width speed s from rfl) (by simp [alive, low]) ⟨fun hw lo hi => ?_, fun h => ?_⟩
    · exact trainPcie_of_supported hw lo hi _
    · exact trainPcie_of_unsupported h _
  · refine Runs.of_act rfl alive ?_
    obtain ⟨aer, vfs, ptm, bars, fns, pba⟩ := perstLink_link width speed s
    rw [perst_link]
    refine ⟨aer, vfs, ptm, bars, fns, pba, fun h => ?_, fun h => ?_⟩
    · rw [perst_of_not_delivering width speed h]
      exact perstLink_onlyLink width speed s
    · rw [perst_of_delivering width speed h]
      refine ⟨?_, tabFind_tabDel_same .., ?_⟩
      · exact (tabFind_tabDel_ne _ (by decide)).trans (tabFind_tabDel_same ..)
      · rw [perstLink_onlyLink width speed s]
        simp [State.modFab, State.modBoot]
  · exact Runs.of_act rfl ((xspiReads_iff s).mpr ⟨alive, source, idle, .inl loading⟩) (xspiDone_of_loadFw loading)
  · exact Runs.of_act rfl ((xspiReads_iff s).mpr ⟨alive, source, idle, .inr loading⟩) (xspiDone_of_loadUcode loading)
  · exact Runs.of_act rfl ((xspiReads_iff s).mpr ⟨alive, source, idle, .inl loading⟩)
      (xspiTimeout_of_first alive source loading first)
  · exact Runs.of_act (show _ = execPatchDeliveryTimeout s from rfl) (by simp [alive, bootSrc, source, loading, idle]) rfl
  · refine Runs.of_act rfl alive ?_
    simp [imageDelivery, bootSrc, source, idle, waiting]
    rfl
  · refine Runs.of_act rfl alive ?_
    simp [imageDelivery, bootSrc, source, lead, ready]

end Sys2Proof.Machine
end

section
/-! PROOFS. The verification of an image (R53). -/
namespace Sys2Proof.Machine

theorem headerOk_iff (t : Nat) (i : List Byte) : headerOk t i = true ↔
    imgNat i 0 4 = 0x494D4C5A ∧ imgNat i 4 2 = 1 ∧ imgNat i 0x18 2 = 0xA1 ∧ imgRsvdZero i = true ∧ imgFlags i < 2 ∧ imgType i = t ∧
      imgLen i % 16 = 0 ∧ imgLen i ≤ payloadLimit t := by
  simp [headerOk, and_assoc]

theorem keyOk_iff (f : Fuses) (i : List Byte) : keyOk f i = true ↔
    imgKeySlot i < 4 ∧ f.revoked.getLsbD (imgKeySlot i) = false ∧ imgKeyHash i = fusedHash f (imgKeySlot i) := by
  simp [keyOk, and_assoc]

/-- A chain of checks answers 0 where each passes. -/
theorem ite_error_eq_zero_iff {c : Prop} [Decidable c] {e r : Nat} (he : e ≠ 0) :
    (if c then e else r) = 0 ↔ ¬ c ∧ r = 0 := by
  split <;> simp [*]

/-- Settles O49: the checks of `verifyImage`, each with an error of its own. -/
theorem imageAccepted : Obligations.ImageAccepted := by
  intro s t i
  rw [← headerOk_iff, ← keyOk_iff]
  unfold verifyImage
  simp only [ite_error_eq_zero_iff, ne_eq, OfNat.ofNat_ne_zero, one_ne_zero, not_false_eq_true]
  simp [imgDigestOk, imgEcdsaOk, imgHssOk, imgTagOk, imgSigned, bitsAt, and_assoc]

end Sys2Proof.Machine
end

section
/-! PROOFS. What reading a memory leaves alone (R369, R372). -/
namespace Sys2Proof.Machine

/-- The blocks that reading a memory leaves alone: beside what a raised fault changes, the check records of the memories and the
free values. -/
def State.stored (s : State) :=
  (s.boot, s.fuses, s.snap, s.sen, s.ports, s.eng, s.dma, s.lgs, s.pending, s.fab.dram, s.fab.csm)

theorem stored_of_deep {s t : State} (h : t.deep = s.deep) : t.stored = s.stored := by
  simp only [State.deep, Prod.mk.injEq] at h
  obtain ⟨boot, fuses, snap, sen, ports, eng, fab, dma, lgs, pending⟩ := h
  simp only [State.stored, boot, fuses, snap, sen, ports, eng, fab, dma, lgs, pending]

@[simp] theorem raiseFault_stored (id : Nat) (info : W64) (unit : W16) (s : State) :
    (raiseFault id info unit s).stored = s.stored :=
  stored_of_deep (raiseFault_deep ..)

@[simp] theorem State.setEcc_stored (s : State) (key : Nat) (f : EccRec → EccRec) : (s.setEcc key f).stored = s.stored := rfl

@[simp] theorem State.modFcu_stored (s : State) (f : Fcu → Fcu) : (s.modFcu f).stored = s.stored := rfl

@[simp] theorem eccCe_stored (c : Cw) (j : Nat) (back : Bool) (s : State) : (eccCe c j back s).stored = s.stored := by
  simp [eccCe]

@[simp] theorem eccUe_stored (c : Cw) (s : State) : (eccUe c s).stored = s.stored := by
  simp [eccUe]

theorem asInjected_stored (inj : Bool) {f : State → State} (h : ∀ s, (f s).stored = s.stored) (s : State) :
    (asInjected inj f s).stored = s.stored := by
  unfold asInjected
  split
  · rw [State.modFcu_stored, h, State.modFcu_stored]
  · exact h s

theorem eccMeet_stored (c : Cw) (first : Bool) (s : State) : (eccMeet c first s).2.2.stored = s.stored := by
  unfold eccMeet
  dsimp only
  split
  · split
    · exact State.setEcc_stored ..
    · rfl
  · rfl

theorem eccCheck_stored (c : Cw) (first : Bool) (s : State) : (eccCheck c first s).2.stored = s.stored := by
  unfold eccCheck
  dsimp only
  split
  · rfl
  · split
    · exact eccMeet_stored ..
    · exact (asInjected_stored _ (eccCe_stored c _ _) _).trans (eccMeet_stored ..)
    · exact (asInjected_stored _ (eccUe_stored c) _).trans (eccMeet_stored ..)

theorem foldl_stored_snd {α β : Type} {f : β × State → α → β × State} (h : ∀ p a, (f p a).2.stored = p.2.stored) (l : List α)
    (p : β × State) : (l.foldl f p).2.stored = p.2.stored := by
  induction l generalizing p with
  | nil => rfl
  | cons a l ih => rw [List.foldl_cons, ih, h]

theorem memLoad_stored (m : MemRef) (a n : Nat) (s : State) : (memLoad m a n s).2.stored = s.stored := by
  have checked : ∀ (l : List Cw) (p : List (Cw × Option (List (Nat × Byte))) × State),
      (l.foldl (fun acc c => (acc.1 ++ [(c, (eccCheck c acc.1.isEmpty acc.2).1)], (eccCheck c acc.1.isEmpty acc.2).2)) p).2.stored =
        p.2.stored := foldl_stored_snd fun p c => eccCheck_stored c _ p.2
  unfold memLoad
  dsimp only
  split <;> exact checked _ ([], s)

theorem boot_of_stored {s t : State} (h : t.stored = s.stored) : t.boot = s.boot := congrArg (·.1) h

theorem csmBytes_boot (n k : Nat) (s : State) : (csmBytes n k s).2.boot = s.boot :=
  boot_of_stored ((memLoad_stored (.csm 1) 0 k (memLoad (.csm 0) 0 n s).2).trans (memLoad_stored (.csm 0) 0 n s))

theorem csmImage_boot (s : State) : (csmImage s).2.boot = s.boot := csmBytes_boot ..

end Sys2Proof.Machine
end

section
/-! PROOFS. A fault of severity 3 raised (R511, R514, R516). -/
namespace Sys2Proof.Machine

/-- What the safe state does to the pins. -/
def Pins.safe (p : Pins) : Pins := { p with faultN := false, safeHeld := true, canTxd := 0xF }

/-- A raise leaves the pins alone or puts them in the safe state. -/
def State.PinsSafe (s t : State) : Prop := t.pins = s.pins ∨ t.pins = s.pins.safe

theorem State.PinsSafe.of_eq {s t : State} (h : t.pins = s.pins) : s.PinsSafe t := .inl h

theorem State.PinsSafe.trans {s t u : State} (st : s.PinsSafe t) (tu : t.PinsSafe u) : s.PinsSafe u := by
  rcases st with st | st <;> rcases tu with tu | tu <;> rw [PinsSafe, tu, st]
  · exact .inl rfl
  · exact .inr rfl
  · exact .inr rfl
  · exact .inr rfl

theorem pins_of_wide {s t : State} (h : t.wide = s.wide) : t.pins = s.pins := congrArg (·.1) h

@[simp] theorem finish_pins (q cid st : Nat) (r : W32) (s : State) : (finish q cid st r s).pins = s.pins := pins_of_wide (by simp)

theorem foldl_pins {α : Type} {f : State → α → State} (h : ∀ s a, (f s a).pins = s.pins) (l : List α) (s : State) :
    (l.foldl f s).pins = s.pins := by
  induction l generalizing s with
  | nil => rfl
  | cons a l ih => rw [List.foldl_cons, ih, h]

theorem enterSafe_pinsSafe (id : Nat) (info : W64) (unit : W16) (s : State) : s.PinsSafe (enterSafe id info unit s) := by
  unfold enterSafe
  split
  · exact .inl rfl
  · refine .inr ?_
    dsimp only [safeSeqs, safeJobs]
    rw [foldl_pins fun _ _ => finish_pins .., State.modHealth_pins, foldl_pins fun _ _ => finish_pins ..]
    rfl

@[simp] theorem faultEntry_pins (id merges sev : Nat) (s : State) : (faultEntry id merges sev s).pins = s.pins :=
  pins_of_wide (by simp [faultEntry])

theorem openFault_pinsSafe (id : Nat) (info : W64) (unit : W16) (s : State) : s.PinsSafe (openFault id info unit s) := by
  unfold openFault
  dsimp only
  split
  · exact .inl rfl
  split
  · split
    · refine State.PinsSafe.trans ?_ (enterSafe_pinsSafe id info unit _)
      exact .inl rfl
    · exact .inl rfl
  · set opened := journal 0 id _ _ 0 _ info unit _
    have kept : opened.pins = s.pins := rfl
    have posted : s.PinsSafe (if 1 ≤ s.sevOf id then (faultEntry id 0 (s.sevOf id) opened).emit (.pegboxIrq id) else opened) := by
      split
      · rw [State.PinsSafe, State.emit_pins, faultEntry_pins]
        exact .inl kept
      · exact .of_eq kept
    split
    · exact posted.trans (enterSafe_pinsSafe ..)
    · exact posted

theorem propose_pinsSafe (cls index reason src : Nat) (detail : W64) (s : State) :
    s.PinsSafe (propose cls index reason src detail s) := by
  unfold propose
  split
  · exact .inl rfl
  split
  · exact .inl rfl
  · exact openFault_pinsSafe ..

theorem raiseFault_pinsSafe (id : Nat) (info : W64) (unit : W16) (s : State) : s.PinsSafe (raiseFault id info unit s) := by
  unfold raiseFault
  dsimp only
  split
  · split
    · exact (openFault_pinsSafe ..).trans (propose_pinsSafe ..)
    · exact openFault_pinsSafe ..
  · exact openFault_pinsSafe ..

/-- A raise does not touch the pins that the temperature drives. -/
theorem raiseFault_thermal (id : Nat) (info : W64) (unit : W16) (s : State) :
    (raiseFault id info unit s).pins.thermtripN = s.pins.thermtripN ∧ (raiseFault id info unit s).pins.tjBand = s.pins.tjBand := by
  rcases raiseFault_pinsSafe id info unit s with h | h <;> rw [h]
  · exact ⟨rfl, rfl⟩
  · exact ⟨rfl, rfl⟩

@[simp] theorem faultEntry_safe (id merges sev : Nat) (s : State) : (faultEntry id merges sev s).fcu.safe = s.fcu.safe :=
  congrArg Fcu.safe (faultEntry_fcu id merges sev s)

@[simp] theorem setRec_safe (s : State) (id : Nat) (f : FaultRec → FaultRec) : (s.setRec id f).fcu.safe = s.fcu.safe := rfl

/-- The safe state stays while faults are raised. -/
theorem openFault_stays_safe (id : Nat) (info : W64) (unit : W16) {s : State} (h : s.fcu.safe = true) :
    (openFault id info unit s).fcu.safe = true := by
  unfold openFault
  dsimp only
  repeat' split
  all_goals simp [h]

theorem propose_stays_safe (cls index reason src : Nat) (detail : W64) {s : State} (h : s.fcu.safe = true) :
    (propose cls index reason src detail s).fcu.safe = true := by
  unfold propose
  split
  · exact h
  split
  · exact h
  · exact openFault_stays_safe _ _ _ h

/-- A raise at severity 3 enters the safe state (R511, R514). -/
theorem openFault_enters_safe {id : Nat} (info : W64) (unit : W16) {s : State} (running : s.fcu.running = true)
    (impl : srcImpl id = true) (sev : s.sevOf id = 3) : (openFault id info unit s).fcu.safe = true := by
  unfold openFault
  simp only [running, impl, sev, Bool.not_true, Bool.or_self, Bool.false_eq_true, if_false, beq_self_eq_true, if_true]
  split
  all_goals exact enterSafe_safe ..

theorem raiseFault_enters_safe {id : Nat} (info : W64) (unit : W16) {s : State} (running : s.fcu.running = true)
    (impl : srcImpl id = true) (sev : s.sevOf id = 3) : (raiseFault id info unit s).fcu.safe = true := by
  have opened := openFault_enters_safe info unit running impl sev
  unfold raiseFault
  dsimp only
  split
  · split
    · exact propose_stays_safe _ _ _ _ _ opened
    · exact opened
  · exact opened

end Sys2Proof.Machine
end

section
/-! PROOFS. Self-test, image verification and BOOT_CTL (R29, R45, R53, R58). -/
namespace Sys2Proof.Machine

/-! ### What a state with the same wide blocks shares -/

theorem boot_of_wide {s t : State} (h : t.wide = s.wide) : t.boot = s.boot := congrArg (·.2.1) h

/-- Becoming ready touches one bit of the boot state, the host link, strokes, bridge links and output. -/
theorem setReady_frame (b : Nat) (s : State) :
    (setReady b s).pins = s.pins ∧ (setReady b s).fuses = s.fuses ∧ (setReady b s).em = s.em ∧ (setReady b s).time = s.time ∧
      (setReady b s).fcu = s.fcu ∧ (setReady b s).eng = s.eng ∧ (setReady b s).fab = s.fab ∧ (setReady b s).dma = s.dma ∧
      (setReady b s).lgs = s.lgs := by
  have h := setReady_wide b s
  simp only [State.wide, Prod.mk.injEq] at h
  obtain ⟨pins, -, fuses, em, -, time, -, fcu, -, -, -, eng, fab, dma, lgs, -⟩ := h
  exact ⟨pins, fuses, em, time, fcu, eng, fab, dma, lgs⟩

theorem setReady_ready_same {b : Nat} (hb : b < 20) (s : State) : (setReady b s).ready b = true := by
  rw [State.ready, setReady_boot]
  simpa using getLsbD_putBit s.boot.readyMap b b true hb

/-! ### Self-test -/

/-- The state as the supervision begins. -/
def supervised (s : State) : State :=
  (journal 3 0 0 false 0 s.now (w64 s.boot.cause) unitNone
    ((s.modBoot fun b => { b with selfTestDone := true }).modFcu fun u => { u with running := true })).modPins
      fun p => { p with faultN := !s.fcu.safe }

/-- The first fetch: the next source, or the eMRAM recovery image. -/
def firstFetch (s : State) : State :=
  if s.boot.recoverNow then tryRecovery s
  else
    let s := if bootSrc s == 2 then trainLinks s else s
    selectXspi (s.modBoot fun b => { b with phase := if bootSrc s == 0 then .loadFw else .waitHost, attempt := 0 })

theorem selftestDone_eq (s : State) : selftestDone s = firstFetch (setReady Rdy.fcu (raiseStanding (supervised s))) := rfl

/-- With the junction cool and no cause standing, nothing is raised. -/
theorem raiseStanding_of_calm {s : State} (cool : s.pins.tjBand = 0) (untripped : s.pins.thermtripN = true)
    (calm : ∀ r ∈ s.fcu.recs, r.2.cause = false) : raiseStanding s = s := by
  have standing : s.fcu.recs.filter (fun r => r.2.cause && !r.2.isOpen) = [] :=
    List.filter_eq_nil_iff.mpr fun r hr => by simp [calm r hr]
  simp [raiseStanding, cool, untripped, standing]

/-- With THERMTRIP_N still low, the trip itself is raised (R41). -/
theorem raiseStanding_of_tripped {s : State} (cool : s.pins.tjBand = 0) (tripped : s.pins.thermtripN = false)
    (none : s.fcu.recs = []) :
    raiseStanding s = raiseFault Src.thermtrip 0 unitNone (s.modPins fun p => { p with thermtripN := false }) := by
  simp [raiseStanding, cool, tripped, none]

theorem trainLinks_frame (s : State) : trainLinks s = { s with
    pins := { s.pins with brlTxUp := true }, brl := (trainLinks s).brl } := rfl

/-- The first fetch of a boot that is not to recover: pins and boot state. -/
theorem firstFetch_eq {s : State} (normal : s.boot.recoverNow = false) (alive : s.alive = true)
    (idle : s.boot.verifying = .idle) : firstFetch s = { s with
      brl := (firstFetch s).brl
      pins := { s.pins with
        xspiCs0N := decide (s.boot.straps.toNat % 4 ≠ 0), xspiCs1N := true
        brlTxUp := s.pins.brlTxUp || decide (s.boot.straps.toNat % 4 = 2) }
      boot := { s.boot with
        phase := if s.boot.straps.toNat % 4 = 0 then .loadFw else .waitHost, attempt := 0 } } := by
  have run : s.pins.porstN = true ∧ s.boot.held = false := by simpa [State.alive] using alive
  by_cases first : s.boot.straps.toNat % 4 = 0
  · simp [firstFetch, normal, bootSrc, first, selectXspi, xspiReads, State.alive, run, idle, State.modPins, State.modBoot]
  by_cases link : s.boot.straps.toNat % 4 = 2
  · simp [firstFetch, normal, bootSrc, link, selectXspi, xspiReads, State.modPins, State.modBoot, trainLinks, State.modBrl]
  · simp [firstFetch, normal, bootSrc, first, link, selectXspi, xspiReads, State.modPins, State.modBoot]

theorem selftest_passes {s : State} (alive : s.alive = true) (normal : s.boot.recoverNow = false)
    (idle : s.boot.verifying = .idle) (cool : s.pins.tjBand = 0) (untripped : s.pins.thermtripN = true)
    (calm : ∀ r ∈ s.fcu.recs, r.2.cause = false) :
    (selftestDone s).boot.selfTestDone = true ∧ (selftestDone s).boot.attempt = 0 ∧ (selftestDone s).fcu.running = true ∧
      (selftestDone s).ready Rdy.fcu = true ∧
      (selftestDone s).boot.phase = (if s.boot.straps.toNat % 4 = 0 then .loadFw else .waitHost) ∧
      (selftestDone s).pins = { s.pins with
        faultN := !s.fcu.safe, xspiCs0N := decide (s.boot.straps.toNat % 4 ≠ 0), xspiCs1N := true
        brlTxUp := s.pins.brlTxUp || decide (s.boot.straps.toNat % 4 = 2) } ∧
      (selftestDone s).eng = s.eng ∧ (selftestDone s).fab = s.fab ∧ (selftestDone s).dma = s.dma ∧
      (selftestDone s).lgs = s.lgs ∧ (selftestDone s).time = s.time ∧ (selftestDone s).em = s.em ∧
      (selftestDone s).fuses = s.fuses := by
  set u := setReady Rdy.fcu (supervised s) with hu
  have done : selftestDone s = firstFetch u := by
    rw [selftestDone_eq, raiseStanding_of_calm (s := supervised s) cool untripped calm]
  obtain ⟨pins, fuses, em, time, fcu, eng, fab, dma, lgs⟩ := setReady_frame Rdy.fcu (supervised s)
  have boot := setReady_boot Rdy.fcu (supervised s)
  rw [← hu] at pins fuses em time fcu eng fab dma lgs boot
  have ready : u.ready Rdy.fcu = true := setReady_ready_same (by decide) _
  have runs : u.alive = true := by rw [State.alive, pins, boot]; exact alive
  have fetch := firstFetch_eq (s := u) (by rw [boot]; exact normal) runs (by rw [boot]; exact idle)
  rw [done, fetch]
  refine ⟨by rw [boot]; rfl, rfl, by rw [fcu]; rfl, ready, by rw [boot]; rfl, by rw [pins, boot]; rfl, eng, fab, dma, lgs, time,
    em, fuses⟩

theorem setReady_fcu (b : Nat) (s : State) : (setReady b s).fcu = s.fcu := (setReady_frame b s).2.2.2.2.1

theorem firstFetch_of_normal_fcu {s : State} (normal : s.boot.recoverNow = false) :
    (firstFetch s).fcu = s.fcu ∧ (firstFetch s).pins.thermtripN = s.pins.thermtripN := by
  unfold firstFetch
  simp only [normal, Bool.false_eq_true, if_false]
  split
  · exact ⟨rfl, rfl⟩
  · exact ⟨rfl, rfl⟩

/-- A trip that stands as the supervision begins (R41). -/
theorem selftest_trips {s : State} (normal : s.boot.recoverNow = false) (cool : s.pins.tjBand = 0)
    (tripped : s.pins.thermtripN = false) (none : s.fcu.recs = []) :
    ((selftestDone s).frec Src.thermtrip).isOpen = true ∧ (selftestDone s).fcu.safe = true ∧
      (selftestDone s).pins.thermtripN = false := by
  set u := (supervised s).modPins fun p => { p with thermtripN := false } with hu
  have done : selftestDone s = firstFetch (setReady Rdy.fcu (raiseFault Src.thermtrip 0 unitNone u)) := by
    rw [selftestDone_eq, raiseStanding_of_tripped (s := supervised s) cool tripped none]
  have boot : (raiseFault Src.thermtrip 0 unitNone u).boot = u.boot := congrArg (·.1) (raiseFault_deep Src.thermtrip 0 unitNone u)
  obtain ⟨fcu, thermtrip⟩ := firstFetch_of_normal_fcu (s := setReady Rdy.fcu (raiseFault Src.thermtrip 0 unitNone u))
    (by rw [setReady_boot, boot]; exact normal)
  have running : u.fcu.running = true := rfl
  have closed : (u.frec Src.thermtrip).isOpen = false := by
    have recs : u.fcu.recs = [] := none
    simp [State.frec, recs, tabGet, tabFind]
  rw [setReady_fcu] at fcu
  rw [done]
  refine ⟨?_, ?_, ?_⟩
  · rw [frec_of_recs (congrArg Fcu.recs fcu), raiseFault_opens _ _ running rfl closed]
    rfl
  · rw [fcu]
    exact raiseFault_enters_safe _ _ running rfl rfl
  · rw [thermtrip, (setReady_frame ..).1, (raiseFault_thermal ..).1]
    rfl

/-! ### The end of a verification -/

/-- What a refused boot image leaves: its error and its count, with the running images and all the engines work on as before. -/
structure Refuses (e : Nat) (s t : State) : Prop where
  error : t.boot.error = e
  fails : t.boot.fails = min 15 (s.boot.fails + 1)
  fw : t.boot.fw = s.boot.fw
  patch : t.boot.patch = s.boot.patch
  patchOk : t.boot.patchOk = s.boot.patchOk
  eng : t.eng = s.eng
  fab : t.fab = s.fab
  fuses : t.fuses = s.fuses

theorem Refuses.of_deep {e : Nat} {s t u : State} (h : Refuses e s t) (d : u.deep = t.deep) : Refuses e s u := by
  simp only [State.deep, Prod.mk.injEq] at d
  obtain ⟨boot, fuses, -, -, -, eng, fab, -⟩ := d
  obtain ⟨error, fails, fw, patch, patchOk, engT, fabT, fusesT⟩ := h
  constructor
  all_goals simp only [boot, eng, fab, fuses, *]

theorem bootFail_refuses {e : Nat} {s t : State} (h : Refuses e s t) : Refuses e s (bootFail t) := by
  obtain ⟨error, fails, fw, patch, patchOk, eng, fab, fuses⟩ := h
  exact Refuses.of_deep (t := t.modBoot fun b => { b with phase := .bootFail, verifying := .idle })
    ⟨error, fails, fw, patch, patchOk, eng, fab, fuses⟩ (raiseFault_deep ..)

theorem tryRecovery_refuses {e : Nat} {s t : State} (h : Refuses e s t) : Refuses e s (tryRecovery t) := by
  obtain ⟨error, fails, fw, patch, patchOk, eng, fab, fuses⟩ := h
  unfold tryRecovery
  split
  · exact ⟨error, fails, fw, patch, patchOk, eng, fab, fuses⟩
  · exact bootFail_refuses ⟨error, fails, fw, patch, patchOk, eng, fab, fuses⟩

theorem firmwareFailed_refuses {e : Nat} {s t : State} (h : Refuses e s t) : Refuses e s (firmwareFailed t) := by
  obtain ⟨error, fails, fw, patch, patchOk, eng, fab, fuses⟩ := h
  unfold firmwareFailed
  split
  · split
    · exact ⟨error, fails, fw, patch, patchOk, eng, fab, fuses⟩
    · exact tryRecovery_refuses ⟨error, fails, fw, patch, patchOk, eng, fab, fuses⟩
  split
  · exact tryRecovery_refuses ⟨error, fails, fw, patch, patchOk, eng, fab, fuses⟩
  · exact ⟨error, fails, fw, patch, patchOk, eng, fab, fuses⟩

theorem patchFailed_refuses {e : Nat} {s t : State} (h : Refuses e s t) : Refuses e s (patchFailed t) := by
  obtain ⟨error, fails, fw, patch, patchOk, eng, fab, fuses⟩ := h
  unfold patchFailed
  split
  · split
    all_goals exact ⟨error, fails, fw, patch, patchOk, eng, fab, fuses⟩
  · exact ⟨error, fails, fw, patch, patchOk, eng, fab, fuses⟩

theorem noteFail_refuses (e : Nat) (s : State) : Refuses e s (noteFail e s) := ⟨rfl, rfl, rfl, rfl, rfl, rfl, rfl, rfl⟩

theorem verifyDone_bootFw {s : State} (h : s.boot.verifying = .bootFw) : verifyDone s =
    if verifyImage s 1 s.boot.image = 0 then startFirmware s.boot.image s
    else firmwareFailed (noteFail (verifyImage s 1 s.boot.image) s) := by
  simp only [verifyDone, h]
  split <;> simp_all

theorem verifyDone_bootUcode {s : State} (h : s.boot.verifying = .bootUcode) : verifyDone s =
    if verifyImage s 2 s.boot.image = 0 then startPatch s.boot.image s
    else patchFailed (noteFail (verifyImage s 2 s.boot.image) s) := by
  simp only [verifyDone, h]
  split <;> simp_all

theorem verifyDone_emramRecovery {s : State} (h : s.boot.verifying = .emramRecovery) : verifyDone s =
    if verifyImage s 4 s.boot.image = 0 then startRecovery 2 s.boot.image s
    else bootFail (noteFail (verifyImage s 4 s.boot.image) s) := by
  simp only [verifyDone, h]
  split <;> simp_all

theorem verifyDone_bootRecovery {s : State} (h : s.boot.verifying = .bootRecovery) : verifyDone s =
    if verifyImage s 4 s.boot.image = 0 then startRecovery 0 s.boot.image s
    else (noteFail (verifyImage s 4 s.boot.image) s).modBoot fun b => { b with verifying := .idle } := by
  simp only [verifyDone, h]
  split <;> simp_all

theorem startFirmware_eq {s : State} (alive : s.alive = true) (i : List Byte) : startFirmware i s = { s with
    brl := (startFirmware i s).brl
    pins := { s.pins with xspiCs0N := decide (s.boot.straps.toNat % 4 ≠ 0), xspiCs1N := true, brlTxUp := true }
    boot := { s.boot with
      fw := .fw, fwSvn := w32 (imgSvn i), fwKey := imgKeySlot i, fwImage := i, phase := .loadUcode, verifying := .idle
      attempt := 0, consecFails := 0 } } := by
  have run : s.pins.porstN = true ∧ s.boot.held = false := by simpa [State.alive] using alive
  by_cases first : s.boot.straps.toNat % 4 = 0
  all_goals
    simp [startFirmware, trainLinks, selectXspi, xspiReads, bootSrc, State.alive, run, first, State.modPins, State.modBoot,
      State.modBrl]

theorem startPatch_eq (i : List Byte) (s : State) : startPatch i s = { s with boot := { s.boot with
    patch := some (patchOf (imgPayload i)), patchOk := true, patchLevel := (patchOf (imgPayload i)).level.toNat, phase := .bringup
    verifying := .idle, ucImage := i } } := rfl

theorem startRecovery_of_not_safe {s : State} (h : s.fcu.safe = false) (source : Nat) (i : List Byte) :
    startRecovery source i s = { s with boot := { s.boot with
      phase := .recovery, verifying := .idle, fw := .recovery, fwSvn := w32 (imgSvn i), fwKey := imgKeySlot i
      source := source } } :=
  if_neg (by simp [h])

/-! ### BOOT_CTL -/

theorem writeBootCtl_of_no_key {val : W32} (h : bitsAt val.toNat 16 16 ≠ 0x5A17) (s : State) : writeBootCtl val s = s :=
  if_pos (by simpa using h)

theorem exec_bootCtl_of_no_key {val : W32} (h : bitsAt val.toNat 16 16 ≠ 0x5A17) (s : State) :
    exec (.bootCtlGo val) s = .next s ∧ exec (.bootCtlWarm val) s = .next s ∧ exec (.bootCtlRecovery val) s = .next s := by
  have same : ∀ c : Bool, act c (writeBootCtl val) s = .next s := fun c => by
    rcases act_next c (writeBootCtl val) s with ⟨-, e⟩ | ⟨-, e⟩
    · rw [e, writeBootCtl_of_no_key h]
    · exact e
  exact ⟨same _, same _, same _⟩

/-- A go in WAIT_HOST takes the bytes the host has delivered (R58). -/
theorem writeBootCtl_go {s : State} {val : W32} (key : bitsAt val.toNat 16 16 = 0x5A17) (go : val.getLsbD 0 = true)
    (noWarm : val.getLsbD 2 = false) (idle : s.boot.verifying = .idle) (waiting : s.boot.phase = .waitHost)
    (short : s.boot.bootLen.toNat ≤ 0x401800) : writeBootCtl val s = takeDelivered .bootFw
      { s with boot := { s.boot with recoveryBit := val.getLsbD 1, phase := .verifyFw } } := by
  have fits : imageTooLong s.boot.bootLen = false := by simpa [imageTooLong] using short
  simp only [writeBootCtl, key, go, noWarm, bootGo, State.modBoot, idle, waiting, fits, bne_self_eq_false, Bool.false_eq_true,
    if_false, if_true]

theorem takeDelivered_boot (v : VerifyFor) (s : State) :
    (takeDelivered v s).boot = { s.boot with verifying := v, image := (csmImage s).1 } := by
  rw [takeDelivered, beginVerify, State.modBoot_boot, csmImage_boot]

theorem hostUp_of {s : State} (alive : s.alive = true) (up : s.link.up = true) : s.hostUp = true := by
  simp [State.hostUp, alive, up]

/-- Settles O3: self-test, each end of a verification and each BOOT_CTL write by its next state. -/
theorem bootSequenceRows : Obligations.BootSequenceRows := by
  refine ⟨fun s alive phase fresh normal idle cool untripped calm => ?_, fun s alive phase fresh normal cool tripped none => ?_,
    fun s alive fw => ?_, fun s alive ucode => ?_, fun s alive recovery => ?_,
    fun s u val alive up key go noWarm idle waiting short hu => ?_, fun s val alive up key noGo warm => ?_,
    fun s val alive up key noGo noWarm => ?_, fun s val noKey => exec_bootCtl_of_no_key noKey s⟩
  · exact Runs.of_act rfl (by simp [alive, phase, fresh]) (selftest_passes alive normal idle cool untripped calm)
  · exact Runs.of_act rfl (by simp [alive, phase, fresh]) (selftest_trips normal cool tripped none)
  · refine Runs.of_act rfl (by simp [alive, fw]) ?_
    rw [verifyDone_bootFw fw]
    refine ⟨fun accepted => ?_, fun refused => ?_⟩
    · rw [if_pos accepted]
      exact startFirmware_eq alive _
    · rw [if_neg refused]
      obtain ⟨error, fails, fw, patch, patchOk, eng, fab, fuses⟩ := firmwareFailed_refuses (noteFail_refuses _ s)
      exact ⟨error, fails, fw, patch, patchOk, eng, fab, fuses⟩
  · refine Runs.of_act rfl (by simp [alive, ucode]) ?_
    rw [verifyDone_bootUcode ucode]
    refine ⟨fun accepted => ?_, fun refused => ?_⟩
    · rw [if_pos accepted]
      exact startPatch_eq ..
    · rw [if_neg refused]
      obtain ⟨error, fails, fw, patch, patchOk, eng, fab, fuses⟩ := patchFailed_refuses (noteFail_refuses _ s)
      exact ⟨error, fails, fw, patch, patchOk, eng, fab, fuses⟩
  · rcases recovery with emram | host
    · refine Runs.of_act rfl (by simp [alive, emram]) ?_
      rw [verifyDone_emramRecovery emram]
      refine ⟨fun accepted calm => ?_, fun _ host => by simp [emram] at host⟩
      rw [if_pos accepted, startRecovery_of_not_safe calm, if_pos emram]
    · refine Runs.of_act rfl (by simp [alive, host]) ?_
      rw [verifyDone_bootRecovery host]
      refine ⟨fun accepted calm => ?_, fun refused _ => ?_⟩
      · rw [if_pos accepted, startRecovery_of_not_safe calm, if_neg (by simp [host])]
      · rw [if_neg refused]
        rfl
  · subst hu
    refine Runs.of_act rfl (by simp [hostUp_of alive up, go]) ?_
    rw [writeBootCtl_go key go noWarm idle waiting short]
    exact ⟨rfl, takeDelivered_boot ..⟩
  · refine Runs.of_act rfl (by simp [hostUp_of alive up, warm]) ?_
    simp only [writeBootCtl, key, noGo, warm, bne_self_eq_false, Bool.false_eq_true, if_false, if_true, askWarm_eq]
    rfl
  · refine Runs.of_act rfl (hostUp_of alive up) ?_
    simp only [writeBootCtl, key, noGo, noWarm, bne_self_eq_false, Bool.false_eq_true, if_false]
    rfl

end Sys2Proof.Machine
end

section
/-! PROOFS. Functions that become usable, and the start of stroke 0 (R62 to R64, R176, R374, R451, R492). -/
namespace Sys2Proof.Machine

theorem lt_twenty_of_usableNow {b : Nat} {s : State} (h : usableNow b s = true) : b < 20 := by
  unfold usableNow inRange at h
  split at h
  · simp_all
  split at h
  · simp_all
    omega
  split at h
  · simp_all
    omega
  · simp at h

theorem becomesUsable_of_counting {b : Nat} {s : State} (h : b ≠ 0 ∨ s.time.counting = true) :
    becomesUsable b s = setReady b (s.modPins fun p => { p with ethTxUp := b == 9 || p.ethTxUp }) := by
  have started : (b == 0 && !s.time.counting) = false := by
    rcases h with h | h <;> simp [h]
  unfold becomesUsable
  rw [started]
  cases eth : b == 9 <;> rfl

/-- The first function of all starts VT64 (R62). -/
theorem becomesUsable_vt {s : State} (h : s.time.counting = false) : becomesUsable 0 s = setReady 0 (startVt s) := by
  simp [becomesUsable, h]

theorem startVt_of_not_local {s : State} (h : s.sources.contains 5 = false) : startVt s = s.modTime fun t => { t with
    counting := true, vt64 := if s.em.marker then s.em.savedVt + 0x400000000 else 0
    ref10 := s.boot.straps.getLsbD 2, path := s.em.oscB } :=
  if_neg (Bool.eq_false_iff.mp h)

theorem dramTrained_of_fit {f : DramFit} {r : Nat} (ok : dramFitOk f = true) (rate : dramRateOf f = some r) (s : State) :
    dramTrained f s = setReady Rdy.dram ((s.modBoot fun b => { b with
      dramRanks := f.ranks.headD 0, dramRate := r, dramGib := 4 * f.capGib.headD 0, dramTrained := true }).modEm fun m =>
        { m with remap := m.remap.filter fun a => !f.repaired.contains a.toNat }) := by
  simp [dramTrained, ok, rate]

theorem dramTrained_of_unfit {f : DramFit} (h : dramFitOk f = false ∨ dramRateOf f = none) (s : State) :
    dramTrained f s = raiseFault Src.dramTrain 0 unitNone s := by
  rcases h with h | h
  · simp [dramTrained, h]
  · rw [dramTrained, h]
    cases dramFitOk f <;> rfl

/-- A raise of a closed source that leaves the deep blocks: its record is open. -/
theorem raiseFault_isOpen {s : State} {id : Nat} (info : W64) (unit : W16) (running : s.fcu.running = true)
    (impl : srcImpl id = true) (closed : (s.frec id).isOpen = false) : ((raiseFault id info unit s).frec id).isOpen = true := by
  rw [raiseFault_opens info unit running impl closed]
  rfl

theorem boot_of_deep {s t : State} (h : t.deep = s.deep) : t.boot = s.boot := congrArg (·.1) h

theorem lgs_of_deep {s t : State} (h : t.deep = s.deep) : t.lgs = s.lgs := congrArg (·.2.2.2.2.2.2.2.2.1) h

theorem openPlace_eq (seg : Option Nat) (s : State) : ∃ free, (openPlace seg s).2 = { s with free := free } := by
  cases seg <;> exact ⟨_, rfl⟩

/-- Writing an index head takes free values and changes the log store alone. -/
theorem writeHead_eq (seq gen : Nat) (s : State) : ∃ free heads, writeHead seq gen s = { s with
    free := free, lgs := { s.lgs with nextSeq := seq, headGen := gen, heads := heads } } := by
  obtain ⟨free1, bulk⟩ := openPlace_eq s.lgs.bulkSeg s
  obtain ⟨free2, slc⟩ := openPlace_eq (openPlace s.lgs.bulkSeg s).2.lgs.slcSeg (openPlace s.lgs.bulkSeg s).2
  refine ⟨free2, tabSet s.lgs.heads (gen % 8192) (headBytes seq gen (openPlace s.lgs.bulkSeg s).1
    (openPlace (openPlace s.lgs.bulkSeg s).2.lgs.slcSeg (openPlace s.lgs.bulkSeg s).2).1), ?_⟩
  have same : writeHead seq gen s = (openPlace (openPlace s.lgs.bulkSeg s).2.lgs.slcSeg (openPlace s.lgs.bulkSeg s).2).2.modLgs
      fun l => { l with nextSeq := seq, headGen := gen, heads := tabSet l.heads (gen % 8192) (headBytes seq gen
        (openPlace s.lgs.bulkSeg s).1
        (openPlace (openPlace s.lgs.bulkSeg s).2.lgs.slcSeg (openPlace s.lgs.bulkSeg s).2).1) } := rfl
  rw [same, slc, bulk]
  rfl

/-- The log store as it comes up: its head, its records and what else changes with it. -/
theorem takeIndex_eq (f : NandFit) (s : State) : ∃ free lgs, takeIndex f s = { s with free := free, lgs := lgs } ∧
    (∀ h, newestHead s.lgs.heads = some h → lgs.nextSeq = headSeqOf h ∧ lgs.headGen = headGenOf h ∧ lgs.recs = s.lgs.recs) ∧
    (newestHead s.lgs.heads = none → lgs.nextSeq = 0 ∧ lgs.headGen = 0 ∧ lgs.recs = []) := by
  unfold takeIndex
  split
  next h newest =>
    refine ⟨s.free, _, rfl, fun h' same => ?_, fun none => by simp [newest] at none⟩
    obtain rfl := Option.some.inj (newest.symm.trans same)
    exact ⟨rfl, rfl, rfl⟩
  next newest =>
    obtain ⟨free, heads, written⟩ := writeHead_eq 0 0 (s.modLgs (buildMap f))
    exact ⟨free, _, written, fun h' some => by simp [newest] at some, fun _ => ⟨rfl, rfl, rfl⟩⟩

/-- The log store with its index taken up and its scrub begun. -/
def logUp (f : NandFit) (s : State) : State :=
  ((takeIndex f s).modLgs fun l => { l with
    fit := some f, bulkSeg := none, slcSeg := none, scrubDone := s.time.mono, scrubbing := true
    scrubbed := [] }).modEm fun e => { e with marker := true }

theorem logReady_of_ok {f : NandFit} {s : State} (ok : nandOk f = true)
    (head : newestHead s.lgs.heads ≠ none ∨ s.em.marker = false) : logReady f s =
      (setReady Rdy.lgsWrite (setReady Rdy.lgsRead (logUp f s))).modPins fun p => { p with wpN := !(logUp f s).fcu.safe } := by
  have heads : (s.em.marker && (newestHead s.lgs.heads).isNone) = false := by
    rcases head with h | h
    · cases found : newestHead s.lgs.heads with
      | none => exact absurd found h
      | some x => exact Bool.and_false _
    · simp [h]
  rw [logReady, ok, heads]
  rfl

theorem logUp_eq (f : NandFit) (s : State) : ∃ free lgs, logUp f s = { s with
      free := free, lgs := lgs, em := { s.em with marker := true } } ∧ lgs.fit = some f ∧
    (∀ h, newestHead s.lgs.heads = some h → lgs.nextSeq = headSeqOf h ∧ lgs.headGen = headGenOf h ∧ lgs.recs = s.lgs.recs) ∧
    (newestHead s.lgs.heads = none → lgs.nextSeq = 0 ∧ lgs.headGen = 0 ∧ lgs.recs = []) := by
  obtain ⟨free, lgs, taken, newest, first⟩ := takeIndex_eq f s
  rw [logUp, taken]
  exact ⟨free, _, rfl, rfl, newest, first⟩

theorem logReady_of_bad {f : NandFit} (bad : nandOk f = false) (s : State) :
    logReady f s = raiseFault Src.lgsGeom 0 unitNone s := by
  simp [logReady, bad]

theorem logReady_of_no_index {f : NandFit} {s : State} (ok : nandOk f = true) (marker : s.em.marker = true)
    (none : newestHead s.lgs.heads = none) : logReady f s = raiseFault Src.lgsIndex 0 unitNone s := by
  simp [logReady, ok, marker, none]

theorem setReady_keeps_ready {b k : Nat} {s : State} (hb : b < 20) (h : s.ready k = true) : (setReady b s).ready k = true := by
  rw [State.ready, setReady_boot]
  have := getLsbD_putBit s.boot.readyMap b k true hb
  simp only [this]
  split
  · rfl
  · exact h

/-- Settles O4: each row by the state in which its bit is set, or by the source it raises. -/
theorem bringUpRows : Obligations.BringUpRows := by
  refine ⟨fun s b usable counting => ?_, fun s alive stopped => ?_, fun s f r up fresh ok rate => ?_,
    fun s f up fresh unfit running closed => ?_, fun s f up fresh ok head => ?_, fun s f up fresh bad running closed => ?_,
    fun s f up fresh ok marker none running closed => ?_, fun s up fresh untrained => ?_,
    fun s fail alive phase fresh fw => ?_⟩
  · refine Runs.of_act rfl usable ?_
    rw [becomesUsable_of_counting counting]
    obtain ⟨pins, -, em, time, fcu, eng, fab, dma, lgs⟩ := setReady_frame b (s.modPins fun p => { p with ethTxUp := b == 9 || p.ethTxUp })
    exact ⟨setReady_ready_same (lt_twenty_of_usableNow usable) _, setReady_boot .., pins, time, eng, fab, dma, lgs, fcu, em⟩
  · refine Runs.of_act rfl (show usableNow 0 s = true from alive) ?_
    rw [becomesUsable_vt stopped]
    refine ⟨setReady_ready_same (by decide) _, fun noLocal => ?_⟩
    rw [(setReady_frame ..).2.2.2.1, startVt_of_not_local noLocal]
    rfl
  · refine Runs.of_act rfl (by simp [up, fresh]) ?_
    rw [dramTrained_of_fit ok rate]
    obtain ⟨-, -, -, time, fcu, eng, fab, -, -⟩ := setReady_frame Rdy.dram ((s.modBoot fun b => { b with
      dramRanks := f.ranks.headD 0, dramRate := r, dramGib := 4 * f.capGib.headD 0, dramTrained := true }).modEm fun m =>
        { m with remap := m.remap.filter fun a => !f.repaired.contains a.toNat })
    rw [setReady_boot]
    exact ⟨setReady_ready_same (by decide) _, rfl, rfl, rfl, rfl, eng, fab, time, fcu⟩
  · refine Runs.of_act rfl (by simp [up, fresh]) ?_
    rw [dramTrained_of_unfit unfit]
    exact ⟨boot_of_deep (raiseFault_deep ..), raiseFault_isOpen _ _ running rfl closed⟩
  · refine Runs.of_act rfl (by simp [up, fresh]) ?_
    rw [logReady_of_ok ok head]
    obtain ⟨free, lgs, upState, fit, newest, first⟩ := logUp_eq f s
    obtain ⟨pins1, -, em1, time1, fcu1, eng1, fab1, -, lgs1⟩ := setReady_frame Rdy.lgsRead (logUp f s)
    obtain ⟨pins2, -, em2, time2, fcu2, eng2, fab2, -, lgs2⟩ := setReady_frame Rdy.lgsWrite (setReady Rdy.lgsRead (logUp f s))
    refine ⟨setReady_keeps_ready (by decide) (setReady_ready_same (by decide) _), setReady_ready_same (by decide) _, ?_⟩
    rw [State.modPins_pins, State.modPins_lgs, State.modPins_em, State.modPins_eng, State.modPins_fab, State.modPins_time,
      State.modPins_fcu, pins2, pins1, lgs2, lgs1, em2, em1, eng2, eng1, fab2, fab1, time2, time1, fcu2, fcu1, upState]
    exact ⟨rfl, fit, newest, first, rfl, rfl, rfl, rfl, rfl⟩
  · refine Runs.of_act rfl (by simp [up, fresh]) ?_
    rw [logReady_of_bad bad]
    exact ⟨boot_of_deep (raiseFault_deep ..), lgs_of_deep (raiseFault_deep ..), raiseFault_isOpen _ _ running rfl closed⟩
  · refine Runs.of_act rfl (by simp [up, fresh]) ?_
    rw [logReady_of_no_index ok marker none]
    exact ⟨boot_of_deep (raiseFault_deep ..), lgs_of_deep (raiseFault_deep ..), raiseFault_isOpen _ _ running rfl closed⟩
  · refine Runs.of_act rfl ?_ (setReady_ready_same (by decide) _)
    simpa [up, fresh] using ⟨untrained 0 (by decide), untrained 1 (by decide), untrained 2 (by decide), untrained 3 (by decide)⟩
  · refine Runs.of_act (show _ = execEngineInitComplete fail s from rfl) (by simp [alive, phase, fresh, fw]) ?_
    exact ⟨_, rfl, rfl, rfl, rfl, rfl, rfl⟩

end Sys2Proof.Machine
end

section
/-! PROOFS. Power fail, the flush, and the junction temperature (R19 to R23, R41, R180). -/
namespace Sys2Proof.Machine

/-! ### Archive entered at once -/

/-- The blocks that powering a course down leaves alone. -/
def State.outside (s : State) :=
  (s.pins, s.boot, s.fuses, s.em, s.time, s.snap, s.fcu, s.health, s.sen, s.ports, s.lgs, s.free, s.pending)

theorem outside_of_wide {s t : State} (h : t.wide = s.wide) : t.outside = s.outside := by
  simp only [State.wide, Prod.mk.injEq] at h
  obtain ⟨pins, boot, fuses, em, -, time, snap, fcu, health, sen, ports, -, -, -, lgs, free, pending⟩ := h
  simp only [State.outside, pins, boot, fuses, em, time, snap, fcu, health, sen, ports, lgs, free, pending]

theorem foldl_outside {α : Type} {f : State → α → State} (h : ∀ s a, (f s a).outside = s.outside) (l : List α) (s : State) :
    (l.foldl f s).outside = s.outside := by
  induction l generalizing s with
  | nil => rfl
  | cons a l ih => rw [List.foldl_cons, ih, h]

theorem State.modStroke_outside (s : State) (f : Stroke → Stroke) : (s.modStroke f).outside = s.outside := rfl
theorem State.modBasut_outside (s : State) (f : Basut → Basut) : (s.modBasut f).outside = s.outside := rfl
theorem State.modDma_outside (s : State) (f : Dma → Dma) : (s.modDma f).outside = s.outside := rfl
theorem State.modFab_outside (s : State) (f : Fabric → Fabric) : (s.modFab f).outside = s.outside := rfl
theorem State.setEngine_outside (s : State) (e : Eng) (f : Engine → Engine) : (s.setEngine e f).outside = s.outside := rfl
theorem State.setGate_outside (s : State) (k : Nat) (f : Gate → Gate) : (s.setGate k f).outside = s.outside := rfl

theorem foldl_finish_outside {α : Type} (q cid : α → Nat) (st : Nat) (r : α → W32) (l : List α) (s : State) :
    (l.foldl (fun s a => finish (q a) (cid a) st (r a) s) s).outside = s.outside :=
  foldl_outside (fun _ _ => outside_of_wide (finish_wide ..)) l s

theorem withdrawJobs_outside (course : Nat) (running : Bool) (s : State) :
    (withdrawJobs course running s).outside = s.outside := by
  unfold withdrawJobs
  dsimp only
  rw [foldl_finish_outside, State.modBasut_outside]
  refine foldl_outside (fun s i => ?_) _ s
  rw [foldl_finish_outside]
  split
  · rfl
  · rw [State.setGate_outside]

theorem powerDown_outside (n : Nat) (s : State) : (powerDown n s).outside = s.outside := by
  unfold powerDown
  dsimp only
  rw [State.modStroke_outside, State.modFab_outside]
  exact foldl_outside (fun s p => s.setEngine_outside _ _) _ s

theorem stopCourse_outside (n : Nat) (s : State) : (stopCourse n s).outside = s.outside := by
  rw [stopCourse, powerDown_outside, dmaKill, State.modDma_outside, withdrawJobs_outside]

theorem archiveEntry_outside (s : State) : (archiveEntry s).outside = s.outside := by
  unfold archiveEntry
  dsimp only
  rw [State.modStroke_outside]
  exact foldl_outside (fun s i => stopCourse_outside (i + 2) s) _ s

/-- Archive is entered with the pins, the boot state, time, fault collection and the log store as they were. -/
theorem archiveEntry_frame (s : State) : (archiveEntry s).pins = s.pins ∧ (archiveEntry s).boot = s.boot ∧
    (archiveEntry s).em = s.em ∧ (archiveEntry s).time = s.time ∧ (archiveEntry s).fcu = s.fcu ∧ (archiveEntry s).lgs = s.lgs := by
  have h := archiveEntry_outside s
  simp only [State.outside, Prod.mk.injEq] at h
  obtain ⟨pins, boot, -, em, time, -, fcu, -, -, -, lgs, -, -⟩ := h
  exact ⟨pins, boot, em, time, fcu, lgs⟩

theorem archiveEntry_stroke (s : State) : (archiveEntry s).stroke.profile = 3 ∧ (archiveEntry s).stroke.eclk = 0 ∧
    (archiveEntry s).stroke.active = none := by
  unfold archiveEntry
  dsimp only
  rw [State.modStroke_stroke]
  exact ⟨rfl, rfl, rfl⟩

/-! ### The flush -/

theorem flushAll_lgs (s : State) : (flushAll s).lgs.pf = true ∧ (flushAll s).lgs.flushing = false := by
  unfold flushAll
  dsimp only
  rw [State.modLgs_lgs]
  exact ⟨rfl, rfl⟩

theorem flushDone_of_ready {s : State} (h : s.ready Rdy.lgsWrite = true) :
    flushDone s = (flushAll s).modPins fun p => { p with pfailDone := true } := by
  unfold flushDone
  rw [if_pos h]

theorem flushDone_of_not_ready {s : State} (h : s.ready Rdy.lgsWrite = false) :
    flushDone s = (s.modLgs fun l => { l with flushing := false }).modPins fun p => { p with pfailDone := true } := by
  unfold flushDone
  rw [if_neg (Bool.eq_false_iff.mp h)]

/-! ### Causes of LEVEL sources -/

/-- The record of a source whose cause is set or cleared. -/
def FaultRec.withCause (present : Bool) (r : FaultRec) : FaultRec := { r with cause := present }

/-- A cause that begins on a closed source opens its record (R507, R511). -/
theorem setCause_begins {s : State} {id : Nat} (info : W64) (running : s.fcu.running = true) (impl : srcImpl id = true)
    (absent : (s.frec id).cause = false) (closed : (s.frec id).isOpen = false) :
    ((setCause id true info s).frec id).isOpen = true ∧ ((setCause id true info s).frec id).cause = true ∧
      ((setCause id true info s).frec id).sev = s.sevOf id ∧ (s.sevOf id = 3 → (setCause id true info s).fcu.safe = true) := by
  have begins : setCause id true info s = raiseFault id info unitNone (s.setRec id (FaultRec.withCause true)) := by
    simp only [setCause, absent]
    rfl
  have caused : (s.setRec id (FaultRec.withCause true)).frec id = (s.frec id).withCause true := setRec_frec_same ..
  have opened := raiseFault_opens (s := s.setRec id (FaultRec.withCause true)) info unitNone running impl (by rw [caused]; exact closed)
  rw [begins, opened, openRec, caused]
  exact ⟨rfl, rfl, rfl, fun sev => raiseFault_enters_safe (s := s.setRec id (FaultRec.withCause true)) _ _ running impl sev⟩

/-- A cause that ends changes one record of the fault collection unit, or nothing. -/
theorem setCause_ends (id : Nat) (info : W64) (s : State) :
    setCause id false info s = { s with fcu := (setCause id false info s).fcu } ∧
      ((setCause id false info s).frec id).cause = false ∧
      (∀ j, j ≠ id → (setCause id false info s).frec j = s.frec j) ∧
      (setCause id false info s).fcu.safe = s.fcu.safe := by
  cases h : (s.frec id).cause
  · have same : setCause id false info s = s := by simp [setCause, h]
    rw [same]
    exact ⟨rfl, h, fun _ _ => rfl, rfl⟩
  · have ends : setCause id false info s = s.setRec id (FaultRec.withCause false) := by
      simp only [setCause, h]
      rfl
    rw [ends]
    refine ⟨rfl, ?_, fun j other => setRec_frec_ne s _ other, rfl⟩
    rw [setRec_frec_same]
    rfl

/-- Settles O5: each row by what its own operation changes. -/
theorem powerAndTemperatureRows : Obligations.PowerAndTemperatureRows := by
  refine ⟨fun s alive notDone calm => ?_, fun s alive done => ?_, fun s alive notDone safe => ?_,
    fun s alive flushing calm => ?_, fun s alive done idle => ?_, fun s alive safe => ?_,
    fun s alive running absent closed => ?_, fun s alive running absent closed => ?_, fun s alive running closed => ?_,
    fun s below alive cool => ?_⟩
  · refine Runs.of_act rfl alive ?_
    have flush : pfail s = beginFlush (archiveEntry (s.modPins fun p => { p with pfailN := false })) := by
      simp [pfail, notDone, calm]
    obtain ⟨pins, boot, em, time, fcu, -⟩ := archiveEntry_frame (s.modPins fun p => { p with pfailN := false })
    obtain ⟨profile, eclk, active⟩ := archiveEntry_stroke (s.modPins fun p => { p with pfailN := false })
    simp [flush, beginFlush, pins, profile, eclk, active, boot, em, time, fcu]
  · refine Runs.of_act rfl alive ?_
    simp [pfail, done, State.modPins]
  · refine Runs.of_act rfl alive ?_
    obtain ⟨pins, boot, em, time, fcu, lgs⟩ := archiveEntry_frame (s.modPins fun p => { p with pfailN := false })
    obtain ⟨profile, -, -⟩ := archiveEntry_stroke (s.modPins fun p => { p with pfailN := false })
    cases held : s.pins.wpN
    · have now : pfail s = (archiveEntry (s.modPins fun p => { p with pfailN := false })).modPins fun p =>
          { p with pfailDone := true } := by
        simp [pfail, notDone, safe, held]
      simp [now, pins, lgs, profile, boot, em, time, fcu]
    · have later : pfail s = archiveEntry (s.modPins fun p => { p with pfailN := false }) := by
        simp [pfail, notDone, safe, held]
      simp [later, pins, notDone, lgs, profile, boot, em, time, fcu]
  · refine Runs.of_act rfl (by simp [alive, flushing, calm]) ?_
    cases ready : s.ready Rdy.lgsWrite
    · rw [flushDone_of_not_ready ready]
      exact ⟨rfl, rfl, fun h => by simp at h, fun _ => rfl⟩
    · obtain ⟨pf, ended⟩ := flushAll_lgs s
      rw [flushDone_of_ready ready]
      simp [pf, ended]
  · exact Runs.of_act (show _ = execPfailNHighExpiry s from rfl) (by simp [alive, done, idle]) rfl
  · refine Runs.of_act rfl (by simp [alive, safe]) ?_
    rw [Bool.or_assoc]
    rfl
  · refine Runs.of_act (show _ = execTjWarnCrossing s from rfl) alive ?_
    obtain ⟨isOpen, cause, sev, -⟩ := setCause_begins (s := s.modPins fun p => { p with tjBand := max 1 p.tjBand }) (id := Src.tjWarn)
      0 running rfl absent closed
    exact ⟨isOpen, cause, sev, setCause_deep ..⟩
  · refine Runs.of_act (show _ = execTjCritCrossing s from rfl) alive ?_
    obtain ⟨isOpen, cause, sev, enters⟩ := setCause_begins (s := s.modPins fun p => { p with tjBand := max 2 p.tjBand })
      (id := Src.tjCrit) 0 running rfl absent closed
    exact ⟨isOpen, cause, sev, enters rfl, setCause_deep ..⟩
  · refine Runs.of_act (show _ = execThermtripNAssert s from rfl) alive ?_
    obtain ⟨trip, band⟩ := raiseFault_thermal Src.thermtrip 0 unitNone (s.modPins fun p => { p with thermtripN := false, tjBand := 3 })
    exact ⟨raiseFault_isOpen _ _ running rfl closed, trip, band, raiseFault_enters_safe _ _ running rfl rfl, raiseFault_deep ..⟩
  · refine Runs.of_act rfl alive ?_
    have fall : tjFall below s = (setCause Src.tjWarn false 0 (setCause Src.tjCrit false 0 s)).modPins fun p =>
        { p with tjBand := 0 } := by
      have warm : below ≤ 125 := by omega
      simp [tjFall, cool, warm]
    obtain ⟨critFrame, critCause, -, critSafe⟩ := setCause_ends Src.tjCrit 0 s
    obtain ⟨warnFrame, warnCause, warnOther, warnSafe⟩ := setCause_ends Src.tjWarn 0 (setCause Src.tjCrit false 0 s)
    have kept := (congrArg FaultRec.cause (warnOther Src.tjCrit (by decide))).trans critCause
    rw [fall]
    refine ⟨kept, warnCause, ?_, ?_, warnSafe.trans critSafe⟩
    · rw [State.modPins_pins, warnFrame, critFrame]
    · rw [State.modPins, warnFrame, critFrame]

end Sys2Proof.Machine
end

section
/-! PROOFS. The step and the queue, the answers of a failed check, completions, and the capo of one command (R114 to R117,
R129). -/
namespace Sys2Proof.Machine

/-- Settles O39: `step` is `exec` of the front command by its definition. -/
theorem queueStep : Obligations.QueueStep := by
  intro c rest s h
  simp only [step, h]

/-- Settles O40: on an empty queue a step is `idle`. -/
theorem emptyQueueTick : Obligations.EmptyQueueTick := by
  intro s h
  have hstep : step s = .next (idle s) := by simp only [step, h]
  refine ⟨fun dead => by simp [hstep, idle, dead], fun lives => ⟨s.advance 1, by simp [hstep, idle, lives], rfl, ?_, h, rfl, rfl, rfl, rfl, rfl⟩⟩
  simp only [State.advance, State.elapse, State.modStroke, State.modEng, State.modTime, Nat.cast_one, one_mul]
  split <;> simp

/-- Settles O41: each field by evaluation, the memories by `State.reset_memsWf`. -/
theorem resetState : Obligations.ResetState :=
  ⟨rfl, rfl, rfl, rfl, rfl, rfl, rfl, rfl, rfl, rfl, rfl, rfl, State.reset_memsWf⟩

/-! ### A failed check (R114, R555) -/

theorem perform_of_failed {q cid op : Nat} {sub : Sub} {body : Body} {s : State} (h : checkCmd op q sub s ≠ 0) :
    perform q cid op sub body s = finish q cid (checkCmd op q sub s) 0 s := by
  unfold perform
  split
  · next h0 => exact absurd h0 h
  · rfl

/-- Settles O46: a claimed command that fails its checks is finished with their status; the checks run in R555's order. -/
theorem failedCheckAnswers : Obligations.FailedCheckAnswers := by
  intro op q cid sub body s u up claimed failed
  refine ⟨?_, fun tag => by simp [checkCmd, tag], fun f tag info may => ?_, fun f tag info may form safe notOk => ?_⟩
  · simp only [runBasut, act, up, if_true, basut, claimed, perform_of_failed failed]
  · have tag' : ¬ sub.tag = 65535#16 := tag
    simp [checkCmd, tag', info, may]
  · have tag' : ¬ sub.tag = 65535#16 := tag
    simp [checkCmd, tag', info, may, form, safe, notOk]

/-! ### A completion (R115, R116) -/

theorem finish_own {q cid st : Nat} {r : W32} {s : State} (hq : q ≠ cubeQp) (own : ∀ c ∈ s.brl.cmds, c.qp ≠ q ∨ c.cid ≠ cid) :
    finish q cid st r s = finishRaw q cid st r s.now s.quality s := by
  have noCube : (s.brl.cmds.any fun c => c.qp == q && c.cid == cid) = false := by
    rw [List.any_eq_false]
    intro c hc
    simpa [imp_iff_not_or] using own c hc
  simp only [finish, finishAt, beq_eq_false_iff_ne.mpr hq, noCube, Bool.false_eq_true, if_false]

/-- Settles O47: the device's own command is finished by a change of its own QP's commands. -/
theorem finishRecords : Obligations.FinishRecords := by
  intro q cid st r s hq own
  rw [finish_own hq own]
  refine ⟨fun p hp => State.qp_setQp_ne s _ hp, rfl, ?_, ?_⟩
  · simp [finishRaw]
  · intro m hm hcid
    rw [finishRaw, State.qp_setQp_same, List.mem_map] at hm
    obtain ⟨m', -, rfl⟩ := hm
    by_cases same : (m'.cid == cid) = true
    · simp [same]
    · rw [if_neg same] at hcid
      exact absurd (beq_iff_eq.mpr hcid) same

/-! ### The capo of one command (R117) -/

theorem capo_of_done {n : Nat} {first : Bool} {s : State} {i : CapoItem} {st res : Nat} {v : State}
    (one : s.basut.capo = [i]) (due : i.due n first = true)
    (run : capoOne n i (s.modBasut fun b => { b with capo := [] }) = (some (.done st res), v)) :
    capo n first s = finishAt i.qp i.cid st (w32 res) v.stroke.vt v.quality { v with basut := { v.basut with capo := [] } } := by
  simp only [capo, one, capoRun, due, if_true, run, supersede, List.map_nil, ite_self, List.nil_append, List.foldl_cons, List.foldl_nil]
  rfl

theorem capo_of_wait {n : Nat} {first : Bool} {s : State} {i : CapoItem} {v : State}
    (one : s.basut.capo = [i]) (due : i.due n first = true)
    (run : capoOne n i (s.modBasut fun b => { b with capo := [] }) = (some .wait, v)) :
    capo n first s = { v with basut := { v.basut with capo := [] } } := by
  simp only [capo, one, capoRun, due, if_true, run, List.map_nil, List.foldl_nil]
  rfl

theorem capo_of_kept {n : Nat} {first : Bool} {s : State} {i : CapoItem} {v : State} (one : s.basut.capo = [i])
    (run : (if i.due n first then capoOne n i (s.modBasut fun b => { b with capo := [] })
      else (none, s.modBasut fun b => { b with capo := [] })) = (none, v)) :
    capo n first s = { v with basut := { v.basut with capo := [rebase n i] } } := by
  simp only [capo, one, capoRun, run, List.map_cons, List.map_nil, List.nil_append, List.foldl_nil]
  rfl

theorem capoOne_safe {n : Nat} {i : CapoItem} {s : State} (safe : s.fcu.safe = true) :
    capoOne n i s = (some (.done Stat.safeState 0), s) := by
  simp only [capoOne, safe, if_true]

theorem capoOne_missed {n : Nat} {i : CapoItem} {s : State} (live : s.fcu.safe = false) (strict : i.strict = true)
    (late : i.target < n) : capoOne n i s = (some (.done Stat.capoMissed 0), s) := by
  simp [capoOne, live, strict, late]

section
variable {n : Nat} {i : CapoItem} {s : State} (live : s.fcu.safe = false) (inTime : i.strict = true → n ≤ i.target)
include live inTime

theorem capoOne_soon (soon : tooEarly i s = true) :
    capoOne n i s = (if i.strict then some (.done Stat.capoMissed 0) else none, s) := by
  simp only [capoOne, live, soon, Bool.false_eq_true, if_false, if_true]
  rw [if_neg (by simpa using inTime)]

theorem capoOne_made (ripe : tooEarly i s = false) : capoOne n i s = (some (applyItem i s).1, (applyItem i s).2) := by
  simp only [capoOne, live, ripe, Bool.false_eq_true, if_false]
  rw [if_neg (by simpa using inTime)]

end

/-- Settles O56: what `capoOne` answers for the one item decides what the capo leaves. -/
theorem capoBoundary : Obligations.CapoBoundary := by
  rintro n first s u i one rfl
  refine ⟨fun early => capo_of_kept one (by rw [early]; rfl), fun due safe =>
      capo_of_done (v := s.modBasut fun b => { b with capo := [] }) one due (capoOne_safe (s := s.modBasut _) safe),
    fun due live strict late =>
      capo_of_done (v := s.modBasut fun b => { b with capo := [] }) one due (capoOne_missed (s := s.modBasut _) live strict late),
    fun due live inTime soon => ?_,
    fun due live inTime ripe r v made => ?_⟩
  · have run := capoOne_soon (s := { s with basut := { s.basut with capo := [] } }) live inTime soon
    refine ⟨fun strict => capo_of_done (v := s.modBasut fun b => { b with capo := [] }) one due
      (run.trans ?_), fun lax => capo_of_kept one ?_⟩
    · rw [strict, if_pos rfl]
      rfl
    · rw [due, if_pos rfl]
      exact run.trans (by rw [lax, if_neg Bool.false_ne_true])
  · have run := capoOne_made (s := { s with basut := { s.basut with capo := [] } }) live inTime ripe
    rw [made] at run
    refine ⟨?_, ?_⟩
    · rintro st res rfl
      exact capo_of_done one due run
    · rintro rfl
      exact capo_of_wait one due run

end Sys2Proof.Machine
end

section
/-! PROOFS. The QPs and registers of a function over a reset of it (R104). -/
namespace Sys2Proof.Machine

/-- What one pass of a fold establishes, under what every pass keeps, stands at its end. -/
theorem foldl_establishes {α : Type} {f : State → α → State} {I P : State → Prop} (keepI : ∀ s a, I s → I (f s a))
    (keep : ∀ s a, P s → P (f s a)) {a : α} (set : ∀ s, I s → P (f s a)) {l : List α} (h : a ∈ l) {s : State} (start : I s) :
    P (l.foldl f s) := by
  have keepAll : ∀ (l : List α) s, P s → P (l.foldl f s) := by
    intro l
    induction l with
    | nil => exact fun _ h => h
    | cons b l ih => exact fun s h => ih _ (keep s b h)
  induction l generalizing s with
  | nil => simp at h
  | cons b l ih =>
    rcases List.mem_cons.mp h with rfl | h
    · exact keepAll l _ (set s start)
    · exact ih h (keepI s b start)

/-- What every pass of a fold keeps stands at its end. -/
theorem foldl_keeps {α : Type} {f : State → α → State} {P : State → Prop} {l : List α} (keep : ∀ s, ∀ a ∈ l, P s → P (f s a)) {s : State}
    (start : P s) : P (l.foldl f s) := by
  induction l generalizing s with
  | nil => exact start
  | cons b l ih => exact ih (fun s a h => keep s a (List.mem_cons_of_mem _ h)) (keep s b List.mem_cons_self start)

theorem tabGet_of_tabFind_none {α : Type} {t : Tab α} {i : Nat} {d : α} (h : tabFind t i = none) : tabGet t i d = d := by
  simp [tabGet, h]

theorem tabGet_tabDel_ne {α : Type} (t : Tab α) {i j : Nat} (d : α) (h : j ≠ i) : tabGet (tabDel t i) j d = tabGet t j d := by
  simp [tabGet, tabFind_tabDel_ne t h]

theorem mem_keys_tabSet {α : Type} {t : Tab α} {i j : Nat} {v : α} (h : j ∈ t.map (·.1)) : j ∈ (tabSet t i v).map (·.1) := by
  induction t with
  | nil => simp at h
  | cons p t ih =>
    obtain ⟨k, w⟩ := p
    have h' : j = k ∨ j ∈ t.map (·.1) := by simpa using h
    unfold tabSet
    split
    · exact List.mem_cons_of_mem _ h
    · split
      · rw [List.map_cons, List.mem_cons]
        exact h'
      · rcases h' with rfl | h'
        · exact List.mem_cons_self
        · exact List.mem_cons_of_mem _ (ih h')

/-- Is there a context for this QP number? -/
def State.hasQp (s : State) (q : Nat) : Prop := q ∈ s.link.qps.map (·.1)

theorem State.hasQp_setQp {s : State} {q : Nat} (h : s.hasQp q) (p : Nat) (f : Qp → Qp) : (s.setQp p f).hasQp q := mem_keys_tabSet h

theorem mem_qpsOf {s : State} {v q : Nat} : q ∈ s.qpsOf v ↔ s.hasQp q ∧ s.fnOf q = v := by
  simp [State.qpsOf, State.hasQp]

/-- The QP deletes and no SQ read of it brings anything. -/
def Qp.Stopped (c : Qp) : Prop := c.state = .deleting ∧ c.reading = 0

theorem startDelete_keeps_deleting {s : State} {q : Nat} (h : (s.qp q).state = .deleting) (d : Option (Nat × Nat)) (p : Nat) :
    ((startDelete d p s).qp q).state = .deleting := by
  by_cases e : q = p
  · subst e
    rw [startDelete, State.qp_setQp_same]
  · rwa [startDelete, State.qp_setQp_ne s _ e]

theorem deleteFn_deletes {s : State} {v q : Nat} (h : q ∈ s.qpsOf v) : ((deleteFn v s).qp q).state = .deleting :=
  foldl_establishes (I := fun _ => True) (P := fun s => (s.qp q).state = .deleting) (fun _ _ _ => trivial)
    (fun _ p h => startDelete_keeps_deleting h none p) (fun s _ => by rw [startDelete, State.qp_setQp_same]) h trivial

theorem deleteFn_keeps_deleting {s : State} {q : Nat} (h : (s.qp q).state = .deleting) (v : Nat) :
    ((deleteFn v s).qp q).state = .deleting :=
  foldl_keeps (P := fun s => (s.qp q).state = .deleting) (fun _ p _ h => startDelete_keeps_deleting h none p) h

theorem dropReads_keeps_deleting {s : State} {q : Nat} (h : (s.qp q).state = .deleting) (p : Nat) :
    ((dropReads p s).qp q).state = .deleting := by
  by_cases e : q = p
  · subst e
    rwa [dropReads, State.qp_setQp_same]
  · rwa [dropReads, State.qp_setQp_ne s _ e]

theorem dropReads_keeps_stopped {s : State} {q : Nat} (h : (s.qp q).Stopped) (p : Nat) : ((dropReads p s).qp q).Stopped := by
  by_cases e : q = p
  · subst e
    rw [dropReads, State.qp_setQp_same]
    exact ⟨h.1, rfl⟩
  · rwa [dropReads, State.qp_setQp_ne s _ e]

/-- The QPs of a function that stops delete, and their reads bring nothing. -/
theorem stopQps_stops {s : State} {v q : Nat} (h : q ∈ s.qpsOf v) : ((stopQps v s).qp q).Stopped :=
  foldl_establishes (I := fun s => (s.qp q).state = .deleting) (P := fun s => (s.qp q).Stopped)
    (fun _ p h => dropReads_keeps_deleting h p) (fun _ p h => dropReads_keeps_stopped h p)
    (fun s h => by rw [dropReads, State.qp_setQp_same]; exact ⟨h, rfl⟩) h (deleteFn_deletes h)

theorem startDelete_keeps_reading (s : State) (q p : Nat) (d : Option (Nat × Nat)) :
    ((startDelete d p s).qp q).reading = (s.qp q).reading := by
  by_cases e : q = p
  · subst e
    rw [startDelete, State.qp_setQp_same]
  · rw [startDelete, State.qp_setQp_ne s _ e]

theorem stopQps_keeps_stopped {s : State} {q : Nat} (h : (s.qp q).Stopped) (v : Nat) : ((stopQps v s).qp q).Stopped := by
  refine foldl_keeps (P := fun s => (s.qp q).Stopped) (fun _ p _ h => dropReads_keeps_stopped h p) ?_
  refine foldl_keeps (P := fun s => (s.qp q).Stopped) (fun s p _ h => ⟨startDelete_keeps_deleting h.1 none p, ?_⟩) h
  rw [startDelete_keeps_reading, h.2]

/-- The QPs of every other function stay as they were. -/
theorem stopQps_qp_ne {s : State} {v q : Nat} (h : q ∉ s.qpsOf v) : (stopQps v s).qp q = s.qp q := by
  have other : ∀ p ∈ s.qpsOf v, q ≠ p := fun p hp e => h (e ▸ hp)
  refine foldl_keeps (P := fun t => t.qp q = s.qp q) (fun t p hp h => ?_) ?_
  · rw [dropReads, State.qp_setQp_ne t _ (other p hp), h]
  refine foldl_keeps (P := fun t => t.qp q = s.qp q) (fun t p hp h => ?_) rfl
  rw [startDelete, State.qp_setQp_ne t _ (other p hp), h]

theorem stopQps_hasQp {s : State} {q : Nat} (h : s.hasQp q) (v : Nat) : (stopQps v s).hasQp q :=
  foldl_keeps (P := fun s => s.hasQp q) (fun _ p _ h => State.hasQp_setQp h p _)
    (foldl_keeps (P := fun s => s.hasQp q) (fun _ p _ h => State.hasQp_setQp h p _) h)

theorem resetFn_qp (v : Nat) (s : State) (q : Nat) : (resetFn v s).qp q = (stopQps v s).qp q := rfl
theorem resetFn_hasQp {s : State} {q : Nat} (h : s.hasQp q) (v : Nat) : (resetFn v s).hasQp q := stopQps_hasQp h v

theorem resetFn_numVfs (v : Nat) (s : State) : (resetFn v s).link.numVfs = s.link.numVfs := by rw [resetFn_link]

theorem resetFn_fnOf (v : Nat) (s : State) (q : Nat) : (resetFn v s).fnOf q = s.fnOf q := by
  simp only [State.fnOf, resetFn_numVfs]

theorem resetFn_fn_same (v : Nat) (s : State) : (resetFn v s).fn v = {} := by
  rw [State.fn, resetFn_link]
  exact tabGet_of_tabFind_none (tabFind_tabDel_same ..)

theorem resetFn_fn_ne {v j : Nat} (h : j ≠ v) (s : State) : (resetFn v s).fn j = s.fn j := by
  rw [State.fn, resetFn_link]
  exact tabGet_tabDel_ne _ _ h

theorem resetFn_mem_qpsOf {s : State} {v q : Nat} (h : q ∈ s.qpsOf v) (w : Nat) : q ∈ (resetFn w s).qpsOf v := by
  obtain ⟨has, owner⟩ := mem_qpsOf.mp h
  exact mem_qpsOf.mpr ⟨resetFn_hasQp has w, (resetFn_fnOf ..).trans owner⟩

/-- The VFs that a clear of VF Enable resets. -/
def vfsOf (s : State) : List Nat := (List.range s.link.numVfs).map (· + 1)

theorem mem_vfsOf {s : State} {v : Nat} : v ∈ vfsOf s ↔ 1 ≤ v ∧ v ≤ s.link.numVfs := by
  simp only [vfsOf, List.mem_map, List.mem_range]
  constructor
  · rintro ⟨k, hk, rfl⟩
    omega
  · rintro ⟨lo, hi⟩
    exact ⟨v - 1, by omega, by omega⟩

theorem vfsClear_fn_vf {s : State} {v : Nat} (lo : 1 ≤ v) (hi : v ≤ s.link.numVfs) : (vfsClear s).fn v = {} := by
  refine foldl_establishes (f := fun s v => resetFn v s) (I := fun _ => True) (P := fun s => s.fn v = {}) (fun _ _ _ => trivial)
    (fun s w h => ?_) (fun s _ => resetFn_fn_same v s) (mem_vfsOf.mpr ⟨lo, hi⟩) trivial
  by_cases e : v = w
  · exact e ▸ resetFn_fn_same v s
  · rw [resetFn_fn_ne e, h]

theorem vfsClear_fn_zero (s : State) : (vfsClear s).fn 0 = s.fn 0 := by
  refine foldl_keeps (f := fun s v => resetFn v s) (P := fun t => t.fn 0 = s.fn 0) (l := vfsOf s) (fun t v hv h => ?_) rfl
  obtain ⟨lo, -⟩ := mem_vfsOf.mp hv
  rw [resetFn_fn_ne (by omega), h]

theorem vfsClear_stops {s : State} {v q : Nat} (lo : 1 ≤ v) (hi : v ≤ s.link.numVfs) (h : q ∈ s.qpsOf v) :
    ((vfsClear s).qp q).Stopped :=
  foldl_establishes (f := fun s v => resetFn v s) (I := fun s => q ∈ s.qpsOf v) (P := fun s => (s.qp q).Stopped)
    (fun _ w h => resetFn_mem_qpsOf h w) (fun _ w h => stopQps_keeps_stopped h w) (fun _ h => stopQps_stops h)
    (mem_vfsOf.mpr ⟨lo, hi⟩) h

theorem vfsClear_hasQp {s : State} {q : Nat} (h : s.hasQp q) : (vfsClear s).hasQp q :=
  foldl_keeps (f := fun s v => resetFn v s) (P := fun s => s.hasQp q) (fun _ w _ h => resetFn_hasQp h w) h

/-- With VF Enable clear every QP is the PF's. -/
theorem fnOf_of_no_vfs {s : State} (h : s.link.numVfs = 0) (q : Nat) : s.fnOf q = 0 := by
  rw [State.fnOf, h]
  split
  · next c =>
    simp only [Bool.and_eq_true, decide_eq_true_eq] at c
    omega
  · rfl

end Sys2Proof.Machine
end

section
/-! PROOFS. PCIe accesses, resets of functions, MSI-X and PTM, and the mailbox (R70 to R79, R101, R104, R105, R163). -/
namespace Sys2Proof.Machine

/-! ### Bytes of a word -/

theorem leNat_leBytes (n v : Nat) : leNat (leBytes n v) = v % 256 ^ n := by
  induction n generalizing v with
  | zero => simp [leBytes, leNat, Nat.mod_one]
  | succ n ih =>
    rw [leBytes, leNat, ih, pow_succ', Nat.mod_mul, BitVec.toNat_ofNat]

theorem w32_leNat_leBytes (v : W32) : w32 (leNat (leBytes 4 v.toNat)) = v := by
  rw [leNat_leBytes, Nat.mod_eq_of_lt (by have := v.isLt; omega)]
  simp [w32]

/-! ### Accesses -/

theorem pcieRead_of_word {fn off : Nat} {v : W32} {s u : State} (hit : s.barHit fn 0 off 4 = true) (aligned : off % 4 = 0)
    (read : bar0Rd fn off s = (.ok v, u)) :
    pcieRead fn 0 off 4 s = u.emit (.readCompletion (some (leBytes 4 v.toNat)) false) := by
  simp [pcieRead, barCfg, hit, aligned, bar0ReadWords, read]

theorem pcieWrite_of_word {fn off : Nat} {v : W32} {s : State} (hit : s.barHit fn 0 off 4 = true) (aligned : off % 4 = 0) :
    pcieWrite fn 0 off (leBytes 4 v.toNat) s = bar0WriteWords fn off (leBytes 4 v.toNat) s := by
  simp [pcieWrite, show (leBytes 4 v.toNat).length = 4 from rfl, hit, aligned]

theorem bar0WriteWords_of_ok {fn off : Nat} {v x : W32} {s u : State} (write : bar0Wr fn off v s = (.ok x, u)) :
    bar0WriteWords fn off (leBytes 4 v.toNat) s = u := by
  have word := w32_leNat_leBytes v
  simp only [leBytes] at word
  simp only [leBytes, bar0WriteWords, word, write]

/-- A run of DRAM bytes behind BAR4 is one run (R78). -/
theorem bar4_of_dram {off n : Nat} {s : State} (ready : s.ready Rdy.dram = true) (hi : off + n ≤ 0x800000000)
    (ok : s.dramOk off n = true) (pos : 0 < n) : bar4Cut off n = n ∧ bar4 off n s = some (.dram, off) := by
  have low : 0x10000000 ≤ off := by
    simp only [State.dramOk, Bool.and_eq_true, decide_eq_true_eq] at ok
    exact ok.1.2
  constructor
  · rw [bar4Cut, if_pos]
    simp only [Bool.and_eq_true, decide_eq_true_eq]
    omega
  · rw [bar4, ready, if_neg (by simp), if_pos hi, ok, if_pos rfl]

theorem barHit_pos {fn bar off n : Nat} {s : State} (hit : s.barHit fn bar off n = true) : 0 < n := by
  simp only [State.barHit, Bool.and_eq_true, decide_eq_true_eq] at hit
  exact hit.1.2

theorem hostRead4_of_dram {off n : Nat} {s u : State} {l : List (Option Byte)} (ready : s.ready Rdy.dram = true)
    (hi : off + n ≤ 0x800000000) (ok : s.dramOk off n = true) (pos : 0 < n) (load : memLoad .dram off n s = (l, u)) :
    hostRead4 off n s = u.emit (.readCompletion (some (l.map (·.getD 0))) (allBytes l).isNone) := by
  obtain ⟨cut, mapped⟩ := bar4_of_dram ready hi ok pos
  simp only [hostRead4, cut, mapped, load, lt_irrefl, if_false, List.append_nil]

theorem hostWrite4_of_dram {off : Nat} {data : List Byte} {s : State} (ready : s.ready Rdy.dram = true)
    (hi : off + data.length ≤ 0x800000000) (ok : s.dramOk off data.length = true) (pos : 0 < data.length) :
    hostWrite4 off data s = (memStore .dram off data s).2 := by
  obtain ⟨cut, mapped⟩ := bar4_of_dram ready hi ok pos
  have some' : data.isEmpty = false := by
    rw [List.isEmpty_eq_false_iff_exists_mem]
    exact List.exists_mem_of_length_pos pos
  simp only [hostWrite4, cut, List.drop_length, List.take_length, mapped, some', List.isEmpty_nil, if_true,
    Bool.false_eq_true, if_false]

theorem pcieWrite_bootLen {data : List Byte} {s : State} (awake : (s.fn 0).d3hot = false) (len : data.length = 4) :
    pcieWrite 0 0 0x54 data s = { s with boot := { s.boot with bootLen := w32 (leNat data) } } := by
  obtain ⟨a, b, c, d, rfl⟩ : ∃ a b c d, data = [a, b, c, d] := by
    match data, len with
    | [a, b, c, d], _ => exact ⟨a, b, c, d, rfl⟩
  have hit : s.barHit 0 0 0x54 4 = true := by simp [State.barHit, State.fnExists, awake, barSize, barSizePf]
  have write (v : W32) : bar0Wr 0 0x54 v s = (.ok 0, s.modBoot fun r => { r with bootLen := v }) := rfl
  simp only [pcieWrite, List.length_cons, List.length_nil, Nat.zero_add, Nat.reduceAdd, hit, bar0WriteWords, write]
  rfl

theorem hostWrite2_sqTail (fn q : Nat) (v : W32) (s : State) :
    hostWrite2 fn (16 * q) (leBytes 4 v.toNat) s = doorbell fn q true 4 v s := by
  have word := w32_leNat_leBytes v
  have four : (leBytes 4 v.toNat).length = 4 := rfl
  have whole : ((leBytes 4 v.toNat).drop 0).take 4 = leBytes 4 v.toNat := rfl
  simp only [hostWrite2, four, whole, word]
  simp

/-! ### Link errors (R105) -/

/-- The AER status and the Header Log with an error logged. -/
def aerLogged (e : TlpError) (header : W64 × W64) (s : State) : State :=
  (s.modLink fun l => { l with
    aer := if l.aer.contains e then l.aer else l.aer ++ [e]
    hdrLog := if l.hdrLog.isNone && (aerBit e).1 then some (e, header) else l.hdrLog }).emit (.aer e (aerSeverity e))

theorem logError_eq {e : TlpError} {header : W64 × W64} {s : State} (found : e ≠ .ecrc ∨ s.link.ecrcChk = true) :
    logError e header s = (if e = .correctedInternal then raiseFault Src.pcieCie 0 unitNone (sendMsix 0 0 (aerLogged e header s))
      else if e = .uncorrectableInternal then raiseFault Src.pcieUie 0 unitNone (sendMsix 0 0 (aerLogged e header s))
      else sendMsix 0 0 (aerLogged e header s)) := by
  have seen : (e == .ecrc && !s.link.ecrcChk) = false := by
    rcases found with h | h
    · simp [h]
    · simp [h]
  rw [logError, seen, if_neg Bool.false_ne_true]
  cases e <;> rfl

theorem logError_deep (e : TlpError) (header : W64 × W64) (s : State) : (logError e header s).deep = s.deep := by
  by_cases found : e ≠ .ecrc ∨ s.link.ecrcChk = true
  · rw [logError_eq found]
    split
    · rw [raiseFault_deep, sendMsix_deep]; rfl
    · split
      · rw [raiseFault_deep, sendMsix_deep]; rfl
      · rw [sendMsix_deep]; rfl
  · have hidden : e = .ecrc ∧ s.link.ecrcChk = false := by simpa [not_or] using found
    obtain ⟨rfl, off⟩ := hidden
    simp [logError, off]

theorem tlpError_deep (e : TlpError) (s : State) : (tlpError e s).deep = s.deep := by
  rw [tlpError, logError_deep]; rfl

theorem sendMsix_aer (v vec : Nat) (s : State) : (sendMsix v vec s).link.aer = s.link.aer := by
  unfold sendMsix
  split <;> rfl

theorem mem_aer_aerLogged (e : TlpError) (header : W64 × W64) (s : State) : (aerLogged e header s).link.aer.contains e = true := by
  rw [aerLogged, State.emit_link, State.modLink_link]
  dsimp only
  split
  · assumption
  · simp

theorem frec_aerLogged (e : TlpError) (header : W64 × W64) (s : State) (id : Nat) :
    (sendMsix 0 0 (aerLogged e header s)).frec id = s.frec id ∧ (sendMsix 0 0 (aerLogged e header s)).fcu = s.fcu := by
  have wide := sendMsix_wide 0 0 (aerLogged e header s)
  have fcu : (sendMsix 0 0 (aerLogged e header s)).fcu = s.fcu := by
    simp only [State.wide, Prod.mk.injEq] at wide
    obtain ⟨-, -, -, -, -, -, -, fcu, -⟩ := wide
    exact fcu
  exact ⟨by simp only [State.frec, fcu], fcu⟩

theorem logError_aer {e : TlpError} {header : W64 × W64} {s : State} (found : e ≠ .ecrc ∨ s.link.ecrcChk = true)
    (link : e ≠ .correctedInternal ∧ e ≠ .uncorrectableInternal) : (logError e header s).link.aer.contains e = true := by
  rw [logError_eq found, if_neg link.1, if_neg link.2, sendMsix_aer]
  exact mem_aer_aerLogged e header s

/-! ### Resets of functions (R104) -/

theorem flr_fn_same (fn : Nat) (s : State) : (flr fn s).fn fn = {} := by
  by_cases h : fn = 0
  · subst h
    obtain ⟨-, -, -, fns, -⟩ := flr_zero_link s
    exact tabGet_of_tabFind_none (tabFind_eq_none_iff.mpr fns)
  · rw [flr, if_neg (by simpa using h), resetFn_fn_same]

/-- The registers, the vectors and the pending messages of the function are gone. -/
theorem flr_clears (fn : Nat) (s : State) : (∀ p ∈ (flr fn s).link.fns, p.1 ≠ fn) ∧ (∀ k ∈ (flr fn s).link.pba, k / 2048 ≠ fn) ∧
    ∀ p ∈ (flr fn s).link.msix, p.1 / 2048 ≠ fn := by
  by_cases h : fn = 0
  · subst h
    obtain ⟨-, -, -, fns, msix, pba⟩ := flr_zero_link s
    exact ⟨fns, pba, msix⟩
  · rw [flr, if_neg (by simpa using h), resetFn_link]
    refine ⟨fun p hp => (mem_tabDel.mp hp).2, fun k hk => ?_, fun p hp => ?_⟩
    · simpa using (List.mem_filter.mp hk).2
    · simpa using (List.mem_filter.mp hp).2

theorem flr_stops {fn q : Nat} {s : State} (h : q ∈ s.qpsOf fn) : ((flr fn s).qp q).Stopped := by
  by_cases z : fn = 0
  · subst z
    have gone : (vfsClear s).link.numVfs = 0 := rfl
    exact stopQps_stops (mem_qpsOf.mpr ⟨vfsClear_hasQp (mem_qpsOf.mp h).1, fnOf_of_no_vfs gone q⟩)
  · rw [flr, if_neg (by simpa using z)]
    exact stopQps_stops h

theorem flr_others {fn : Nat} (h : fn ≠ 0) (s : State) :
    (∀ v, v ≠ fn → (flr fn s).fn v = s.fn v) ∧ ∀ q, s.fnOf q ≠ fn → (flr fn s).qp q = s.qp q := by
  rw [flr, if_neg (by simpa using h)]
  exact ⟨fun v hv => resetFn_fn_ne hv s, fun q hq => stopQps_qp_ne fun mem => hq (mem_qpsOf.mp mem).2⟩

/-! ### MSI-X and PTM (R101, R163) -/

theorem releaseMsix_of_none {v : Nat} {s : State} (h : ∀ k ∈ s.link.pba, k / 2048 ≠ v) : releaseMsix v s = s := by
  have none : (s.link.pba.filter fun k => k / 2048 == v) = [] := by
    simpa [List.filter_eq_nil_iff] using h
  rw [releaseMsix, none, List.foldl_nil]

theorem and_one_of_getLsbD {v : W32} (h : v.getLsbD 0 = true) : v &&& 1 = 1 := by
  apply BitVec.eq_of_getLsbD_eq
  intro i hi
  rw [BitVec.getLsbD_and]
  cases i with
  | zero => simp [h]
  | succ i => simp [BitVec.getLsbD_one]

theorem ptmComplete_of_sent {t2 : W64} {prop : W32} {vt : W64} {ql : Quality} {era : Nat} {s : State}
    (sent : s.link.ptmSent = some (vt, ql, era))
    (ok : vtRangeOk (16 * (t2.toNat - prop.toNat : Nat) + s.time.ptmOfs.toInt) = true) :
    ptmComplete t2 prop s = sample 3 vt ((vt.toNat : Int) - (16 * (t2.toNat - prop.toNat : Nat) + s.time.ptmOfs.toInt)) true
      ((s.modLink fun l => { l with ptmSent := none }).modTime fun t => { t with
        ptmRecs := (t.ptmRecs ++ [({ vt, hostNs := w64 (t2.toNat - prop.toNat), propNs := prop, quality := ql, era := era } : PtmRec)]).drop
          (t.ptmRecs.length + 1 - 64) }) := by
  simp only [ptmComplete, sent]
  exact if_pos ok

/-- Settles O6: each row by the lemma that gives its next state. -/
theorem pcieRows : Obligations.PcieRows := by
  refine ⟨fun s off n alive up hit => ?_, fun s u fn off v alive up hit aligned read => ?_,
    fun s off n l u alive up hit ready hi ok load => ?_, fun s fn off n alive up ex => ?_,
    fun s fn bar off n alive up notCfg miss => ?_, fun s data alive up awake len => ?_,
    fun s u fn off v x alive up hit aligned write => ?_, fun s off data alive up hit ready hi ok => ?_,
    fun s fn q v alive up hit => ?_, fun s u e h alive up found hu => ?_, fun s h alive up off => ?_, fun s fn bar2 => ?_,
    fun s bar2 => ?_, fun s fn bar2 => ?_, fun s fn vec word val bar2 hvec hword bit0 empty => ?_,
    fun s alive up en => ?_, fun s => ?_, fun s t2 prop vt ql era alive up sent ok => ?_⟩
  · rintro rfl rfl
    refine Runs.of_act (show _ = execPcieMemRead 0 0 0x44 4 s from rfl) (by simp [alive, up]) ?_
    refine pcieRead_of_word (v := s.boot.readyMap.setWidth 32) (u := s) hit rfl rfl |>.trans ?_
    have hb := s.boot.readyMap.isLt
    rw [BitVec.toNat_setWidth, Nat.mod_eq_of_lt (by omega)]
  · exact Runs.of_act (show _ = execPcieMemRead fn 0 off 4 s from rfl) (by simp [alive, up]) (pcieRead_of_word hit aligned read)
  · refine Runs.of_act (show _ = execPcieMemRead 0 4 off n s from rfl) (by simp [alive, up]) ?_
    simp only [pcieRead, hit]
    exact hostRead4_of_dram ready hi ok (barHit_pos hit) load
  · refine Runs.of_act (show _ = execPcieMemRead fn 6 off n s from rfl) (by simp [alive, up]) ?_
    simp [pcieRead, barCfg, ex]
  · refine Runs.of_act (show _ = execPcieMemRead fn bar off n s from rfl) (by simp [alive, up]) ?_
    have missed : pcieRead fn bar off n s = (tlpError .unsupportedRequest s).emit (.readCompletion none false) := by
      simp [pcieRead, barCfg, notCfg, miss]
    rw [missed]
    exact ⟨rfl, logError_aer (.inl (by decide)) (by decide), (State.emit_deep ..).trans (tlpError_deep ..)⟩
  · exact Runs.of_act (show _ = execPcieMemWrite 0 0 0x54 data s from rfl) (by simp [alive, up]) (pcieWrite_bootLen awake len)
  · exact Runs.of_act (show _ = execPcieMemWrite fn 0 off (leBytes 4 v.toNat) s from rfl) (by simp [alive, up])
      ((pcieWrite_of_word hit aligned).trans (bar0WriteWords_of_ok write))
  · refine Runs.of_act (show _ = execPcieMemWrite 0 4 off data s from rfl) (by simp [alive, up]) ?_
    simp only [pcieWrite, hit]
    exact hostWrite4_of_dram ready hi ok (barHit_pos hit)
  · refine Runs.of_act (show _ = execPcieMemWrite fn 2 (16 * q) (leBytes 4 v.toNat) s from rfl) (by simp [alive, up]) ?_
    have bar2 : s.bar2Up fn = true := by
      simp only [State.barHit, Bool.and_eq_true] at hit
      simp [State.bar2Up, alive, up, hit.1.1.1]
    have four : (leBytes 4 v.toNat).length = 4 := rfl
    simp only [pcieWrite, four, hit]
    rw [show exec (.sqTailDoorbell fn q 4 v) s = execSqTailDoorbell fn q 4 v s from rfl, execSqTailDoorbell, act_true bar2]
    exact congrArg _ (hostWrite2_sqTail fn q v s).symm
  · have eq := logError_eq (header := (h.extractLsb' 0 64, h.extractLsb' 64 64)) found
    replace hu : u = sendMsix 0 0 (aerLogged e (h.extractLsb' 0 64, h.extractLsb' 64 64) s) := hu
    have frec (id : Nat) : u.frec id = s.frec id ∧ u.fcu = s.fcu := hu ▸ frec_aerLogged ..
    refine Runs.of_act (show _ = execPcieTlpError e h s from rfl) (by simp [alive, up]) ⟨by rw [eq, hu], logError_deep .., ?_, ?_⟩
    · rintro running closed rfl
      rw [eq, if_pos rfl, ← hu]
      exact raiseFault_isOpen _ _ (by rw [(frec 0).2, running]) rfl (by rw [(frec _).1, closed])
    · rintro running closed rfl
      rw [eq, if_neg (by decide), if_pos rfl, ← hu]
      exact raiseFault_isOpen _ _ (by rw [(frec 0).2, running]) rfl (by rw [(frec _).1, closed])
  · exact Runs.of_act (show _ = execPcieTlpError .ecrc h s from rfl) (by simp [alive, up]) (by simp [logError, off])
  · obtain ⟨fns, pba, msix⟩ := flr_clears fn s
    refine Runs.of_act (show _ = execFunctionLevelReset fn s from rfl) bar2
      ⟨flr_onlyLink fn s, flr_fn_same fn s, fns, pba, msix, fun q hq => flr_stops hq, ?_, fun other => flr_others other s⟩
    rintro rfl
    obtain ⟨vfs, ptm, sent, -⟩ := flr_zero_link s
    exact ⟨vfs, ptm, sent⟩
  · exact Runs.of_act (show _ = execVfEnableClear s from rfl) bar2 ⟨vfsClear_onlyLink s, rfl, fun v lo hi => vfsClear_fn_vf lo hi,
      vfsClear_fn_zero s, fun v lo hi q hq => vfsClear_stops lo hi hq⟩
  · exact Runs.of_act (show _ = execD3hotTransition fn s from rfl) bar2
      ⟨by rw [State.fn_setFn_same], fun v hv => State.fn_setFn_ne s _ hv, rfl⟩
  · subst hword
    refine Runs.of_act (show _ = execMsixTableWrite fn vec 3 val s from rfl) (by simp [bar2, hvec]) ?_
    rw [writeMsix, releaseMsix_of_none (by exact empty)]
    refine ⟨?_, rfl⟩
    rw [State.modLink_link, tabGet_tabMod_same]
    simp only [and_one_of_getLsbD bit0]
  · exact Runs.of_act (show _ = execPtmRequestIssue true s from rfl) (by simp [alive, up, en]) rfl
  · exact ⟨s, act_false (by simp) .., rfl⟩
  · refine Runs.of_act (show _ = execPtmDialogComplete t2 prop s from rfl) (by simp [alive, up])
      ⟨_, ?_, ?_, ?_, ptmComplete_of_sent sent ok⟩
    · rfl
    · rfl
    · rfl

/-- Settles O7: each request by the branch of its answer. -/
theorem attestationMailboxRows : Obligations.AttestationMailboxRows := by
  refine ⟨fun s index dwords alive up => ⟨fun long => ?_, fun short hi => ?_, fun short hi => ?_⟩,
    fun s n alive up short ready => ?_, fun s n alive up busy c hc => ?_⟩
  · exact Runs.of_act (show _ = execDoeDiscovery index dwords s from rfl) (by simp [alive, up]) (by simp [doeAnswer, long])
  · subst hi
    exact Runs.of_act (show _ = execDoeDiscovery 0 dwords s from rfl) (by simp [alive, up]) (by simp [doeAnswer, short])
  · subst hi
    exact Runs.of_act (show _ = execDoeDiscovery 1 dwords s from rfl) (by simp [alive, up]) (by simp [doeAnswer, short])
  · have live : (s.alive && s.link.up) = true := by simp [alive, up]
    have answer (r : SpdmRsp) : spdm n r s = s.emit (.spdm r) := by simp [spdm, short, ready]
    refine ⟨Runs.of_act rfl live (answer _), Runs.of_act rfl live (answer _), fun asym hash => Runs.of_act rfl live (answer _),
      Runs.of_act rfl live (answer _), fun offset length => Runs.of_act rfl live (answer _), fun slot offset length other => ?_,
      fun nonce => Runs.of_act rfl live (answer _), fun slot nonce other => ?_, fun index nonce => Runs.of_act rfl live (answer _),
      fun code other => ?_⟩
    · refine Runs.of_act (show _ = execSpdmGetCertificate n slot offset length s from rfl) live ?_
      rw [answer, if_neg (by simpa using other)]
    · refine Runs.of_act (show _ = execSpdmChallenge n slot nonce s from rfl) live ?_
      rw [answer, if_neg (by simpa using other)]
    · exact Runs.of_act (show _ = execSpdmOtherRequest n code s from rfl) (by simpa [alive, up] using other) (answer _)
  · have live : (s.alive && s.link.up) = true := by simp [alive, up]
    have answer (r : SpdmRsp) : spdm n r s = s.emit (if 65536 < n then .doeAbort else .spdm .errorBusy) := by
      by_cases long : 65536 < n
      · simp [spdm, long]
      · have notReady : s.ready Rdy.attest = false := busy.resolve_right long
        simp [spdm, long, notReady]
    rcases hc with rfl | rfl | ⟨a, h, rfl⟩ | rfl | ⟨a, o, l, rfl⟩ | ⟨a, d, rfl⟩ | ⟨i, d, rfl⟩ | ⟨k, other, rfl⟩
    · exact Runs.of_act rfl live (answer _)
    · exact Runs.of_act rfl live (answer _)
    · exact Runs.of_act rfl live (answer _)
    · exact Runs.of_act rfl live (answer _)
    · exact Runs.of_act rfl live (answer _)
    · exact Runs.of_act rfl live (answer _)
    · exact Runs.of_act rfl live (answer _)
    · exact Runs.of_act (show _ = execSpdmOtherRequest n k s from rfl) (by simpa [alive, up] using other) (answer _)

end Sys2Proof.Machine
end

section
/-! PROOFS. Doorbells, fetching and posting (R84 to R103, R115). -/
namespace Sys2Proof.Machine

/-! ### Messages -/

/-- `t` is `s` after messages to the outside: the QPs and the function registers are as they were. -/
structure State.Signals (s t : State) : Prop where
  rest : t = { s with
    link := { s.link with aer := t.link.aer, hdrLog := t.link.hdrLog, pba := t.link.pba, counts := t.link.counts }
    out := t.out
    free := t.free }
  said : s.out ⊆ t.out

namespace State.Signals

theorem refl (s : State) : s.Signals s := ⟨rfl, fun _ h => h⟩

theorem trans {s t u : State} (st : s.Signals t) (tu : t.Signals u) : s.Signals u := by
  refine ⟨?_, fun _ h => tu.said (st.said h)⟩
  rw [tu.rest, st.rest]

theorem emit (s : State) (o : Output) : s.Signals (s.emit o) := ⟨rfl, fun _ h => List.mem_cons_of_mem _ h⟩
theorem count (s : State) (v : Nat) (f : QCounts → QCounts) : s.Signals (s.count v f) := ⟨rfl, fun _ h => h⟩

theorem sendMsix (v vec : Nat) (s : State) : s.Signals (sendMsix v vec s) := by
  unfold Machine.sendMsix
  split
  · exact ⟨rfl, fun _ h => h⟩
  · exact (count s v _).trans (emit ..)

variable {s t : State} (h : s.Signals t)
include h

theorem qp (q : Nat) : t.qp q = s.qp q := by rw [h.rest]; rfl
theorem fn (v : Nat) : t.fn v = s.fn v := by rw [h.rest]; rfl
theorem fnOf (q : Nat) : t.fnOf q = s.fnOf q := by rw [h.rest]; rfl
theorem isAdmin (q : Nat) : t.isAdmin q = s.isAdmin q := by rw [h.rest]; rfl
theorem only : t = { s with link := t.link, out := t.out, free := t.free } := by rw [h.rest]

end State.Signals

theorem State.qp_setFn (s : State) (v : Nat) (f : AdminRegs → AdminRegs) (q : Nat) : (s.setFn v f).qp q = s.qp q := rfl
theorem State.fn_setQp (s : State) (q : Nat) (f : Qp → Qp) (v : Nat) : (s.setQp q f).fn v = s.fn v := rfl
theorem State.qp_emit (s : State) (o : Output) (q : Nat) : (s.emit o).qp q = s.qp q := rfl
theorem State.fnOf_setQp (s : State) (q : Nat) (f : Qp → Qp) (p : Nat) : (s.setQp q f).fnOf p = s.fnOf p := rfl
theorem State.isAdmin_setQp (s : State) (q : Nat) (f : Qp → Qp) (p : Nat) : (s.setQp q f).isAdmin p = s.isAdmin p := rfl

/-! ### A queue fault of an admin queue (R94) -/

theorem qpFault_admin {q : Nat} {s : State} (cause : Nat) (admin : s.isAdmin q = true) :
    ((s.setQp q fun c => { c with state := .faulted, cause := cause }).setFn (s.fnOf q) fun a =>
      { a with cause := cause, fault := true, rdy := false }).Signals (qpFault q cause s) := by
  unfold qpFault
  dsimp only
  rw [if_pos admin]
  exact .sendMsix ..

theorem qpFault_admin_qp {q : Nat} {s : State} (cause : Nat) (admin : s.isAdmin q = true) :
    (qpFault q cause s).qp q = { s.qp q with state := .faulted, cause := cause } := by
  rw [(qpFault_admin cause admin).qp, State.qp_setFn, State.qp_setQp_same]

theorem qpFault_admin_fn {q : Nat} {s : State} (cause : Nat) (admin : s.isAdmin q = true) :
    (qpFault q cause s).fn (s.fnOf q) = { s.fn (s.fnOf q) with cause := cause, fault := true, rdy := false } := by
  rw [(qpFault_admin cause admin).fn, State.fn_setFn_same]
  rfl

/-! ### Doorbells (R93) -/

theorem doorbell_of_live {fn l g : Nat} {tail : Bool} {val : W32} {s : State} (door : doorQp fn l s = some g)
    (active : (s.qp g).state = .active) : doorbell fn l tail 4 val s =
      if tail then sqTail g (bitsAt val.toNat 0 16) s else cqHead g (bitsAt val.toNat 0 16) s := by
  simp [doorbell, door, active]

theorem doorbell_dropped {fn l bytes : Nat} {tail : Bool} {val : W32} {s : State}
    (bad : bytes ≠ 4 ∨ doorQp fn l s = none ∨ ∃ g, doorQp fn l s = some g ∧ (s.qp g).state ≠ .active) :
    doorbell fn l tail bytes val s = dbDrop fn s := by
  unfold doorbell
  rcases bad with h | h | ⟨g, h, dead⟩
  · split <;> simp [h]
  · rw [h]
  · simp [h, dead]

theorem doorbellPair_dropped {fn l : Nat} {tail head : W32} {s : State}
    (bad : doorQp fn l s = none ∨ ∃ g, doorQp fn l s = some g ∧ (s.qp g).state ≠ .active) :
    doorbellPair fn l tail head s = dbDrop fn s := by
  unfold doorbellPair
  rcases bad with h | ⟨g, h, dead⟩
  · rw [h]
  · simp [h, dead]

theorem dbDrop_frame (fn : Nat) (s : State) : (dbDrop fn s).link.qps = s.link.qps ∧
    ((dbDrop fn s).fn fn).dbDrop = satAdd 32 (s.fn fn).dbDrop 1 ∧ dbDrop fn s = { s with link := (dbDrop fn s).link } := by
  have dropped := State.Signals.count (s.setFn fn fun a => { a with dbDrop := satAdd 32 a.dbDrop 1 }) fn fun c =>
    { c with dbDrop := c.dbDrop + 1 }
  exact ⟨rfl, by rw [dbDrop, dropped.fn, State.fn_setFn_same], rfl⟩

theorem sqTail_within {g tail : Nat} {s : State} (h : tail ≤ (s.qp g).sqDepthM1) : sqTail g tail s = s.setQp g fun c => { c with
    sqTail := tail, rungAt := if c.rungAt.isNone && tail != c.sqHead then some s.time.mono else c.rungAt } := by
  simp only [sqTail, if_neg (Nat.not_lt.mpr h)]

/-- What decides whether a doorbell reaches a QP. -/
def State.reach (s : State) := (s.alive, s.link.up, s.link.numVfs)

theorem bar2Up_of_reach {s t : State} (h : t.reach = s.reach) (fn : Nat) : t.bar2Up fn = s.bar2Up fn := by
  simp only [State.reach, Prod.mk.injEq] at h
  obtain ⟨alive, up, vfs⟩ := h
  simp only [State.bar2Up, State.fnExists, alive, up, vfs]

theorem doorQp_of_reach {s t : State} (h : t.reach = s.reach) (fn l : Nat) : doorQp fn l t = doorQp fn l s := by
  simp only [State.reach, Prod.mk.injEq] at h
  obtain ⟨-, -, vfs⟩ := h
  unfold doorQp State.fnExists State.fnOf
  rw [vfs]

theorem State.Signals.reach {s t : State} (h : s.Signals t) : t.reach = s.reach := by rw [h.rest]; rfl

theorem moderate_reach (q : Nat) (success : Bool) (s : State) : (moderate q success s).reach = s.reach := by
  unfold moderate
  dsimp only
  split
  · rfl
  split
  · exact (State.Signals.sendMsix ..).reach
  · rfl

theorem writeCqe_reach (q : Nat) (e : Cqe) (s : State) : (writeCqe q e s).reach = s.reach := moderate_reach ..

theorem openOverflow_reach (q : Nat) (e : Cqe) (s : State) : (openOverflow q e s).reach = s.reach := by
  unfold openOverflow
  dsimp only
  split
  · rfl
  · exact (State.Signals.count ..).reach.trans (writeCqe_reach ..)

theorem postUnsol_reach (q : Nat) (e : Cqe) (s : State) : (postUnsol q e s).reach = s.reach := by
  unfold postUnsol
  dsimp only
  split
  · rfl
  split
  · exact (State.Signals.count ..).reach.trans (writeCqe_reach ..)
  · refine (State.Signals.count ..).reach.trans ?_
    split
    · rfl
    · exact openOverflow_reach q e s

theorem qpFault_reach (q cause : Nat) (s : State) : (qpFault q cause s).reach = s.reach := by
  unfold qpFault
  dsimp only
  split
  · exact (State.Signals.sendMsix ..).reach
  · exact postUnsol_reach ..

theorem sqTail_reach (q tail : Nat) (s : State) : (sqTail q tail s).reach = s.reach := by
  unfold sqTail
  dsimp only
  split
  · exact qpFault_reach ..
  · rfl

/-- Settles O8: each row by the lemma that gives its next state. -/
theorem doorbellRows : Obligations.DoorbellRows := by
  refine ⟨fun s fn can sqb cqb sd cd => ?_, fun s fn can bad => ?_, fun s fn up en => ?_,
    fun s fn q val g bar2 door active depth => ?_, fun s fn q val g bar2 door active beyond admin => ?_,
    fun s fn q val g bar2 door active depth behind => ?_, fun s fn q tail head g bar2 door active => ?_,
    fun s fn q tail head bar2 bad => ?_, fun s fn q bytes val bar2 bad => ⟨?_, ?_⟩, fun s fn bar2 => ?_⟩
  · refine Runs.of_act (show _ = execAqCtlEnable fn s from rfl) can ?_
    have enabled : aqEnable fn s = (s.setFn fn fun a => { a with en := true, rdy := true, fault := false, cause := 0 }).setQp
        (globalQp fn 0) fun _ => { sqBase := (s.fn fn).sqb, cqBase := (s.fn fn).cqb, sqDepthM1 := bitsAt (s.fn fn).size.toNat 0 16, cqDepthM1 := bitsAt (s.fn fn).size.toNat 16 16, state := .active, intrEn := true, evtEn := true, pin := true, admin := true } := by
      simp [aqEnable, sqb, cqb, sd, cd]
    rw [enabled, State.qp_setQp_same, State.fn_setQp, State.fn_setFn_same]
    exact ⟨rfl, rfl, rfl, rfl, rfl, rfl, rfl, rfl, rfl, rfl, rfl⟩
  · refine Runs.of_act (show _ = execAqCtlEnable fn s from rfl) can ?_
    unfold aqEnable
    dsimp only
    rw [if_pos]
    simp only [not_and_or, not_le, Nat.lt_one_iff] at bad
    simpa [or_assoc] using bad
  · refine Runs.of_act (show _ = execAqCtlDisable fn s from rfl) (by simp [up, en]) ?_
    have cleared : ∀ u : State, (s.setFn fn fun a => { a with en := false }).OnlyQps u → (u.fn fn).en = false := by
      intro u h
      have same : u.link.fns = (s.setFn fn fun a => { a with en := false }).link.fns := by rw [h]
      rw [State.fn, same]
      exact congrArg AdminRegs.en (State.fn_setFn_same s fn _)
    have only := deleteFn_onlyQps fn (s.setFn fn fun a => { a with en := false })
    have gone : ∀ q ∈ s.qpsOf fn, ((deleteFn fn (s.setFn fn fun a => { a with en := false })).qp q).state = .deleting :=
      fun q hq => deleteFn_deletes (s := s.setFn fn _) hq
    have whole := (State.OnlyLink.modLink s _).trans only.onlyLink
    unfold aqDisable
    dsimp only
    split
    · exact ⟨by rw [State.fn_setFn_same]; exact cleared _ only, gone, whole.trans (.modLink ..)⟩
    · exact ⟨cleared _ only, gone, whole⟩
  · refine Runs.of_act (show _ = execSqTailDoorbell fn q 4 val s from rfl) bar2 ?_
    rw [doorbell_of_live door active, if_pos rfl, sqTail_within depth, State.qp_setQp_same]
    exact ⟨rfl, rfl⟩
  · refine Runs.of_act (show _ = execSqTailDoorbell fn q 4 val s from rfl) bar2 ?_
    rw [doorbell_of_live door active, if_pos rfl, sqTail, if_pos beyond, qpFault_admin_qp 2 admin, qpFault_admin_fn 2 admin]
    refine ⟨rfl, rfl, rfl, rfl, rfl, ?_⟩
    rw [qpFault_wide]
  · refine Runs.of_act (show _ = execCqHeadDoorbell fn q 4 val s from rfl) bar2 ?_
    rw [doorbell_of_live door active, if_neg Bool.false_ne_true]
    simp only [cqHead, if_neg (Nat.not_lt.mpr depth), if_neg (Nat.not_lt.mpr behind)]
  · refine Runs.of_act (show _ = execDoorbellPairWrite fn q tail head s from rfl) bar2 ?_
    have reach := sqTail_reach g (bitsAt tail.toNat 0 16) s
    refine ⟨sqTail g (bitsAt tail.toNat 0 16) s, ?_, fun live => ?_, fun dead => ?_⟩
    · rw [show exec (.sqTailDoorbell fn q 4 tail) s = execSqTailDoorbell fn q 4 tail s from rfl, execSqTailDoorbell,
        act_true bar2, doorbell_of_live door active, if_pos rfl]
    · rw [show ∀ u, exec (.cqHeadDoorbell fn q 4 head) u = execCqHeadDoorbell fn q 4 head u from fun _ => rfl, execCqHeadDoorbell,
        act_true ((bar2Up_of_reach reach fn).trans bar2), doorbell_of_live ((doorQp_of_reach reach fn q).trans door) live,
        if_neg Bool.false_ne_true]
      simp [doorbellPair, door, active, live]
    · simp [doorbellPair, door, active, dead]
  · refine Runs.of_act (show _ = execDoorbellPairWrite fn q tail head s from rfl) bar2 ?_
    rw [doorbellPair_dropped bad]
    exact dbDrop_frame fn s
  · refine Runs.of_act (show _ = execSqTailDoorbell fn q bytes val s from rfl) bar2 ?_
    rw [doorbell_dropped bad]
    exact dbDrop_frame fn s
  · refine Runs.of_act (show _ = execCqHeadDoorbell fn q bytes val s from rfl) bar2 ?_
    rw [doorbell_dropped bad]
    exact dbDrop_frame fn s
  · refine Runs.of_act (show _ = execQcapDbdropRead fn s from rfl) bar2 ⟨?_, rfl⟩
    exact congrArg AdminRegs.dbDrop (State.fn_setFn_same ..)

end Sys2Proof.Machine
end

section
/-! PROOFS. Fetching SQ entries and posting CQ entries (R71, R72, R88 to R105, R115). -/
namespace Sys2Proof.Machine

/-! ### One entry written (R95, R101) -/

theorem State.qp_count (s : State) (v : Nat) (f : QCounts → QCounts) (q : Nat) : (s.count v f).qp q = s.qp q := rfl

theorem State.qp_setQp (s : State) (q : Nat) (f : Qp → Qp) (p : Nat) : (s.setQp q f).qp p = if p = q then f (s.qp q) else s.qp p := by
  split
  · next h => rw [h, State.qp_setQp_same]
  · next h => exact State.qp_setQp_ne s f h

/-- Moderation changes `since` and `modDue` of its QP alone, and may send a message. -/
theorem moderate_qp (q : Nat) (success : Bool) (s : State) :
    (∃ since due, (moderate q success s).qp q = { s.qp q with since := since, modDue := due }) ∧
      (∀ p, p ≠ q → (moderate q success s).qp p = s.qp p) ∧ s.out ⊆ (moderate q success s).out := by
  unfold moderate
  dsimp only
  split
  · exact ⟨⟨_, _, rfl⟩, fun _ _ => rfl, fun _ h => h⟩
  split
  · have sent := State.Signals.sendMsix (s.fnOf q) (s.qp q).vector (s.setQp q fun c => { c with since := 0, modDue := none })
    refine ⟨⟨0, none, ?_⟩, fun p hp => ?_, sent.said⟩
    · rw [sent.qp, State.qp_setQp_same]
    · rw [sent.qp, State.qp_setQp_ne s _ hp]
  · exact ⟨⟨_, _, State.qp_setQp_same ..⟩, fun p hp => State.qp_setQp_ne s _ hp, fun _ h => h⟩

/-- The place after the one an entry is written to, and the phase there (R95). -/
def Qp.cqNext (c : Qp) : Qp := { c with
  cqTail := if c.cqTail = c.cqDepthM1 then 0 else c.cqTail + 1
  phase := if c.cqTail = c.cqDepthM1 then !c.phase else c.phase }

theorem writeCqe_eq (q : Nat) (e : Cqe) (s : State) : writeCqe q e s = moderate q (e.status == 0)
    ((s.emit (.cqeWrite q (s.qp q).cqTail ((s.qp q).cqBase + w64 (16 * (s.qp q).cqTail)) (cqeBytes (s.qp q).phase e))).setQp q
      fun c => { c with
        cqTail := if (s.qp q).cqTail == (s.qp q).cqDepthM1 then 0 else c.cqTail + 1
        phase := if (s.qp q).cqTail == (s.qp q).cqDepthM1 then !c.phase else c.phase }) := rfl

theorem writeCqe_qp (q : Nat) (e : Cqe) (s : State) :
    (∃ since due, (writeCqe q e s).qp q = { (s.qp q).cqNext with since := since, modDue := due }) ∧
      ∀ p, p ≠ q → (writeCqe q e s).qp p = s.qp p := by
  rw [writeCqe_eq]
  obtain ⟨⟨since, due, same⟩, other, -⟩ := moderate_qp q (e.status == 0) ((s.emit (.cqeWrite q (s.qp q).cqTail
    ((s.qp q).cqBase + w64 (16 * (s.qp q).cqTail)) (cqeBytes (s.qp q).phase e))).setQp q fun c => { c with
      cqTail := if (s.qp q).cqTail == (s.qp q).cqDepthM1 then 0 else c.cqTail + 1
      phase := if (s.qp q).cqTail == (s.qp q).cqDepthM1 then !c.phase else c.phase })
  refine ⟨⟨since, due, ?_⟩, fun p hp => ?_⟩
  · rw [same, State.qp_setQp_same, State.qp_emit, Qp.cqNext]
    simp only [beq_iff_eq]
  · rw [other p hp, State.qp_setQp_ne _ _ hp, State.qp_emit]

theorem writeCqe_out (q : Nat) (e : Cqe) (s : State) :
    .cqeWrite q (s.qp q).cqTail ((s.qp q).cqBase + w64 (16 * (s.qp q).cqTail)) (cqeBytes (s.qp q).phase e) ∈ (writeCqe q e s).out := by
  rw [writeCqe_eq]
  obtain ⟨-, -, said⟩ := moderate_qp q (e.status == 0) ((s.emit (.cqeWrite q (s.qp q).cqTail
    ((s.qp q).cqBase + w64 (16 * (s.qp q).cqTail)) (cqeBytes (s.qp q).phase e))).setQp q fun c => { c with
      cqTail := if (s.qp q).cqTail == (s.qp q).cqDepthM1 then 0 else c.cqTail + 1
      phase := if (s.qp q).cqTail == (s.qp q).cqDepthM1 then !c.phase else c.phase })
  exact said List.mem_cons_self

/-! ### Image writes that end (R123) -/

theorem endWrites_of_none {who : Nat → Nat → Bool} {s : State} (h : ∀ w ∈ s.em.writing, who w.1 w.2.1 = false) :
    endWrites who s = s := by
  have done : (s.em.writing.filter fun w => who w.1 w.2.1) = [] := by
    rw [List.filter_eq_nil_iff]
    exact fun w hw => by simp [h w hw]
  have kept : (s.em.writing.filter fun w => !who w.1 w.2.1) = s.em.writing := by
    rw [List.filter_eq_self]
    exact fun w hw => by simp [h w hw]
  rw [endWrites, State.modEm]
  dsimp only
  rw [done, kept, List.foldl_nil]

/-! ### SQ reads (R89, R98, R105) -/

theorem touchCtx_frame (q : Nat) (s : State) : ∃ cache hits misses,
    touchCtx q s = s.modLink fun l => { l with cache := cache, hits := hits, misses := misses } := by
  unfold touchCtx
  dsimp only
  split
  · exact ⟨_, _, _, rfl⟩
  split
  · exact ⟨_, _, _, rfl⟩
  · exact ⟨_, _, _, rfl⟩

/-- The context after a visit that fetches `n` entries (R89). -/
def Qp.fetch (n : Nat) (c : Qp) : Qp := { c with
  sqHead := (c.sqHead + n) % (c.sqDepthM1 + 1), reading := n, owed := c.owed + n, rungAt := none }

theorem fetchSq_frame (q : Nat) (s : State) :
    (fetchSq q s).qp q = (s.qp q).fetch (visitCount s q (s.qp q)) ∧ (∀ p, p ≠ q → (fetchSq q s).qp p = s.qp p) ∧
      (fetchSq q s).out = .sqRead q (s.qp q).sqHead (visitCount s q (s.qp q)) :: s.out ∧ (fetchSq q s).wide = s.wide := by
  obtain ⟨cache, hits, misses, touched⟩ := touchCtx_frame q s
  unfold fetchSq
  dsimp only
  rw [touched]
  refine ⟨?_, fun p hp => ?_, ?_, ?_⟩
  rotate_right 2
  · rw [State.emit_out]
    rfl
  · rw [State.emit_wide, State.count_wide, State.setQp_wide, State.modLink_wide, State.modLink_wide]
  · rw [State.qp_emit, State.qp_count, State.qp_setQp_same]
    rfl
  · rw [State.qp_emit, State.qp_count, State.qp_setQp_ne _ _ hp]
    rfl

/-- The command an entry becomes, with its number (R107). -/
def cmdOf (cid : Nat) (e : Entry) : Cmd := { cid := cid, opcode := e.opcode.toNat, sub := e.sub }

/-- The context with a command more. -/
def Qp.take (m : Cmd) (c : Qp) : Qp := { c with cmds := c.cmds ++ [m] }

/-- One entry taken. -/
def takeEntry (q : Nat) (e : Entry) (s : State) : State :=
  (s.setQp q (Qp.take (cmdOf s.basut.nextCid e))).modBasut fun b => { b with nextCid := b.nextCid + 1 }

theorem takeEntries_cons (q : Nat) (e : Entry) (es : List Entry) (s : State) :
    takeEntries q (e :: es) s = takeEntries q es (takeEntry q e s) := rfl

theorem takeEntry_qp (q : Nat) (e : Entry) (s : State) : (takeEntry q e s).qp q = (s.qp q).take (cmdOf s.basut.nextCid e) :=
  State.qp_setQp_same s q (Qp.take (cmdOf s.basut.nextCid e))

/-- Entries taken are commands of their QP, numbered on. -/
theorem takeEntries_frame (q : Nat) (es : List Entry) (s : State) :
    ((takeEntries q es s).qp q).reading = (s.qp q).reading ∧ ((takeEntries q es s).qp q).state = (s.qp q).state ∧
      ((takeEntries q es s).qp q).cmds.map (·.opcode) = (s.qp q).cmds.map (·.opcode) ++ es.map (·.opcode.toNat) ∧
      ((takeEntries q es s).qp q).cmds.map (·.sub) = (s.qp q).cmds.map (·.sub) ++ es.map (·.sub) ∧
      takeEntries q es s = { s with
        link := (takeEntries q es s).link, basut := { s.basut with nextCid := s.basut.nextCid + es.length } } := by
  induction es generalizing s with
  | nil => exact ⟨rfl, rfl, (List.append_nil _).symm, (List.append_nil _).symm, rfl⟩
  | cons e es ih =>
    obtain ⟨reading, state, opcodes, subs, rest⟩ := ih (takeEntry q e s)
    rw [takeEntry_qp] at reading state opcodes subs
    rw [takeEntries_cons]
    refine ⟨reading, state, opcodes.trans ?_, subs.trans ?_, rest.trans ?_⟩
    · simp [Qp.take, cmdOf]
    · simp [Qp.take, cmdOf]
    · have count : s.basut.nextCid + 1 + es.length = s.basut.nextCid + (e :: es).length := by
        rw [List.length_cons]
        omega
      rw [← count]
      rfl

theorem entriesOf_length (data : List Byte) : (entriesOf data).length = data.length / 64 := by
  simp [entriesOf]

/-- A failed read of an ACTIVE admin queue faults it (R94, R105). -/
theorem fetchFailed_admin {q : Nat} {s : State} (cause : Nat) (active : (s.qp q).state = .active) (admin : s.isAdmin q = true) :
    fetchFailed q cause s = qpFault q cause (dropReads q s) := by
  have same : ((dropReads q s).qp q).state = .active := by rw [dropReads, State.qp_setQp_same, active]
  simp only [fetchFailed, same, beq_self_eq_true, if_true]

theorem fetchFailed_admin_frame {q : Nat} {s : State} (cause : Nat) (active : (s.qp q).state = .active)
    (admin : s.isAdmin q = true) :
    (fetchFailed q cause s).qp q = { s.qp q with
        owed := (s.qp q).owed - (s.qp q).reading, reading := 0, state := .faulted, cause := cause } ∧
      (fetchFailed q cause s).fn (s.fnOf q) = { s.fn (s.fnOf q) with cause := cause, fault := true, rdy := false } ∧
      (fetchFailed q cause s).link.aer = s.link.aer ∧
      fetchFailed q cause s = { s with link := (fetchFailed q cause s).link, out := (fetchFailed q cause s).out } := by
  rw [fetchFailed_admin cause active admin]
  have admin' : (dropReads q s).isAdmin q = true := admin
  refine ⟨?_, qpFault_admin_fn (s := dropReads q s) cause admin', ?_, ?_⟩
  · rw [qpFault_admin_qp cause admin', dropReads, State.qp_setQp_same]
  · unfold qpFault
    dsimp only
    rw [if_pos admin', sendMsix_aer]
    rfl
  · unfold qpFault
    dsimp only
    rw [if_pos admin', sendMsix]
    split <;> rfl

theorem tlpError_signals {e : TlpError} (s : State) (found : e ≠ .ecrc) (link : e ≠ .correctedInternal ∧ e ≠ .uncorrectableInternal) :
    s.Signals (tlpError e s) := by
  rw [tlpError, logError_eq (.inl found), if_neg link.1, if_neg link.2]
  refine .trans ?_ (.sendMsix ..)
  exact ⟨rfl, fun _ h => List.mem_cons_of_mem _ h⟩

/-- A QP but for the phases of its commands. -/
def Qp.face (c : Qp) := ({ c with cmds := [] }, c.cmds.map (·.cid), c.cmds.map (·.opcode), c.cmds.map (·.sub))

/-- `t` differs from `s` in what a completion records: phases of commands, cube commands, output. -/
def State.OnlyPhases (s t : State) : Prop :=
  (∀ p, (t.qp p).face = (s.qp p).face) ∧ t = { s with link := { s.link with qps := t.link.qps }, brl := t.brl, out := t.out }

theorem State.OnlyPhases.context {s t : State} (h : s.OnlyPhases t) (q : Nat) :
    { t.qp q with cmds := [] } = { s.qp q with cmds := [] } := congrArg Prod.fst (h.1 q)
theorem State.OnlyPhases.reading {s t : State} (h : s.OnlyPhases t) (q : Nat) : (t.qp q).reading = (s.qp q).reading :=
  show { t.qp q with cmds := [] }.reading = _ by rw [h.context]
theorem State.OnlyPhases.state {s t : State} (h : s.OnlyPhases t) (q : Nat) : (t.qp q).state = (s.qp q).state :=
  show { t.qp q with cmds := [] }.state = _ by rw [h.context]
theorem State.OnlyPhases.cause {s t : State} (h : s.OnlyPhases t) (q : Nat) : (t.qp q).cause = (s.qp q).cause :=
  show { t.qp q with cmds := [] }.cause = _ by rw [h.context]
theorem State.OnlyPhases.opcodes {s t : State} (h : s.OnlyPhases t) (q : Nat) :
    (t.qp q).cmds.map (·.opcode) = (s.qp q).cmds.map (·.opcode) := congrArg (fun x => x.2.2.1) (h.1 q)
theorem State.OnlyPhases.subs {s t : State} (h : s.OnlyPhases t) (q : Nat) :
    (t.qp q).cmds.map (·.sub) = (s.qp q).cmds.map (·.sub) := congrArg (fun x => x.2.2.2) (h.1 q)
theorem State.OnlyPhases.rest {s t : State} (h : s.OnlyPhases t) :
    ∃ qps brl out, t = { s with link := { s.link with qps := qps }, brl := brl, out := out } := ⟨_, _, _, h.2⟩

theorem State.OnlyPhases.refl (s : State) : s.OnlyPhases s := ⟨fun _ => rfl, rfl⟩

theorem State.OnlyPhases.trans {s t u : State} (st : s.OnlyPhases t) (tu : t.OnlyPhases u) : s.OnlyPhases u := by
  refine ⟨fun p => (tu.1 p).trans (st.1 p), ?_⟩
  rw [tu.2, st.2]

theorem finishRaw_onlyPhases (q cid st : Nat) (r : W32) (vt : W64) (ql : Quality) (s : State) :
    s.OnlyPhases (finishRaw q cid st r vt ql s) := by
  refine ⟨fun p => ?_, rfl⟩
  rw [finishRaw, State.qp_setQp]
  split
  · next h =>
    have map {β : Type} (f : Cmd → β) (keep : ∀ (m : Cmd) ph, f { m with phase := ph } = f m) (l : List Cmd) (ph : Cmd → CmdPhase) :
        (l.map fun m => if m.cid == cid then { m with phase := ph m } else m).map f = l.map f := by
      rw [List.map_map]
      refine List.map_congr_left fun m _ => ?_
      dsimp only [Function.comp]
      split
      · exact keep ..
      · rfl
    rw [h]
    simp only [Qp.face, map Cmd.cid (fun _ _ => rfl), map Cmd.opcode (fun _ _ => rfl), map Cmd.sub (fun _ _ => rfl)]
  · rfl

theorem finish_onlyPhases (q cid st : Nat) (r : W32) (s : State) : s.OnlyPhases (finish q cid st r s) := by
  rw [finish, finishAt]
  split
  · exact ⟨fun _ => rfl, rfl⟩
  split
  · exact ⟨fun _ => rfl, rfl⟩
  · exact finishRaw_onlyPhases ..

theorem refuseUnknown_onlyPhases (q : Nat) (s : State) : s.OnlyPhases (refuseUnknown q s) := by
  have all (l : List Cmd) (s : State) : s.OnlyPhases (l.foldl (fun s m =>
      if m.phase == .fetched && (m.sub.tag == 0xFFFF || (opInfo m.opcode).isNone) then
        finish q m.cid (if m.sub.tag == 0xFFFF then Stat.invalidField else Stat.invalidOpcode) 0 s
      else s) s) := by
    induction l generalizing s with
    | nil => exact .refl s
    | cons m l ih =>
      refine .trans ?_ (ih _)
      dsimp only
      split
      · exact finish_onlyPhases ..
      · exact .refl s
  exact all _ s

/-! ### A completion posted, an overflow closed, a QP gone (R98, R103, R115) -/

/-- The context whose first command is posted. -/
def Qp.post (rest : List Cmd) (c : Qp) : Qp := { c with cmds := rest, owed := c.owed - 1 }

theorem postCompletion_of_done {q : Nat} {m : Cmd} {rest : List Cmd} {e : Cqe} {s : State} (active : (s.qp q).state = .active)
    (cmds : (s.qp q).cmds = m :: rest) (done : m.phase = .done e) (notReset : m.opcode ≠ 0x0008) :
    postCompletion q s = (writeCqe q e (endWrites (fun w cid => w == q && cid == m.cid) (s.setQp q (Qp.post rest)))).count
      (s.fnOf q) fun c => { c with cpls := c.cpls + 1 } := by
  have other : (m.opcode == 0x0008) = false := beq_eq_false_iff_ne.mpr notReset
  simp only [postCompletion, cmds, done, active, other, Bool.false_and, Bool.false_eq_true, if_false, beq_self_eq_true, if_true]
  rfl

theorem em_of_wide {s t : State} (h : t.wide = s.wide) : t.em = s.em := by
  simp only [State.wide, Prod.mk.injEq] at h
  obtain ⟨-, -, -, em, -⟩ := h
  exact em

theorem endWrites_of_one {who : Nat → Nat → Bool} {q cid key : Nat} {i : List Byte} {s : State}
    (one : s.em.writing = [(q, cid, key, i)]) (named : who q cid = true) :
    (endWrites who s).em = { putImage key i s.em with writing := [] } := by
  simp [endWrites, State.modEm, one, named]

/-- The context with its overflow closed. -/
def Qp.closeOverflow (c : Qp) : Qp := { c with overflow := false, dropCount := 0 }

theorem queueFullClose_eq (q : Nat) (s : State) : queueFullClose q s =
    (writeCqe q (queueFullEntry (s.qp q).dropCount (s.qp q).lastDrop (s.qp q).lastQual) (s.setQp q Qp.closeOverflow)).count
      (s.fnOf q) fun n => { n with unsol := n.unsol + 1 } := rfl

theorem State.bringTo_link (m : Nat) (s : State) : (s.bringTo m).link = s.link := rfl

theorem dropQp_frame (q : Nat) (s : State) : tabFind (dropQp q s).link.qps q = none ∧ (∀ b ∈ (dropQp q s).link.binds, b.2.qp ≠ q) ∧
    (∀ u ∈ (dropQp q s).link.posting, u.qp ≠ q) ∧ ∀ w ∈ (dropQp q s).em.writing, w.1 ≠ q := by
  refine ⟨tabFind_tabDel_same .., fun b hb => ?_, fun u hu => ?_, fun w hw => ?_⟩
  · simpa using (List.mem_filter.mp hb).2
  · simpa using (List.mem_filter.mp hu).2
  · simpa using (List.mem_filter.mp hw).2

/-- No stream posts to a QP that is gone (R426). -/
theorem dropQp_unbinds {q : Nat} (named : q ≠ 0xFFFFFFFF) (s : State) :
    ∀ x ∈ (dropQp q s).ports.streams, ∀ b n, x.2.ring ≠ some (b, n, q) := by
  intro x hx b n bound
  obtain ⟨y, -, rfl⟩ := List.mem_map.mp hx
  dsimp only at bound
  split at bound
  · next b' n' g ring =>
    split at bound
    · injection bound with bound
      injection bound with _ bound
      injection bound with _ bound
      exact named bound.symm
    · next other =>
      rw [ring] at bound
      injection bound with bound
      injection bound with _ bound
      injection bound with _ bound
      exact other (beq_iff_eq.mpr bound)
  · next ring => exact absurd (ring.symm.trans bound) (by simp)

/-- A deleting QP that owes nothing may go (R103). -/
theorem drained_of_done {c : Qp} (deleting : c.state = .deleting) (read : c.reading = 0)
    (all : ∀ m ∈ c.cmds, ∃ e, m.phase = .done e) :
    (c.state == .deleting && c.reading == 0 && c.cmds.all fun m => match m.phase with | .done _ => true | _ => false) = true := by
  have owed : (c.cmds.all fun m => match m.phase with | .done _ => true | _ => false) = true := by
    rw [List.all_eq_true]
    intro m hm
    obtain ⟨e, done⟩ := all m hm
    rw [done]
  rw [deleting, read, owed]
  rfl

theorem dropQp_eq (q : Nat) (s : State) : dropQp q s = { s with
    link := (dropQp q s).link, em := (dropQp q s).em, ports := { s.ports with streams := (dropQp q s).ports.streams } } := rfl

/-- Settles O9: each row by the lemma that gives its next state. -/
theorem fetchAndPostRows : Obligations.FetchAndPostRows := by
  refine ⟨fun s q n alive up next hn => ?_, fun s q reading active admin cto => ?_, fun s q data reading len => ?_,
    fun s q reading active admin => ?_, fun s q m rest e active loud cmds done notReset none => ?_,
    fun s q key m rest e i active loud cmds done notReset one => ?_, fun s q due alive hdue intr => ?_,
    fun s q active overflow held loud room => ?_, fun s q deleting read all noDeleter named => ?_,
    fun s q p cid deleting read all deleter => ?_⟩
  · refine Runs.of_act (show _ = execSqEntryFetch s from rfl) (by simp [alive, up]) ?_
    subst hn
    rw [fetchNext, next]
    exact fetchSq_frame q s
  · refine Runs.of_act (show _ = execSqReadTimeout q s from rfl) (by simp [reading, cto]) ?_
    have logged := tlpError_signals (e := .completionTimeout) s (by decide) (by decide)
    have active' : ((tlpError .completionTimeout s).qp q).state = .active := by rw [logged.qp, active]
    have admin' : (tlpError .completionTimeout s).isAdmin q = true := by rw [logged.isAdmin, admin]
    obtain ⟨qp, fn, aer, frame⟩ := fetchFailed_admin_frame 5 active' admin'
    rw [logged.fnOf, logged.fn] at fn
    rw [logged.qp] at qp
    rw [qp, fn, aer]
    refine ⟨rfl, rfl, rfl, rfl, rfl, rfl, logError_aer (.inl (by decide)) (by decide), ?_⟩
    rw [frame, logged.only]
  · refine Runs.of_act (show _ = act (decide (0 < (s.qp q).reading) && data.length == 64 * (s.qp q).reading)
      (fun s => refuseUnknown q (readDone q (.bytes data) s)) s from rfl) (by simp [reading, len]) ?_
    obtain ⟨read, state, opcodes, subs, rest⟩ := takeEntries_frame q (entriesOf data) (s.setQp q fun c => { c with reading := 0 })
    rw [State.qp_setQp_same] at read state opcodes subs
    have count : (entriesOf data).length = (s.qp q).reading := by rw [entriesOf_length, len]; omega
    rw [count] at rest
    have refused := refuseUnknown_onlyPhases q (takeEntries q (entriesOf data) (s.setQp q fun c => { c with reading := 0 }))
    refine ⟨(refused.reading q).trans read, (refused.state q).trans state, (refused.opcodes q).trans opcodes,
      (refused.subs q).trans subs, ?_⟩
    obtain ⟨qps, brl, out, made⟩ := refused.rest
    obtain ⟨link, taken⟩ : ∃ link, takeEntries q (entriesOf data) (s.setQp q fun c => { c with reading := 0 }) = { s with
        link := link, basut := { s.basut with nextCid := s.basut.nextCid + (s.qp q).reading } } := ⟨_, rest⟩
    rw [readDone, made, taken]
  · refine Runs.of_act (show _ = act (decide (0 < (s.qp q).reading) && true) (fun s => refuseUnknown q (readDone q .failed s)) s from rfl) (by simp [reading]) ?_
    obtain ⟨qp, -, -, frame⟩ := fetchFailed_admin_frame 4 active admin
    have refused := refuseUnknown_onlyPhases q (fetchFailed q 4 s)
    refine ⟨(refused.state q).trans (by rw [qp]), (refused.cause q).trans (by rw [qp]), (refused.reading q).trans (by rw [qp]), ?_⟩
    obtain ⟨qps, brl, out, made⟩ := refused.rest
    obtain ⟨link, out', failed⟩ : ∃ link out', fetchFailed q 4 s = { s with link := link, out := out' } := ⟨_, _, frame⟩
    rw [readDone, made, failed]
  · refine Runs.of_act (show _ = execCompletionPost q s from rfl) (by simp [loud]) ?_
    have idle : endWrites (fun w cid => w == q && cid == m.cid) (s.setQp q (Qp.post rest)) = s.setQp q (Qp.post rest) :=
      endWrites_of_none fun w hw => by simpa using none w hw
    have posted := postCompletion_of_done active cmds done notReset
    rw [idle] at posted
    obtain ⟨⟨since, due, qp⟩, others⟩ := writeCqe_qp q e (s.setQp q (Qp.post rest))
    have written := writeCqe_out q e (s.setQp q (Qp.post rest))
    rw [State.qp_setQp_same] at qp written
    rw [posted, State.qp_count, qp]
    refine ⟨rfl, rfl, rfl, rfl, written, fun p hp => ?_, ?_⟩
    · rw [State.qp_count, others p hp, State.qp_setQp_ne s _ hp]
    · rw [State.count_wide, writeCqe_wide, State.setQp_wide]
  · refine Runs.of_act (show _ = execCompletionPost q s from rfl) (by simp [loud]) ?_
    rw [postCompletion_of_done active cmds done notReset]
    refine (em_of_wide (writeCqe_wide ..)).trans ?_
    exact endWrites_of_one (s := s.setQp q (Qp.post rest)) one (by simp)
  · refine Runs.of_act (show _ = execModerationTimerExpiry q s from rfl) alive ?_
    have same : (s.bringTo due).qp q = s.qp q := rfl
    have expired : ((s.bringTo due).setQp q fun c => { c with since := 0, modDue := none }).qp q =
        { s.qp q with since := 0, modDue := none } := by rw [State.qp_setQp_same, same]
    simp only [moderationExpire, hdue]
    rw [expired, if_pos intr, (State.Signals.sendMsix ..).qp, expired]
    exact ⟨rfl, rfl⟩
  · refine Runs.of_act (show _ = execQueueFullClose q s from rfl) (by simp [active, overflow, held, loud, room]) ?_
    obtain ⟨⟨since, due, qp⟩, others⟩ := writeCqe_qp q
      (queueFullEntry (s.qp q).dropCount (s.qp q).lastDrop (s.qp q).lastQual) (s.setQp q Qp.closeOverflow)
    have written := writeCqe_out q
      (queueFullEntry (s.qp q).dropCount (s.qp q).lastDrop (s.qp q).lastQual) (s.setQp q Qp.closeOverflow)
    rw [State.qp_setQp_same] at qp written
    rw [queueFullClose_eq, State.qp_count, qp]
    refine ⟨rfl, rfl, written, fun p hp => ?_, ?_⟩
    · rw [State.qp_count, others p hp, State.qp_setQp_ne s _ hp]
    · rw [State.count_wide, writeCqe_wide, State.setQp_wide]
  · refine Runs.of_act (show _ = execQpDeleteComplete q s from rfl) (drained_of_done deleting read all) ?_
    obtain ⟨gone, binds, posting, writing⟩ := dropQp_frame q s
    have unbound := dropQp_unbinds named s
    unfold deleteDone
    dsimp only
    rw [noDeleter]
    dsimp only
    split
    · exact ⟨gone, binds, posting, writing, unbound, rfl⟩
    · exact ⟨gone, binds, posting, writing, unbound, dropQp_eq q s⟩
  · refine Runs.of_act (show _ = execQpDeleteComplete q s from rfl) (drained_of_done deleting read all) ⟨_, _, rfl, rfl, ?_⟩
    unfold deleteDone
    dsimp only
    rw [deleter]
    dsimp only
    split
    · exact .inr rfl
    · exact .inl rfl

end Sys2Proof.Machine
end

section
/-! PROOFS. Host commands taken in their turn (R114, R117, R555). -/
namespace Sys2Proof.Machine

namespace Taken
variable {op q : Nat} {sub : Sub} {s : State} {cid : Nat} {u : State} (h : Taken op q sub s cid u)
include h

theorem basut_eq (body : Body) : basut op q sub body s = body q cid sub u := by
  simp only [basut, h.claimed, perform, h.passed, h.alone, Bool.false_eq_true, if_false]

/-- A row without host data, taken, runs its body. -/
theorem runs {c : Instr} {body : Body} {P : State → Prop} (e : exec c s = runBasut op q sub body s) (hp : P (body q cid sub u)) :
    Runs c s P :=
  Runs.of_act e h.up (by rwa [h.basut_eq])

/-- A row with host data that fits, taken, runs its body. -/
theorem runs_data {c : Instr} {body : Body} {P : State → Prop} {d : List Byte}
    (e : exec c s = act (basutUp q s && dataFits op sub (some d)) (basut op q sub body) s) (len : d.length = argLen op sub)
    (hp : P (body q cid sub u)) : Runs c s P := by
  refine Runs.of_act e ?_ (by rwa [h.basut_eq])
  rw [h.up, dataFits, len, beq_self_eq_true, Bool.and_self]

/-- The command of a QP of this device is no forwarded one. -/
theorem notCube : q ≠ cubeQp := by
  have up := h.up
  simp only [basutUp, Bool.and_eq_true, decide_eq_true_eq] at up
  have lt := up.2
  rintro rfl
  exact absurd lt (by decide)

theorem writeHost_eq (buf : Nat) (bytes : List Byte) (v : State) :
    writeHost q buf bytes v = v.emit (.hostWrite (w64 buf) bytes (v.fn (v.fnOf q)).relaxed) := by
  rw [writeHost, if_neg (by simpa using h.notCube)]

/-- A record that fits is written and completes with its length (R113, R115). -/
theorem answerBytes_fits (op' : Nat) {bytes : List Byte} (v : State) (fits : bytes.length ≤ argLen op' sub) :
    answerBytes op' q cid sub bytes v = finish q cid 0 (w32 bytes.length)
      (v.emit (.hostWrite (w64 (argBuf op' sub)) bytes (v.fn (v.fnOf q)).relaxed)) := by
  rw [answerBytes, if_neg (by omega), succeed, h.writeHost_eq]

end Taken

/-! ### Capo commands wait (R117) -/

/-- A capo command past its checks waits. -/
theorem acceptCapo_waits {sub : Sub} {u : State} (may : MayWait sub u) (cmd : Instr) (q cid : Nat) :
    Waits cmd q cid sub u (acceptCapo cmd q cid sub u) := by
  obtain ⟨-, inTime⟩ := may
  have meets : ¬ ((strictCapo sub && (if atCapo sub then sub.stroke.toNat else 0) != 0) &&
      decide ((if atCapo sub then sub.stroke.toNat else 0) < firstMeet (onCube sub) u)) = true := by
    cases strict : strictCapo sub
    · simp
    · cases named : atCapo sub
      · simp
      · rcases inTime strict named with zero | meets
        · simp [zero]
        · simp [meets]
  unfold acceptCapo
  dsimp only
  rw [if_neg meets]
  rfl

theorem capoBody_waits {sub : Sub} {u : State} (may : MayWait sub u) (cmd : Instr) (q cid : Nat) {check : Sub → State → Nat}
    (pass : check sub u = 0) : Waits cmd q cid sub u (capoBody cmd check q cid sub u) := by
  have near : tooFar sub u = false := may.1
  simp only [capoBody, near, pass, Bool.false_eq_true, if_false]
  exact acceptCapo_waits may cmd q cid

theorem withData_some (d : List Byte) (f : List Byte → Body) (q cid : Nat) (sub : Sub) (s : State) :
    withData (some d) f q cid sub s = f d q cid sub s := rfl

/-- Settles O10: every row's body is `capoBody`, or checks its data and then is. -/
theorem capoRowsWait : Obligations.CapoRowsWait := by
  intro q sub s cid u may
  have waits {check : Sub → State → Nat} (cmd : Instr) (pass : check sub u = 0) :
      Waits cmd q cid sub u (capoBody cmd check q cid sub u) := capoBody_waits may cmd q cid pass
  refine ⟨fun t pass => t.runs rfl (waits _ pass), fun t pass => t.runs rfl (waits _ pass), fun t pass => t.runs rfl (waits _ pass),
    fun t pass => t.runs rfl (waits _ pass), fun t le => t.runs rfl (waits _ (if_neg (Nat.not_lt.mpr le))),
    fun t le => t.runs rfl (waits _ (if_neg (Nat.not_lt.mpr le))), fun t lo hi four => t.runs rfl (waits _ ?_),
    fun t le => t.runs rfl (waits _ (if_neg (Nat.not_lt.mpr le))), fun t pass => t.runs rfl (waits _ pass),
    fun img t len => t.runs_data rfl len ⟨fun ok => ?_, fun bad => ?_⟩, fun t pass => t.runs rfl (waits _ pass),
    fun t hc hp => t.runs rfl (waits _ ?_), fun d t len port lenOk cfg => t.runs_data rfl len ?_, fun t pass => t.runs rfl (waits _ pass),
    fun t pass => t.runs rfl (waits _ pass), fun d t len port whole short rules => t.runs_data rfl len ?_,
    fun d t len lo hi whole ok => t.runs_data rfl len ?_, fun d t len argl timer => t.runs_data rfl (len.trans argl.symm) ?_,
    fun t a b => t.runs rfl (waits _ ?_), fun t pass => t.runs rfl (waits _ pass), fun t impl => t.runs rfl (waits _ (if_pos impl)),
    fun t lt => t.runs rfl (waits _ (if_pos lt)), fun t a b => t.runs rfl (waits _ ?_), fun t lt => t.runs rfl (waits _ (if_pos lt)),
    fun t pass => t.runs rfl (waits _ pass)⟩
  · have hi : arg 0x0203 0 sub < 10000001 := by omega
    simp [checkStrokeSet, inRange, lo, four, hi]
  · unfold bodyUcodeLoad
    dsimp only
    split
    · exact waits _ rfl
    · next bad => exact absurd ok bad
  · unfold bodyUcodeLoad
    dsimp only
    split
    · next zero => exact absurd zero bad
    · rfl
  · simp [checkLgsClass, hc, hp]
  · unfold bodyPortConfig
    dsimp only
    rw [if_neg (by simp [← len, lenOk, port])]
    rw [withData_some]
    refine waits _ ?_
    exact if_pos cfg
  · unfold bodyLidarRules
    dsimp only
    rw [if_neg (by simp [← len, whole, short, port])]
    rw [withData_some]
    refine waits _ ?_
    exact if_pos rules
  · unfold bodySenConfig
    dsimp only
    have hi : d.length < 4097 := by omega
    rw [if_neg (by simp [← len, whole, inRange, lo, hi])]
    rw [withData_some]
    refine waits _ ?_
    exact if_pos ok
  · unfold bodyTmrConfig
    rw [if_neg (by simp [argl, timer]), withData_some]
    refine waits _ ?_
    rfl
  · simp [checkTmrStart, a, b]
  · simp [checkReinstate, a, b]

end Sys2Proof.Machine
end

section
/-! PROOFS. Commands that write a record to the host buffer (R113, R115, R126, R128). -/
namespace Sys2Proof.Machine

/-! ### Lengths of records -/

@[simp] theorem leBytes_length (n v : Nat) : (leBytes n v).length = n := by
  induction n generalizing v with
  | zero => rfl
  | succ n ih => rw [leBytes, List.length_cons, ih]

theorem fieldBytes_length (l : List (Nat × Nat)) : (fieldBytes l).length = (l.map (·.1)).sum := by
  induction l with
  | nil => rfl
  | cons p l ih =>
    obtain ⟨n, x⟩ := p
    rw [fieldBytes, List.length_append, leBytes_length, ih, List.map_cons, List.sum_cons]

theorem identifyBytes_length (v : Nat) (s : State) : (identifyBytes v s).length = 4096 := by
  have words : (identWords v s).length = 64 := by
    rw [identWords, List.length_flatMap]
    simp only [leBytes_length]
    rfl
  have fields : (fieldBytes (identFields v s)).length = 64 := by
    rw [fieldBytes_length]
    simp only [identFields, List.map_cons, List.map_nil, List.sum_cons, List.sum_nil, Nat.add_zero, Nat.reduceAdd]
  simp only [identifyBytes, List.length_append, words, fields, zeroBytes, List.length_replicate, List.length_map, List.length_range,
    List.length_cons, List.length_nil]

theorem ctxBytes_length (c : Qp) : (ctxBytes c).length = 64 := by
  simp [ctxBytes, fieldBytes_length, ctxFields]

theorem lifeBytes_length (s : State) : (lifeBytes s).length = 64 := by
  simp only [lifeBytes, List.length_append, leBytes_length]

theorem portStatusBytes_length (ty p : Nat) (s : State) : (portStatusBytes ty p s).length = 64 := by
  simp [portStatusBytes, List.length_flatten, Function.comp_def]

theorem ptmFit_ne_nil {len : Nat} {s : State} (room : 32 ≤ len) (some' : s.time.ptmRecs ≠ []) : (ptmFit len s).isEmpty = false := by
  obtain ⟨r, rs, recs⟩ := List.exists_cons_of_ne_nil some'
  obtain ⟨k, hk⟩ : ∃ k, len / 32 = k + 1 := ⟨len / 32 - 1, by omega⟩
  rw [ptmFit, recs, hk]
  rfl

/-! ### The records' rows -/

theorem readLost_of_kept {a : ReadAns} (h : a.lost = false) (s : State) : readLost a s = s := by
  rw [readLost, if_neg (by simp [h])]

theorem cubeDevice_link (d : Nat) (s : State) : (cubeDevice d s).2.link = s.link := by
  unfold cubeDevice
  dsimp only
  split
  · rfl
  split
  · rfl
  · rfl

theorem cubeBytes_link (s : State) : (cubeBytes s).2.link = s.link := by
  refine List.foldlRecOn (motive := fun (acc : List Byte × State) => acc.2.link = s.link) (List.range 8) _ rfl fun acc h d _ => ?_
  exact (cubeDevice_link d acc.2).trans h

/-- Settles O11: each body by the record it writes. -/
theorem recordRows : Obligations.RecordRows := by
  intro q sub s cid u
  refine ⟨fun t => ⟨identifyBytes_length _ u, fun fits => t.runs rfl ?_⟩, fun t short => t.runs rfl ?_,
    fun g t live => ⟨ctxBytes_length _, t.runs rfl ?_⟩, fun t room recs => t.runs rfl ?_, fun t fits => t.runs rfl ?_,
    fun t fits => t.runs rfl ?_, fun t some' kept => t.runs rfl ?_, fun t room => ⟨lifeBytes_length u, t.runs rfl ?_⟩,
    fun t port room => ⟨portStatusBytes_length _ _ u, t.runs rfl ?_⟩, fun t room held => t.runs rfl ?_, fun t fits => t.runs rfl ?_,
    fun t room => t.runs rfl ?_, fun t left fits => t.runs rfl ?_, fun t none fits => t.runs rfl ?_,
    fun t groups near room => t.runs rfl ?_⟩
  · rw [bodyIdentify, t.answerBytes_fits _ _ (by rw [identifyBytes_length]; exact fits), identifyBytes_length]
    rfl
  · rw [bodyIdentify, answerBytes, identifyBytes_length, if_pos short]
    rfl
  · simp only [bodyQpQuery, live, t.writeHost_eq]
    rfl
  · have some' := ptmFit_ne_nil room recs
    simp only [bodyPtmCorrelate, if_neg (Nat.not_lt.mpr room), some', Bool.false_eq_true, if_false, t.writeHost_eq]
    rfl
  · exact t.answerBytes_fits _ _ fits
  · exact t.answerBytes_fits _ _ fits
  · have some'' : (readLog sub u).bytes.isEmpty = false := by simpa using some'
    simp only [bodyLgsRead, some'', Bool.false_eq_true, if_false, readLost_of_kept kept, t.writeHost_eq]
  · simp only [bodyLgsLife, if_neg (Nat.not_lt.mpr room), t.writeHost_eq]
    rfl
  · simp only [bodyPortStatus, if_neg (Nat.not_le.mpr port)]
    rw [t.answerBytes_fits _ _ (by rw [portStatusBytes_length]; exact room), portStatusBytes_length]
    rfl
  · have some' : ((journalHeld u.fcu).take (argLen 0x0703 sub / 32)).isEmpty = false := by
      obtain ⟨e, es, es'⟩ := List.exists_cons_of_ne_nil held
      obtain ⟨k, hk⟩ : ∃ k, argLen 0x0703 sub / 32 = k + 1 := ⟨argLen 0x0703 sub / 32 - 1, by omega⟩
      rw [es', hk]
      rfl
    simp only [bodyFjRead, if_neg (Nat.not_lt.mpr room), some', Bool.false_eq_true, if_false, t.writeHost_eq, List.length_take]
    rfl
  · exact t.answerBytes_fits _ _ fits
  · simp only [bodyCubeStatus, if_neg (Nat.not_lt.mpr room), t.writeHost_eq, State.fn, State.fnOf, cubeBytes_link]
    rfl
  · have some' : (u.em.hssLeft == 0) = false := beq_eq_false_iff_ne.mpr left
    simp only [bodyAttest, if_neg (Nat.not_lt.mpr fits), some', Bool.false_eq_true, if_false, t.writeHost_eq]
    rfl
  · simp only [bodyAttest, if_neg (Nat.not_lt.mpr fits), none, beq_self_eq_true, if_true]
    rfl
  · have some' : (arg 0x0001 2 sub == 0) = false := beq_eq_false_iff_ne.mpr groups
    have own : (q == cubeQp) = false := beq_eq_false_iff_ne.mpr t.notCube
    have one : snapBlocks sub u = 1 := by simp [snapBlocks, t.alone]
    simp only [bodySnapshot, some', near, one, own, t.alone, Nat.mul_one, decide_eq_false (Nat.not_lt.mpr room), Bool.or_false,
      Bool.and_false, Bool.false_eq_true, if_false, bne]
    rfl

end Sys2Proof.Machine
end

section
/-! PROOFS. QP_DELETE of a QP that another claim waits for, and the immediate commands (R103, R123, R124, R184, R189, R460,
R469, R509, R512, R522, R523, R529, R554). -/
namespace Sys2Proof.Machine

/-! ### A QP that already carries a claim -/

/-- QP_DELETE of local QP 2. -/
def deleteSub : Sub := { params := 2 }

/-- A device in RUN whose QP 1 has fetched that command, and whose QP 2, active, carries the claim of command 9 of QP 5. -/
def claimedQp : State :=
  { pins := { porstN := true }
    boot := { held := false, readyMap := 0xFFFFF }
    link := { up := true
              qps := [(1, { state := .active, cmds := [{ cid := 0, opcode := 0x0004, sub := deleteSub }] }),
                (2, { state := .active, deleter := some (5, 9) })] } }

theorem claimedQp_taken : Taken 0x0004 1 deleteSub claimedQp 0 (setPhase 1 0 .started claimedQp) where
  up := by decide
  claimed := by decide +kernel
  passed := by decide
  alone := by decide

theorem bodyQpDelete_starts {q cid g : Nat} {sub : Sub} {u : State} (local' : arg 0x0004 0 sub ≠ 0)
    (own : ownQp q (arg 0x0004 0 sub) u ≠ some q) (live : liveQp q (arg 0x0004 0 sub) u = some g) (busy : (u.qp g).state ≠ .deleting) :
    bodyQpDelete q cid sub u = startDelete (some (q, cid)) g u := by
  have mayGo : (arg 0x0004 0 sub == 0 || ownQp q (arg 0x0004 0 sub) u == some q) = false := by simp [local', own]
  have idle : ((u.qp g).state == .deleting) = false := beq_eq_false_iff_ne.mpr busy
  simp only [bodyQpDelete, mayGo, live, idle, Bool.false_eq_true, if_false]

/-- Refutes O12: in `claimedQp` QP 2 is ACTIVE and carries a claim; `startDelete` keeps that claim, so after a QP_DELETE by
command 0 of QP 1 the deleter of QP 2 is not (1, 0). The statement leaves out that an ACTIVE QP carries no claim. -/
theorem not_queueCommandRows : ¬ Obligations.QueueCommandRows := by
  intro h
  obtain ⟨-, delete, -⟩ := h 1 deleteSub claimedQp 0 (setPhase 1 0 .started claimedQp) 2
  obtain ⟨t, run, -, claim, -⟩ := delete claimedQp_taken (by decide) (by decide) (by decide) (by decide)
  have runs : exec (.qpDelete 1 deleteSub) claimedQp = .next (startDelete (some (1, 0)) 2 (setPhase 1 0 .started claimedQp)) := by
    rw [show exec (.qpDelete 1 deleteSub) claimedQp = runBasut 0x0004 1 deleteSub bodyQpDelete claimedQp from rfl, runBasut,
      act_true claimedQp_taken.up, claimedQp_taken.basut_eq,
      bodyQpDelete_starts (g := 2) (by decide) (by decide) (by decide) (by decide)]
  rw [runs] at run
  injection run with run
  rw [← run] at claim
  exact absurd claim (by decide +kernel)

/-! ### Immediate commands -/

theorem openTrigger_id (t : W64) (pre post cls src : Nat) (s : State) : (openTrigger t pre post cls src s).1 = s.lgs.nextTrig := rfl

/-- A system record enters the urgent queue or waits, and `enterSys` changes nothing outside the log store. -/
theorem enterSys_lgs (r : LogRec) (s : State) :
    if s.lgs.sysWait = [] ∧ s.lgs.fill + recSize r ≤ qMax then (enterSys r s).lgs.urgent = s.lgs.urgent ++ [r]
    else (enterSys r s).lgs.sysWait = s.lgs.sysWait ++ [r] := by
  have same : (s.lgs.sysWait.isEmpty && decide (s.lgs.fill + recSize r ≤ qMax)) = true ↔
      s.lgs.sysWait = [] ∧ s.lgs.fill + recSize r ≤ qMax := by simp
  unfold enterSys
  by_cases h : s.lgs.sysWait = [] ∧ s.lgs.fill + recSize r ≤ qMax
  · rw [if_pos h, if_pos (same.mpr h)]
    rfl
  · rw [if_neg h, if_neg (fun c => h (same.mp c))]
    rfl

theorem enterSys_fcu (r : LogRec) (s : State) : (enterSys r s).fcu = s.fcu := by
  unfold enterSys
  split <;> rfl

/-- The SEAL record stands last in the queue it enters (R469). -/
theorem doSeal_record (waiter : Option (Nat × Nat)) (s : State) : ∃ r l,
    ((doSeal waiter s).lgs.urgent = l ++ [r] ∨ (doSeal waiter s).lgs.sysWait = l ++ [r]) ∧ r.kind = 5 ∧ r.waiter = waiter := by
  obtain ⟨r, u, sealed, kind, waits⟩ : ∃ r u, doSeal waiter s = enterSys r u ∧ r.kind = 5 ∧ r.waiter = waiter :=
    ⟨_, _, rfl, rfl, rfl⟩
  have entered := enterSys_lgs r u
  rw [sealed]
  split at entered
  · exact ⟨r, _, .inl entered, kind, waits⟩
  · exact ⟨r, _, .inr entered, kind, waits⟩

theorem journal_frec (typ src sev : Nat) (inj : Bool) (merges : Nat) (vt info : W64) (unit : W16) (s : State) (id : Nat) :
    (journal typ src sev inj merges vt info unit s).frec id = s.frec id := rfl

/-- Settles O13: each body past its own checks. -/
theorem immediateCommandRows : Obligations.ImmediateCommandRows := by
  intro q sub s cid u
  refine ⟨fun d p t len slot ok idle => t.runs_data rfl len ?_, fun d v t range force read hv room => t.runs rfl ?_,
    fun e t he course phys on built => t.runs rfl ?_, fun t post pre cls few => t.runs rfl ⟨_, rfl, ?_⟩,
    fun t => t.runs rfl ⟨rfl, doSeal_record ..⟩, fun t live => t.runs rfl ?_, fun t safe => t.runs rfl ⟨_, rfl, ?_⟩,
    fun t impl sev free => t.runs rfl ⟨_, rfl, ?_, ?_⟩, fun t impl isOpen cause => t.runs rfl ?_,
    fun t impl how sym => t.runs rfl ?_, fun k t impl how inst lo hi none => t.runs rfl ?_, fun t cls pol => t.runs rfl ?_,
    fun img t len target => t.runs_data rfl len ⟨fun ok => ?_, fun e ne bad => ?_⟩, fun t lo hi key below image => t.runs rfl ?_,
    fun t slot key other => t.runs rfl ?_⟩
  · have ok' : checkPlan d (argLen 0x0200 sub) = .ok p := len ▸ ok
    have free : (u.stroke.active == some (arg 0x0200 2 sub)) = false := beq_eq_false_iff_ne.mpr idle
    simp only [bodyPlanLoad, if_neg (Nat.not_lt.mpr slot), withData_some, ok', free, Bool.false_eq_true, if_false]
    rfl
  · simp only [bodyJobSubmit, range, force, read, hv, addJob, room, Bool.not_true, Bool.false_eq_true, if_false]
    rfl
  · have off : ((u.engine e).st == .off || (u.engine e).st == .bist) = false := by simp [on, built]
    subst he
    have place : (decide (16 ≤ arg 0x0303 0 sub) || decide (13 ≤ arg 0x0303 1 sub)) = false := by
      simpa using ⟨course, phys⟩
    simp only [bodyEngineReset, place, off, Bool.false_eq_true, if_false]
    rfl
  · have range : trigRangeOk (arg 0x0401 0 sub) (arg 0x0401 1 sub) (arg 0x0401 2 sub) = true := by
      simp only [trigRangeOk, Bool.and_eq_true, decide_eq_true_eq]
      exact ⟨⟨post, pre⟩, cls⟩
    simp only [bodyLgsTrigger, range, if_neg (Nat.not_le.mpr few), openTrigger_id, Bool.not_true, Bool.false_eq_true, if_false]
    rfl
  · obtain ⟨r, exported, kind, waits⟩ : ∃ r, bodyFjExport q cid sub u = (enterSys r u).modFcu (fun f => { f with exp := f.head }) ∧
        r.kind = 4 ∧ r.waiter = some (q, cid) := by
      simp only [bodyFjExport, fjExport, live, Bool.false_eq_true, if_false]
      exact ⟨_, rfl, rfl, rfl⟩
    rw [exported]
    refine ⟨?_, r, kind, waits, enterSys_lgs r u⟩
    rw [State.modFcu_fcu, enterSys_fcu]
  · simp only [bodyFjExport, fjExport, safe, if_true]
    rfl
  · rw [State.sevOf, free, if_neg Bool.false_ne_true]
    exact tabGet_tabSet_same ..
  · simp only [bodyFcuSeverity, impl, free, if_neg (Nat.not_lt.mpr sev), Bool.not_true, Bool.false_eq_true, if_false]
    rfl
  · simp only [bodyFcuClear, impl, closeFault, isOpen, cause, Bool.not_true, Bool.false_eq_true, if_false]
    refine ⟨_, ?_, ?_, rfl⟩
    · rw [journal_frec, setRec_frec_same]
    · rfl
  · simp only [bodyFcuInject, impl, how, sym, Bool.not_true, Bool.false_eq_true, if_false]
    rfl
  · have mask : maskOk (arg 0x0704 2 sub) = true := by
      unfold maskOk
      rw [List.contains_iff_mem]
      generalize arg 0x0704 2 sub = m at lo hi
      interval_cases m <;> decide
    have armed : injectMemory (arg 0x0704 1 sub) (arg 0x0704 0 sub) (arg 0x0704 2 sub) q cid u = succeed q cid 0
        (u.setEcc k fun r => { r with armed := some (arg 0x0704 1 sub, arg 0x0704 2 sub) }) := by
      simp only [injectMemory, inst, mask, none, Bool.not_true, Bool.false_eq_true, if_false, Option.isSome_none]
    have body : bodyFcuInject q cid sub u = injectMemory (arg 0x0704 1 sub) (arg 0x0704 0 sub) (arg 0x0704 2 sub) q cid u := by
      rcases Nat.le_one_iff_eq_zero_or_eq_one.mp how with h | h
      · simp only [bodyFcuInject, impl, h, Bool.not_true, Bool.false_eq_true, if_false]
      · simp only [bodyFcuInject, impl, h, Bool.not_true, Bool.false_eq_true, if_false]
    rw [body, armed]
    refine ⟨_, ?_, fun j other => State.ecc_setEcc_ne u _ other, rfl, rfl⟩
    rw [State.ecc_setEcc_same]
  · have range : (decide (8 < arg 0x0805 0 sub) || decide (2 < arg 0x0805 1 sub)) = false := by
      simp only [Bool.or_eq_false_iff, decide_eq_false_iff_not]
      omega
    have keeps : (arg 0x0805 1 sub == 2) = false := beq_eq_false_iff_ne.mpr (by omega)
    simp only [bodySparePolicy, range, setPolicy, keeps, Bool.false_eq_true, if_false]
    rfl
  · simp only [bodyImageUpdate, if_neg (Nat.not_lt.mpr target)]
    split
    · rfl
    · next bad => exact absurd ok bad
  · simp only [bodyImageUpdate, if_neg (Nat.not_lt.mpr target)]
    split
    · next zero => exact absurd (bad.symm.trans zero) ne
    · rw [bad]
  · have range : (!inRange (arg 0x0901 0 sub) 1 5 || arg 0x0901 2 sub != 0x5A17 ||
        decide (arg 0x0901 1 sub ≤ ((u.fuses.floors.toList[arg 0x0901 0 sub]?).getD 0).toNat) ||
        !imageAtFloor (arg 0x0901 0 sub) (arg 0x0901 1 sub) u) = false := by
      have hi : arg 0x0901 0 sub < 5 := by omega
      rw [decide_eq_false (Nat.not_le.mpr below)]
      simp [inRange, lo, hi, key, image]
    simp only [bodySvnRaise, range, Bool.false_eq_true, if_false]
    rfl
  · have range : (decide (4 ≤ arg 0x0902 0 sub) || arg 0x0902 1 sub != 0x5A17 || arg 0x0902 0 sub == u.boot.fwKey) = false := by
      simp [slot, key, other]
    simp only [bodyKeyRevoke, range, Bool.false_eq_true, if_false]
    refine ⟨u.modFuses (revokeKey (arg 0x0902 0 sub)), rfl, fun k => ?_, rfl, rfl⟩
    rw [State.modFuses_fuses, revokeKey, getLsbD_putBit _ _ _ _ slot]
    by_cases h : k = arg 0x0902 0 sub <;> simp [h]

end Sys2Proof.Machine
end

section
/-! PROOFS. The change of each capo command (R117, R118, R123, R139, R140, R143, R159, R161, R173, R179, R185, R191, R196, R408,
R418, R426, R429, R433, R438, R441, R453, R457, R490, R499, R530, R538, R540). -/
namespace Sys2Proof.Machine

theorem bindStream_frame (id : Nat) (ring : Nat × Nat × Nat) (owner : Nat) (s : State) : ∃ h t,
    bindStream id ring owner s = (.done 0 h, t) ∧ (t.stream id).ring = some ring ∧ (t.stream id).handle = h ∧
      (t.stream id).owner = owner ∧ t = { s with ports := t.ports } := by
  refine ⟨_, _, rfl, ?_⟩
  set fresh := (s.stream id).ring.isNone
  set h := if fresh then s.ports.nextHandle else (s.stream id).handle
  have bound : (s.setStream id fun x => { x with ring := some ring, pos := 0, seq := 0, handle := h, owner, refused := none }).stream id =
      { s.stream id with ring := some ring, pos := 0, seq := 0, handle := h, owner, refused := none } :=
    State.stream_setStream_same ..
  split
  · exact ⟨congrArg IngStream.ring bound, congrArg IngStream.handle bound, congrArg IngStream.owner bound, rfl⟩
  · exact ⟨congrArg IngStream.ring bound, congrArg IngStream.handle bound, congrArg IngStream.owner bound, rfl⟩

theorem setRun_run_same (k : Nat) (on : Bool) (s : State) : ((setRun k on s).timer k).run = on := by
  rw [setRun, State.timer_setTimer_same]

theorem setRun_run_ne {k j : Nat} (h : j ≠ k) (on : Bool) (s : State) : ((setRun k on s).timer j).run = (s.timer j).run := by
  rw [setRun, State.timer_setTimer_ne s _ h]

/-- TMR_START sets run of every timer it names. -/
theorem startTimers_run {sub : Sub} {k : Nat} (hk : k < 160) (named : startsTimer sub k = true) (s : State) :
    ((((List.range 160).foldl (fun s t => if startsTimer sub t then setRun t true s else s) s)).timer k).run = true := by
  refine foldl_establishes (I := fun _ => True) (P := fun s => (s.timer k).run = true) (fun _ _ _ => trivial) (fun s t h => ?_)
    (fun s _ => ?_) (List.mem_range.mpr hk) trivial
  · split
    · by_cases e : k = t
      · rw [e, setRun_run_same]
      · rw [setRun_run_ne e, h]
    · exact h
  · rw [if_pos named, setRun_run_same]

theorem applyUcodeLoad_of_free {img : Option (List Byte)} {sub : Sub} {s : State}
    (free : ∀ e ∈ allEngines, freePatchBank (s.engine e).su ≠ none) : ∃ n v,
    applyUcodeLoad img sub s = (.done 0 n, setReady Rdy.plan (setReady Rdy.ucode v)) ∧
      v.boot.patch = img.map (fun i => patchOf (imgPayload i)) ∧ v.boot.patchOk = true := by
  have none : (allEngines.any fun e => (freePatchBank (s.engine e).su).isNone) = false := by
    rw [List.any_eq_false]
    intro e he
    simpa using free e he
  simp only [applyUcodeLoad, none, Bool.false_eq_true, if_false]
  exact ⟨_, _, rfl, rfl, rfl⟩

theorem mem_setAdd (l : List Nat) (x : Nat) : x ∈ setAdd l x := by
  induction l with
  | nil => simp [setAdd]
  | cons y ys ih =>
    unfold setAdd
    split
    · exact List.mem_cons_self
    split
    · next h => exact List.mem_cons.mpr (.inl (by simpa using h))
    · exact List.mem_cons_of_mem _ ih

/-- Retiring an engine that holds no slot takes it out at once (R530). -/
theorem retireUnit_free {n : Nat} {w : Option (Nat × Nat)} {s : State} (inService : s.unitOut 0 n = false) (held : seqHolds s 0 n = false)
    (powered : coursePowered s (engOf n).course = true) (free : s.slotOf (engOf n) = none) (unproposed : proposalOf s 0 n = none) :
    retireUnit 0 n none w s = (.done 0, markOut 0 n true (s.setEngine (engOf n) fun x => { x with st := .retired })) := by
  simp only [retireUnit, unproposed, inService, held, powered, free, setSlot, Bool.or_self, Bool.and_false, Bool.not_true,
    Bool.false_eq_true, if_false, Nat.zero_lt_succ, if_true]

theorem reinstateUnit_pegbox {n : Nat} {w : Option (Nat × Nat)} {s : State} (out : s.unitOut 3 n = true) (held : seqHolds s 3 n = false) :
    reinstateUnit 3 n w s = (.wait, addSeq { cls := 3, out := 1 - n, inc := n, reinst := true, waiter := w } s) := by
  simp only [reinstateUnit, out, held, Bool.not_true, Bool.or_self, Bool.false_eq_true, if_false]
  rfl

theorem applyItem_of {i : CapoItem} {c : Instr} (h : i.cmd = c) : applyItem i = applyItem { i with cmd := c } := by
  rw [← h]

/-- Settles O57: each command's change by its own checks. -/
theorem capoChanges : Obligations.CapoChanges := by
  intro s i q sub
  refine ⟨fun h ok => ?_, fun h => ?_, fun h ok => ?_, fun h => ?_, fun h => ⟨fun none => ?_, fun p hp prof per mask => ?_⟩,
    fun h => ⟨fun busy => ?_, fun ready short => ?_, fun ready long => ?_⟩, fun h => ⟨fun short => ?_, fun long new => ?_⟩, fun h => ?_,
    fun h => ⟨fun st bad => ?_, fun g ok => ?_⟩, fun img h => ⟨fun held => ?_, fun free => ?_⟩,
    fun h => ⟨fun one => ?_, fun zero clash => ?_, fun zero ok => ?_⟩, fun h => ?_, fun d h => ?_, fun h => ?_, fun h => ?_,
    fun d h => ?_, fun d h => ?_, fun d h => ?_, fun h => ?_, fun h => ⟨fun room => ?_, fun fresh full => ?_⟩,
    fun h => ⟨fun none => ?_, fun some' => ?_⟩, fun n h cls idx lt inService held powered free unproposed => ?_,
    fun h => ⟨fun inService => ?_, fun cls out held => ?_⟩, fun h => ⟨fun absent => ?_, fun present => ?_⟩, fun h => ?_⟩
  all_goals rw [applyItem_of h]
  · show applyTimeSource sub s = _
    have known : (arg 0x0101 1 sub == 1 && !s.time.ref10) = false := by
      rcases ok with h | h <;> simp [h]
    simp only [applyTimeSource, known, Bool.false_eq_true, if_false]
    rfl
  · rfl
  · show applyGptpConfig sub s = _
    have lawful : ((rolesOf sub).contains 3 && !s.sources.contains 1) = false := by
      simpa using ok
    simp only [applyGptpConfig, lawful, Bool.false_eq_true, if_false]
    rfl
  · rfl
  · show applyPlanActivate sub s = _
    simp only [applyPlanActivate, none]
    rfl
  · show applyPlanActivate sub s = _
    simp only [applyPlanActivate, hp, prof, per, mask, bne_self_eq_false, Bool.or_self, Bool.false_eq_true, if_false]
    rfl
  · show applyProfileSet sub s = _
    simp only [applyProfileSet, busy, Bool.not_false, if_true]
    rfl
  · show applyProfileSet sub s = _
    simp only [applyProfileSet, ready, Bool.not_true, Bool.false_eq_true, if_false, if_pos short]
    rfl
  · show applyProfileSet sub s = _
    simp only [applyProfileSet, ready, Bool.not_true, Bool.false_eq_true, if_false, if_neg (Nat.not_lt.mpr long)]
    rfl
  · show applyStrokeSet sub s = _
    simp only [applyStrokeSet, if_pos short]
    rfl
  · show applyStrokeSet sub s = _
    simp only [applyStrokeSet, if_neg (Nat.not_lt.mpr long), beq_eq_false_iff_ne.mpr new, Bool.false_eq_true, if_false]
    rfl
  · show applyOverrunPolicy sub s = _
    simp only [applyOverrunPolicy, overloadCause, overloadAt, applied, State.modStroke, beq_iff_eq]
  · show applyStreamBind q sub s = _
    simp only [applyStreamBind, bad]
    rfl
  · show ∃ h t, applyStreamBind q sub s = _ ∧ _
    simp only [applyStreamBind, ok]
    exact bindStream_frame ..
  · show applyUcodeLoad img sub s = _
    have some' : (allEngines.any fun e => (freePatchBank (s.engine e).su).isNone) = true := by
      obtain ⟨e, he, none⟩ := held
      exact List.any_eq_true.mpr ⟨e, he, by rw [none]; rfl⟩
    simp only [applyUcodeLoad, some', if_true]
    rfl
  · exact applyUcodeLoad_of_free (sub := sub) free
  · show applyLgsMode sub s = _
    simp only [applyLgsMode, one]
    rfl
  · show applyLgsMode sub s = _
    simp only [applyLgsMode, zero, beq_self_eq_true, if_true, clash, Bool.and_self]
    rfl
  · show applyLgsMode sub s = _
    simp only [applyLgsMode, zero, beq_self_eq_true, if_true, ok, Bool.and_false, Bool.false_eq_true, if_false]
    rfl
  · rfl
  · exact ⟨_, rfl, State.sport_setSport_same .., rfl⟩
  · rfl
  · exact ⟨_, rfl, congrArg IngStream.cls (State.stream_setStream_same ..), rfl⟩
  · exact ⟨_, rfl, congrArg Port.rules (State.sport_setSport_same ..), rfl⟩
  · rfl
  · rfl
  · exact ⟨_, rfl, fun k hk named => startTimers_run hk named s⟩
  · show applyTuneSet sub s = _
    have fits : ((tabFind s.em.tune (arg 0x0800 0 sub)).isNone && decide (256 ≤ s.em.tune.length)) = false := by
      rcases room with h | h
      · simp [Option.isNone_iff_eq_none, Option.isSome_iff_ne_none.mp h]
      · simp [h]
    simp only [applyTuneSet, fits, Bool.false_eq_true, if_false]
    rfl
  · show applyTuneSet sub s = _
    simp only [applyTuneSet, fresh, full, Option.isNone_none, decide_true, Bool.and_self, if_true]
    rfl
  · show applyTuneClear sub s = _
    simp only [applyTuneClear, none]
    rfl
  · show applyTuneClear sub s = _
    obtain ⟨v, hv⟩ := Option.ne_none_iff_exists'.mp some'
    simp only [applyTuneClear, hv]
    rfl
  · refine ⟨markOut 0 n true (s.setEngine (engOf n) fun x => { x with st := .retired }), ?_, ?_, mem_setAdd ..⟩
    · show applyRetire i.qp i.cid sub s = _
      rw [applyRetire, cls, idx, retireUnit_free inService held powered free unproposed]
      rfl
    · exact congrArg Engine.st (State.engine_setEngine_same ..)
  · show applyReinstate i.qp i.cid sub s = _
    simp only [applyReinstate, reinstateUnit, inService, Bool.not_false, Bool.true_or, if_true]
    rfl
  · set x : SpareSeq :=
      { cls := 3, out := 1 - arg 0x0804 1 sub, inc := arg 0x0804 1 sub, reinst := true, waiter := some (i.qp, i.cid) }
    refine ⟨x, addSeq x s, ?_, List.mem_append_right _ (List.mem_singleton.mpr rfl), rfl, rfl, rfl⟩
    show applyReinstate i.qp i.cid sub s = _
    rw [applyReinstate, cls, reinstateUnit_pegbox out held]
    rfl
  · show applyLeadSet sub s = _
    simp only [applyLeadSet, absent, Bool.false_eq_true, if_false]
    rfl
  · show applyLeadSet sub s = _
    simp only [applyLeadSet, present, if_true]
    rfl
  · show applyRemoteWindow sub s = _
    by_cases none : arg 0x0A02 3 sub = 0
    · rw [if_pos none, applyRemoteWindow, none]
      rfl
    · have set : ∀ b, setWindow (arg 0x0A02 0 sub) (arg 0x0A02 1 sub) (arg 0x0A02 2 sub) (arg 0x0A02 3 sub) b = { b with
          wins := tabSet b.wins (arg 0x0A02 1 sub) { cube := arg 0x0A02 0 sub, base := arg 0x0A02 2 sub, size := arg 0x0A02 3 sub } } := by
        intro b
        rw [setWindow, if_neg (by simpa using none)]
      rw [if_neg none, applyRemoteWindow, State.modBrl, set]
      rfl

end Sys2Proof.Machine
end

section
/-! PROOFS. Elapsed time, an instruction that issues, and the stroke rows (R129, R174, R179, R181, R186, R187, R188, R190). -/
namespace Sys2Proof.Machine

/-! ### Elapsed time (R134, log 5) -/

theorem State.bringVt_eq {s : State} {v : W64} (ahead : (v - s.now).toNat < 2 ^ 63) : s.bringVt v = s.advanceVt (v - s.now).toNat :=
  if_pos ahead

theorem State.elapse_now {s : State} (counting : s.time.counting = true) (d dv : Nat) (rest : Int) :
    (s.elapse d dv rest).now = s.now + w64 dv := by
  simp [State.elapse, State.now, counting]

/-- A VT64 that lies ahead is reached. -/
theorem State.bringVt_now {s : State} {v : W64} (counting : s.time.counting = true) (ahead : (v - s.now).toNat < 2 ^ 63) :
    (s.bringVt v).now = v := by
  rw [State.bringVt_eq ahead, State.advanceVt, State.elapse_now counting, w64, BitVec.ofNat_toNat, BitVec.setWidth_eq]
  rw [BitVec.add_comm, BitVec.sub_add_cancel]

theorem State.gate_elapse (s : State) (d dv : Nat) (rest : Int) (k : Nat) :
    ∃ c, (s.elapse d dv rest).gate k = (s.gate k).cycles c := by
  refine ⟨(s.eng.frac + d * eclkFrac s.stroke.eclk) / 40, ?_⟩
  simp only [State.elapse, State.gate, State.modStroke, State.modEng, State.modTime]
  generalize (s.eng.frac + d * eclkFrac s.stroke.eclk) / 40 = c
  induction s.stroke.gates with
  | nil => rfl
  | cons p t ih =>
    obtain ⟨j, g⟩ := p
    simp only [tabGet, List.map_cons, tabFind] at ih ⊢
    split
    · rfl
    · exact ih

theorem State.elapse_frac (s : State) (d dv : Nat) (rest : Int) : (s.elapse d dv rest).eng.frac < 40 :=
  Nat.mod_lt _ (by decide)

/-! ### An instruction that issues (R212, R238) -/

/-- An instruction that may issue does what its class says of it. -/
theorem issue_of_issues {e : Eng} {op : EOp} {s u t : State} {f : EOp → State → Option State} (issues : Issues e op s u)
    (done : f op u = some t) : issue e op.cls f s = .next t := by
  obtain ⟨w, fetched, decoded⟩ := issues.fetched
  simp only [issue, issues.live, Bool.not_true, Bool.false_eq_true, if_false, fetched, decoded, bne_self_eq_false, issues.place,
    issues.ready, done, Option.getD_some]

theorem Runs.of_issue {i : Instr} {e : Eng} {op : EOp} {cls : EClass} {s u t : State} {f : EOp → State → Option State}
    {P : State → Prop} (meaning : exec i s = issue e cls f s) (issues : Issues e op s u) (ofClass : op.cls = cls)
    (done : f op u = some t) (holds : P t) : Runs i s P :=
  ⟨t, by rw [meaning, ← ofClass, issue_of_issues issues done], holds⟩

theorem Runs.mono {i : Instr} {s : State} {P Q : State → Prop} (h : Runs i s P) (weaken : ∀ t, P t → Q t) : Runs i s Q := by
  obtain ⟨t, ran, holds⟩ := h
  exact ⟨t, ran, weaken t holds⟩

/-! ### Snapshots (R129) -/

theorem snapSwitch_of_hidden {s : State} {n : W64} {v : W64} {d : Tab W32} (h : s.snap.hidden = some (n, v, d)) :
    snapSwitch s = { s with snap := { s.snap with stroke := n, vt := v, data := d, hidden := none, seq := s.snap.seq + 1 } } := by
  unfold snapSwitch
  rw [h]
  rfl

theorem snapSwitch_of_none {s : State} (h : s.snap.hidden = none) : snapSwitch s = s := by
  unfold snapSwitch
  rw [h]

theorem snapHold_set {val : W32} (h : val.getLsbD 0 = true) (s : State) :
    snapHold val s = { s with snap := { s.snap with hold := true } } := by
  simp only [snapHold, h, if_true]
  rfl

theorem snapHold_clear {val : W32} (h : val.getLsbD 0 = false) (s : State) :
    snapHold val s = snapSwitch { s with snap := { s.snap with hold := false } } := by
  simp only [snapHold, h, Bool.false_eq_true, if_false]
  rfl

/-! ### The boundary (R174, R181) -/

theorem nextStroke_of_no_anchor {s : State} (h : s.brl.anchor = none) :
    nextStroke s = { num := s.stroke.num + 1, vt := s.stroke.vt + w64 (16 * s.stroke.period) } := by
  simp only [nextStroke, h, State.nextBoundary, State.strokeVt, Nat.mul_comm]

theorem beginAt_num (x : NextStroke) (t : Stroke) : (beginAt x t).num = x.num := by
  unfold beginAt
  dsimp only
  split <;> rfl

theorem beginAt_vt (x : NextStroke) (t : Stroke) : (beginAt x t).vt = x.vt := by
  unfold beginAt
  dsimp only
  split <;> rfl

theorem beginAt_captured (x : NextStroke) (t : Stroke) : (beginAt x t).captured = t.captured := by
  unfold beginAt
  dsimp only
  split <;> rfl

/-- What the capture of step 1 leaves, the next stroke begun (R181). -/
theorem strokeCapture_begun (x : NextStroke) (v : State) : ∃ w : State, w.stroke.num = x.num ∧ w.stroke.vt = x.vt ∧
    w.stroke.captured = group1 v ∧ w.snap.hidden = some (w64 x.num, x.vt, bankData v.snap.sel v) ∧
    (strokeCapture x.num x.vt v).modStroke (beginAt x) = w :=
  ⟨_, beginAt_num .., beginAt_vt .., beginAt_captured .., rfl, rfl⟩

theorem strokeBoundary_eq {x : NextStroke} {s : State} (next : nextStroke s = x) (mw : Nat) : strokeBoundary mw s =
    openStroke false ((strokeCapture x.num x.vt (endStroke mw (s.bringVt x.vt))).modStroke (beginAt x)) := by
  unfold strokeBoundary
  rw [next]

/-! ### Budgets and jobs (R187, R190) -/

/-- A gate's overrun: its mark and its counts, then the STROKE entry and STK_OVERRUN. -/
theorem overrun_eq (k fret : Nat) (s : State) : ∃ v : State, (v.gate k).ovr = true ∧ (v.gate k).remain = (s.gate k).remain ∧
    (v.gate k).excess = 0 ∧ v.stroke.stats.ovrNow = satAdd 32 s.stroke.stats.ovrNow 1 ∧ v.fcu = s.fcu ∧ v.fretNow = s.fretNow ∧
    overrun k fret s = raiseFault Src.stkOverrun 0 unitNone
      (postCovered 8 (k / 12) (unsolEntry v 8 (w32 (4096 * (k % 12) + 256 * (k / 12) + fret)) (v.gate k).relVt) v) := by
  set marked := s.setGate k fun g => { g with
    ovr := true, ovrRated := s.stroke.rated, excess := 0, ratedOvr := if s.stroke.rated then satAdd 32 g.ratedOvr 1 else g.ratedOvr }
    with marking
  have gate : marked.gate k = { s.gate k with
      ovr := true, ovrRated := s.stroke.rated, excess := 0
      ratedOvr := if s.stroke.rated then satAdd 32 (s.gate k).ratedOvr 1 else (s.gate k).ratedOvr } := State.gate_setGate_same ..
  let v := marked.modStroke fun t => { t with
    hitNow := t.hitNow || s.stroke.rated
    loaded := t.loaded || s.stroke.rated
    stats := { t.stats with
      ovrNow := satAdd 32 t.stats.ovrNow 1
      perCourse := if s.stroke.rated then tabMod t.stats.perCourse (k / 12) 0 (satAdd 32 · 1) else t.stats.perCourse
      byFret := if s.stroke.rated then tabMod t.stats.byFret (fret / 8) 0 (satAdd 32 · 1) else t.stats.byFret } }
  have gateV : v.gate k = marked.gate k := rfl
  refine ⟨v, ?_, ?_, ?_, rfl, rfl, rfl, ?_⟩
  · rw [gateV, gate]
  · rw [gateV, gate]
  · rw [gateV, gate]
  · rw [gateV, gate]
    rfl

/-- The state in which a budget has run out: time has passed to it and nothing of it is left (R190). -/
def budgetSpent (k : Nat) (s : State) : State :=
  (s.advance (s.vtOfCycles (s.gate k).remain)).setGate k fun g => { g with remain := 0 }

theorem budgetSpent_gate (k : Nat) (s : State) : ((budgetSpent k s).gate k).remain = 0 :=
  congrArg Gate.remain (State.gate_setGate_same ..)

theorem setExcess_gate (k : Nat) (s : State) : ∃ v, v = (budgetSpent k s).setGate k (fun g => { g with excess := 0 }) ∧
    (v.gate k).excess = 0 ∧ (v.gate k).remain = 0 ∧ v.fcu = s.fcu ∧ v.em = s.em ∧ v.eng.frac < 40 := by
  refine ⟨_, rfl, ?_, ?_, rfl, rfl, State.elapse_frac ..⟩
  · rw [State.gate_setGate_same]
  · rw [State.gate_setGate_same]
    exact budgetSpent_gate k s

theorem budgetExpire_of_new {k : Nat} {s : State} (h : (s.gate k).ovr = false) : budgetExpire k s =
    (fun x : State => if x.stroke.policy == 1 then x.setEngine (x.slotEngine k) (irqEdge 0) else x)
      (overrun k (budgetSpent k s).fretNow (budgetSpent k s)) := by
  simp only [budgetExpire, h, Bool.false_eq_true, if_false]
  rfl

theorem budgetExpire_of_ovr {k : Nat} {s : State} (h : (s.gate k).ovr = true) : budgetExpire k s =
    (if s.stroke.policy == 1 then ((budgetSpent k s).setGate k fun g => { g with excess := 0 }).setEngine (s.slotEngine k) (irqEdge 0)
      else (budgetSpent k s).setGate k fun g => { g with excess := 0 }) := by
  simp only [budgetExpire, h, if_true]
  rfl

theorem endJob_planned {k : Nat} {s : State} {j : GateJob} (runs : (s.gate k).cur = some j) (planned : j.adhoc = none)
    (unrated : s.stroke.rated = false) (noOvr : (s.gate k).ovr = false) (noRated : (s.gate k).ovrRated = false) :
    endJob k s = release k (s.setGate k fun g => { g with cur := none, fresh := false }) := by
  have same : (s.setGate k fun g => { g with cur := none, fresh := false }).stroke.rated = false := unrated
  simp only [endJob, runs, planned, noOvr, noRated, Bool.false_and, Bool.false_eq_true, if_false]
  refine congrArg (release k) ?_
  show State.modStroke _ (fun t => { t with stats := { t.stats with
    least := if t.rated = true then _ else t.stats.least, largest := t.stats.largest } }) = _
  simp only [State.modStroke, same, Bool.false_eq_true, if_false]

/-! ### A read of FG_NEXT (R187, R233) -/

theorem toNat_rotateRight_word (v : W32) {r : Nat} (h : r < 32) :
    (v.rotateRight r).toNat = v.toNat % 2 ^ r * 2 ^ (32 - r) + v.toNat / 2 ^ r := by
  have split : 2 ^ 32 = 2 ^ r * 2 ^ (32 - r) := by rw [← Nat.pow_add]; congr 1; omega
  have below : v.toNat / 2 ^ r < 2 ^ (32 - r) :=
    Nat.div_lt_of_lt_mul (split ▸ v.isLt)
  rw [BitVec.toNat_rotateRight, Nat.mod_eq_of_lt h, Nat.shiftLeft_eq, Nat.shiftRight_eq_div_pow, Nat.or_comm, split,
    Nat.mul_mod_mul_right, ← Nat.shiftLeft_eq, ← Nat.shiftLeft_add_eq_or_of_lt below, Nat.shiftLeft_eq]

/-- The bytes of a word rotated are the word rotated right. -/
theorem w32_leNat_rotateLeft (v : W32) {n : Nat} (h : n < 4) :
    w32 (leNat ((leBytes 4 v.toNat).rotateLeft n)) = v.rotateRight (8 * n) := by
  refine BitVec.eq_of_toNat_eq ?_
  rw [toNat_rotateRight_word v (by omega), w32, BitVec.toNat_ofNat]
  obtain ⟨a, b, c, d, ha, hb, hc, hd, word⟩ : ∃ a b c d, a < 256 ∧ b < 256 ∧ c < 256 ∧ d < 256 ∧
      v.toNat = a + 256 * (b + 256 * (c + 256 * d)) :=
    ⟨v.toNat % 256, v.toNat / 256 % 256, v.toNat / 65536 % 256, v.toNat / 16777216, by omega, by omega, by omega, by omega, by omega⟩
  have byte : ∀ {x y}, x < 256 → BitVec.ofNat 8 (x + 256 * y) = w8 x := fun hx => BitVec.eq_of_toNat_eq (by
    simp only [w8, BitVec.toNat_ofNat]; omega)
  have bytes : leBytes 4 v.toNat = [w8 a, w8 b, w8 c, w8 d] := by
    have h1 : v.toNat / 256 = b + 256 * (c + 256 * d) := by omega
    have h2 : (b + 256 * (c + 256 * d)) / 256 = c + 256 * d := by omega
    have h3 : (c + 256 * d) / 256 = d := by omega
    simp only [leBytes, h1, h2, h3]
    rw [word, byte ha, byte hb, byte hc]
    rfl
  have value : ∀ {x}, x < 256 → (w8 x).toNat = x := fun hx => by rw [w8, BitVec.toNat_ofNat]; omega
  have small : ∀ {x}, x < 4294967296 → x % 2 ^ 32 = x := fun hx => Nat.mod_eq_of_lt hx
  rw [bytes]
  obtain rfl | rfl | rfl | rfl : n = 0 ∨ n = 1 ∨ n = 2 ∨ n = 3 := by omega
  · rw [show [w8 a, w8 b, w8 c, w8 d].rotateLeft 0 = [w8 a, w8 b, w8 c, w8 d] from rfl, word]
    simp only [leNat, value ha, value hb, value hc, value hd]
    rw [small (by omega)]
    omega
  · rw [show [w8 a, w8 b, w8 c, w8 d].rotateLeft 1 = [w8 b, w8 c, w8 d, w8 a] from rfl, word]
    simp only [leNat, value ha, value hb, value hc, value hd]
    rw [small (by omega)]
    omega
  · rw [show [w8 a, w8 b, w8 c, w8 d].rotateLeft 2 = [w8 c, w8 d, w8 a, w8 b] from rfl, word]
    simp only [leNat, value ha, value hb, value hc, value hd]
    rw [small (by omega)]
    omega
  · rw [show [w8 a, w8 b, w8 c, w8 d].rotateLeft 3 = [w8 d, w8 a, w8 b, w8 c] from rfl, word]
    simp only [leNat, value ha, value hb, value hc, value hd]
    rw [small (by omega)]
    omega

theorem fgNextLoad_of_fresh {e : Eng} {k : Nat} {go : W32 → State → State} {s : State} (idle : (s.engine e).chordsAt false = false)
    (fresh : (s.gate k).fresh = true) :
    fgNextLoad e k go s = some (go (s.gate k).entry (s.setGate k fun g => { g with fresh := false })) := by
  simp only [fgNextLoad, idle, fresh, Bool.false_eq_true, if_false, if_true]

theorem loadGo_of_fgNext {e : Eng} {a k : Nat} {go : List Byte → State → State} {s : State} (out : loadWay e a 4 s = .out)
    (aligned : a % 4 = 0) (gate : fgNextAt e a s = some k) :
    loadGo e a 4 go s = fgNextLoad e k (fun v => go (leBytes 4 v.toNat)) s := by
  simp only [loadGo, out, aligned, beq_self_eq_true, Bool.and_self, if_true, gate]

/-- What LW and LWX write of a word they have read. -/
theorem loadWrites_word (kind rt : Nat) (ea v : W32) (h : kind = 4 ∨ kind = 5) :
    loadWrites kind rt (loadTurn kind ea (leBytes 4 v.toNat)) =
      if rt == 0 then [] else [(rt, if kind = 4 then v else v.rotateRight (8 * (ea.toNat % 4)))] := by
  have word : w32 (leNat (loadTurn kind ea (leBytes 4 v.toNat))) = if kind = 4 then v else v.rotateRight (8 * (ea.toNat % 4)) := by
    obtain rfl | rfl := h
    · exact w32_leNat_leBytes v
    · exact w32_leNat_rotateLeft v (Nat.mod_lt _ (by decide))
  rw [← word]
  obtain rfl | rfl := h <;> by_cases z : rt = 0 <;> simp [loadWrites, z]

/-! ### A course powers down (R179) -/

theorem engKey_inj {a b : Eng} (ha : a.phys < 13) (hb : b.phys < 13) (h : engKey a.course a.phys = engKey b.course b.phys) : a = b := by
  obtain ⟨c, p⟩ := a
  obtain ⟨d, q⟩ := b
  simp only [engKey, Eng.mk.injEq] at *
  omega

theorem State.engine_setEngine_other (s : State) {e d : Eng} (f : Engine → Engine) (he : e.phys < 13) (hd : d.phys < 13)
    (h : d ≠ e) : (s.setEngine e f).engine d = s.engine d :=
  State.engine_setEngine_ne s f fun same => h (engKey_inj hd he same)

/-- A change of the engines of a course in turn changes each once, and no engine of another course. -/
theorem foldl_setEngine (n : Nat) (f : Engine → Engine) (m : Nat) (hm : m ≤ 13) (s : State) :
    (∀ p, p < m → ((List.range m).foldl (fun s p => s.setEngine ⟨n, p⟩ f) s).engine ⟨n, p⟩ = f (s.engine ⟨n, p⟩)) ∧
      (∀ d : Eng, d.phys < 13 → (d.course = n → m ≤ d.phys) →
        ((List.range m).foldl (fun s p => s.setEngine ⟨n, p⟩ f) s).engine d = s.engine d) := by
  induction m with
  | zero => exact ⟨fun p hp => absurd hp (Nat.not_lt_zero p), fun _ _ _ => rfl⟩
  | succ m ih =>
    obtain ⟨done, others⟩ := ih (by omega)
    simp only [List.range_succ, List.foldl_append, List.foldl_cons, List.foldl_nil]
    constructor
    · intro p hp
      by_cases h : p = m
      · subst h
        rw [State.engine_setEngine_same, others ⟨n, p⟩ (by simp only; omega) fun _ => Nat.le_refl p]
      · rw [State.engine_setEngine_other _ _ (by simp only; omega) (by simp only; omega) (by simpa using h), done p (by omega)]
    · intro d hd away
      rw [State.engine_setEngine_other _ _ (by simp only; omega) hd, others d hd fun h => Nat.le_of_succ_le (away h)]
      rintro rfl
      exact absurd (away rfl) (by simp only; omega)

theorem powerDown_frame (n : Nat) (s : State) :
    (∀ p, p < 13 → ((powerDown n s).engine ⟨n, p⟩).st = if (s.engine ⟨n, p⟩).st = .retired then .retired else .off) ∧
      (∀ c p, c ≠ n → p < 13 → (powerDown n s).engine ⟨c, p⟩ = s.engine ⟨c, p⟩) ∧
      (powerDown n s).stroke.powered = putBit s.stroke.powered n false ∧
      tabFind (powerDown n s).fab.csm n = none := by
  obtain ⟨done, others⟩ := foldl_setEngine n (fun e =>
    { st := if e.st == .retired then .retired else .off, irqPend := e.irqPend, irqEn := e.irqEn, irqLvl0 := e.irqLvl0, irqLvl1 := e.irqLvl1 })
    13 (Nat.le_refl _) s
  have steady := foldl_keeps (f := fun s p => s.setEngine ⟨n, p⟩ fun e : Engine =>
    { st := if e.st == .retired then .retired else .off, irqPend := e.irqPend, irqEn := e.irqEn, irqLvl0 := e.irqLvl0, irqLvl1 := e.irqLvl1 })
    (P := fun u => u.stroke = s.stroke) (l := List.range 13) (fun _ _ _ h => h) rfl
  unfold powerDown
  generalize List.foldl _ s (List.range 13) = u at *
  refine ⟨fun p hp => ?_, fun c p hc hp => others ⟨c, p⟩ hp fun h => absurd h hc, ?_, tabFind_tabDel_same ..⟩
  · show (u.engine ⟨n, p⟩).st = _
    rw [done p hp]
    simp only [beq_iff_eq]
  · rw [← steady]
    rfl

/-! ### The rows -/

/-- Settles O14: each row by the equation of its meaning where its guard holds. -/
theorem strokeRows : Obligations.StrokeRows := by
  intro s
  refine ⟨fun mw x alive started counting next => ?_, fun n v d alive free hidden => ?_, fun val alive up set => ?_,
    fun val alive up clear hidden => ?_, fun val n v d alive up clear hidden => ?_, fun alive started counting inStroke => ?_,
    fun alive started counting last => ?_, fun c i k alive hc hi hk job fresh => ?_, fun c i k alive hc hi hk job over' policy => ?_,
    fun c i k alive hc hi hk job over' policy => ?_,
    fun e u kind rt base am amf a ea upd k hkind issues room reads named target at' aligned gate way idle fresh => ?_,
    fun n p c i k val j alive hc hi hk done holds runs => ?_, fun m c i val alive hc hi other => ?_,
    fun n alive hn on out idle => ?_⟩
  · refine Runs.of_act (show _ = execStrokeBoundary mw s from rfl) (by simp [alive, started, counting])
      ⟨fun free => by rw [← next, nextStroke_of_no_anchor free], ?_⟩
    obtain ⟨w, num, vt, captured, hidden, eq⟩ := strokeCapture_begun x (endStroke mw (s.bringVt x.vt))
    exact ⟨_, _, w, rfl, num, vt, captured, hidden, rfl, by rw [strokeBoundary_eq next, eq]⟩
  · refine Runs.of_act (show _ = execSnapBankSwitch s from rfl) (by simp [alive, free, hidden]) (snapSwitch_of_hidden hidden)
  · exact Runs.of_act (show _ = execSnapCtlHold val s from rfl) (by simp [alive, up]) (snapHold_set set s)
  · refine Runs.of_act (show _ = execSnapCtlHold val s from rfl) (by simp [alive, up]) ?_
    rw [snapHold_clear clear]
    exact snapSwitch_of_none hidden
  · refine Runs.of_act (show _ = execSnapCtlHold val s from rfl) (by simp [alive, up]) ?_
    rw [snapHold_clear clear]
    exact snapSwitch_of_hidden hidden
  · refine Runs.of_act (show _ = execFretBoundary s from rfl) (by simp [alive, started, counting]) ?_
    refine ⟨_, _, rfl, State.bringVt_now counting, rfl, ?_⟩
    simp only [fretBoundary, inStroke, if_true]
  · refine Runs.of_act (show _ = execFretBoundary s from rfl) (by simp [alive, started, counting]) ?_
    simp only [fretBoundary, Nat.not_lt.mpr last, if_false]
  · subst hk
    refine Runs.of_act (show _ = execBudgetExpiry c i s from rfl) (by simp [alive, hc, hi, job]) ?_
    obtain ⟨v, ovr, remain, excess, count, fcu, fret, eq⟩ := overrun_eq (gateKey c i) (budgetSpent (gateKey c i) s).fretNow (budgetSpent (gateKey c i) s)
    refine ⟨v, ovr, remain.trans (budgetSpent_gate ..), excess, count, fcu, _, rfl, ?_⟩
    rw [budgetExpire_of_new fresh, eq, fret]
  · subst hk
    refine Runs.of_act (show _ = execBudgetExpiry c i s from rfl) (by simp [alive, hc, hi, job]) ?_
    rw [budgetExpire_of_ovr over', if_neg (by simpa using policy)]
    obtain ⟨v, rfl, excess, remain, fcu, -, frac⟩ := setExcess_gate (gateKey c i) s
    exact ⟨excess, remain, fcu, frac⟩
  · subst hk
    refine Runs.of_act (show _ = execBudgetExpiry c i s from rfl) (by simp [alive, hc, hi, job]) ?_
    rw [budgetExpire_of_ovr over', if_pos (by simpa using policy)]
    obtain ⟨v, eq, excess, remain, fcu, em, -⟩ := setExcess_gate (gateKey c i) s
    exact ⟨v, excess, remain, fcu, em, by rw [eq]⟩
  · have meaning : exec (.fgNextRead e) s = issue e (if kind == 5 then .lwx else .load) (doLoad e) s := by
      show execFgNextRead e s = _
      unfold execFgNextRead
      rw [reads]
      simp only [named]
      obtain rfl | rfl := hkind <;> rfl
    refine Runs.of_issue meaning issues rfl ?_ rfl
    have size : loadSize kind = 4 := by obtain rfl | rfl := hkind <;> rfl
    have keep : (base == rt || (kind == 6 && base == rt + 1)) = (base == rt) := by obtain rfl | rfl := hkind <;> simp
    simp only [doLoad, Nat.not_le.mpr room, if_false, Engine.address, target, size, ← at', keep]
    rw [loadGo_of_fgNext way aligned gate, fgNextLoad_of_fresh idle fresh, loadWrites_word kind rt ea _ hkind]
  · subst hk
    refine Runs.of_act (show _ = execFgDoneWrite (.engine n p) c i val s from rfl) (by simp [alive, hc, hi]) ?_
    have eq : fgDone (.engine n p) (gateKey c i) val s = endJob (gateKey c i) s := by
      simp only [fgDone, done, holds, beq_self_eq_true, Bool.and_self, if_true]
    exact ⟨eq, fun planned unrated noOvr noRated => eq.trans (endJob_planned runs planned unrated noOvr noRated)⟩
  · refine Runs.of_act (show _ = execFgDoneWrite m c i val s from rfl) (by simp [alive, hc, hi]) ?_
    cases m with
    | engine n p => exact absurd rfl (other n p)
    | _ => rfl
  · refine Runs.of_act (show _ = execCoursePowerDown n s from rfl) (by rw [alive, on, out, idle, decide_eq_true hn]; rfl) ?_
    obtain ⟨off, others, powered, csm⟩ := powerDown_frame n (dmaKill n s)
    refine ⟨?_, fun j hj => ?_, off, others, csm⟩
    · rw [powered, getLsbD_putBit _ _ _ _ hn, if_pos rfl]
    · rw [powered, getLsbD_putBit _ _ _ _ hn, if_neg hj]
      rfl

end Sys2Proof.Machine
end

section
/-! PROOFS. gPTP messages received and sent (R138, R157, R158, R160). -/
namespace Sys2Proof.Machine

/-- A change of one port changes that port alone. -/
theorem State.setPort_frame (s : State) (p : Nat) (f : GptpPort → GptpPort) : (s.setPort p f).port p = f (s.port p) ∧
    (∀ j, j ≠ p → (s.setPort p f).port j = s.port j) ∧
    s.setPort p f = { s with time := { s.time with ports := (s.setPort p f).time.ports } } :=
  ⟨State.port_setPort_same .., fun _ h => State.port_setPort_ne s f h, rfl⟩

theorem State.setPort_setPort_frame (s : State) (p : Nat) (f g : GptpPort → GptpPort) :
    ((s.setPort p f).setPort p g).port p = g (f (s.port p)) ∧
    (∀ j, j ≠ p → ((s.setPort p f).setPort p g).port j = s.port j) ∧
    (s.setPort p f).setPort p g = { s with time := { s.time with ports := ((s.setPort p f).setPort p g).time.ports } } :=
  ⟨by rw [State.port_setPort_same, State.port_setPort_same],
    fun j h => by rw [State.port_setPort_ne _ _ h, State.port_setPort_ne _ _ h], rfl⟩

/-! ### Sync and Follow_Up (R138) -/

theorem syncReceive_of_domain {m : SyncMsg} {s : State} (other : m.domain.toNat ≠ s.time.gptpDomain) (p : Nat) :
    syncReceive p m s = s := by
  simp only [syncReceive, bne_iff_ne, ne_eq, other, not_false_eq_true, if_true]

theorem syncReceive_of_not_slave {m : SyncMsg} {s : State} {p : Nat} (domain : m.domain.toNat = s.time.gptpDomain)
    (master : (s.port p).state ≠ 2) : syncReceive p m s = s.setPort p fun g => { g with syncRx := g.syncRx + 1 } := by
  simp only [syncReceive, domain, bne_self_eq_false, Bool.false_eq_true, if_false, bne_iff_ne, ne_eq, master, not_false_eq_true, if_true]

/-- The state in which a slave port has counted a Sync and taken its grandmaster and interval (R138). -/
def syncHeard (p : Nat) (m : SyncMsg) (s : State) : State :=
  (((s.setPort p fun g => { g with syncRx := g.syncRx + 1 }).setPort p fun g =>
    { g with prevGm := some m.gm, logSync := m.logIntvl, pendSync := none })).modTime fun t => { t with gmId := m.gm }

theorem syncHeard_frame (p : Nat) (m : SyncMsg) (s : State) :
    (syncHeard p m s).port p = { s.port p with
      syncRx := (s.port p).syncRx + 1, prevGm := some m.gm, logSync := m.logIntvl, pendSync := none } ∧
    (∀ j, j ≠ p → (syncHeard p m s).port j = s.port j) ∧
    syncHeard p m s = { s with time := { s.time with ports := (syncHeard p m s).time.ports, gmId := m.gm } } := by
  obtain ⟨same, other, -⟩ := s.setPort_setPort_frame p (fun g => { g with syncRx := g.syncRx + 1 })
    (fun g => { g with prevGm := some m.gm, logSync := m.logIntvl, pendSync := none })
  exact ⟨same, other, rfl⟩

/-- A Sync on a slave port; `fresh` says that its grandmaster is a new one. -/
theorem syncReceive_of_slave {m : SyncMsg} {s : State} {p : Nat} (domain : m.domain.toNat = s.time.gptpDomain)
    (slave : (s.port p).state = 2) (fresh : Bool) (known : (match (s.port p).prevGm with | some x => x != m.gm | none => false) = fresh) :
    syncReceive p m s = (fun v : State =>
      if m.twoStep then v.setPort p fun g => { g with pendSync := some (m.seq.toNat, s.rxStamp p, !fresh) }
      else gptpSample p (s.rxStamp p) m.time (!fresh) v)
      (if fresh then loseSource 1 (syncHeard p m s) else syncHeard p m s) := by
  subst known
  simp only [syncReceive, domain, slave, bne_self_eq_false, Bool.false_eq_true, if_false]
  rfl

theorem followUpReceive_of_pending {p n : Nat} {seq : W16} {time : PtpTime} {arrived : W64} {known : Bool} {s : State}
    (pending : (s.port p).pendSync = some (n, arrived, known)) (same : n = seq.toNat) (slave : (s.port p).state = 2) :
    followUpReceive p seq time s = gptpSample p arrived time known
      ((s.setPort p fun g => { g with followRx := g.followRx + 1 }).setPort p fun g => { g with pendSync := none }) := by
  simp only [followUpReceive, pending, same, slave, beq_self_eq_true, Bool.and_self, if_true]

theorem followUpReceive_of_other {p : Nat} {seq : W16} {s : State} (other : ∀ x, (s.port p).pendSync = some x → x.1 ≠ seq.toNat)
    (time : PtpTime) : followUpReceive p seq time s = s.setPort p fun g => { g with followRx := g.followRx + 1 } := by
  unfold followUpReceive
  dsimp only
  split
  · next n arrived known pending =>
    simp only [beq_iff_eq, other _ pending, Bool.and_eq_true, false_and, if_false]
  · rfl

/-! ### Announce (R158) -/

theorem State.gptpDomain_setPort (s : State) (p : Nat) (f : GptpPort → GptpPort) : (s.setPort p f).time.gptpDomain = s.time.gptpDomain := rfl
theorem State.gptpRole_setPort (s : State) (p : Nat) (f : GptpPort → GptpPort) (j : Nat) : (s.setPort p f).gptpRole j = s.gptpRole j := rfl

theorem announceReceive_of_dynamic {p : Nat} {m : AnnounceMsg} {s : State} (domain : m.domain.toNat = s.time.gptpDomain)
    (role : s.gptpRole p = 1) : announceReceive p m s = bmca ((s.setPort p fun g => { g with announceRx := g.announceRx + 1 }).setPort p
      fun g => { g with announce := some m }) := by
  simp only [announceReceive, State.gptpDomain_setPort, State.gptpRole_setPort, domain, role, beq_self_eq_true, if_true]

theorem announceReceive_of_slave {p : Nat} {m : AnnounceMsg} {s : State} (domain : m.domain.toNat = s.time.gptpDomain)
    (role : s.gptpRole p ≠ 1) (slave : (s.port p).state = 2) : announceReceive p m s =
      ((s.setPort p fun g => { g with announceRx := g.announceRx + 1 }).setPort p fun g => { g with announce := some m }).modTime
        fun t => { t with gmId := m.gm, stepsRemoved := m.stepsRemoved.toNat + 1 } := by
  simp only [announceReceive, State.port_setPort_same, State.gptpDomain_setPort, State.gptpRole_setPort]
  simp only [domain, beq_eq_false_iff_ne.mpr role, slave, beq_self_eq_true, Bool.false_eq_true, if_true, if_false]

theorem announceReceive_of_other {p : Nat} {m : AnnounceMsg} {s : State}
    (other : m.domain.toNat ≠ s.time.gptpDomain ∨ s.gptpRole p ≠ 1 ∧ (s.port p).state ≠ 2) :
    announceReceive p m s = s.setPort p fun g => { g with announceRx := g.announceRx + 1 } := by
  simp only [announceReceive, State.port_setPort_same, State.gptpDomain_setPort, State.gptpRole_setPort]
  obtain domain | ⟨role, state⟩ := other
  · simp only [beq_eq_false_iff_ne.mpr domain, Bool.false_eq_true, if_false]
  · simp only [beq_eq_false_iff_ne.mpr role, beq_eq_false_iff_ne.mpr state, Bool.false_eq_true, if_false, ite_self]

/-! ### Peer delay (R157, R158) -/

theorem pdelayReceive_of_answer {p : Nat} {seq : W16} {t1 : W64} {s : State} (asked : (s.port p).pdelayT1 = some (seq.toNat, t1))
    (t2 t3 : W64) : pdelayReceive p (.resp seq t2 t3) s = s.setPort p (pdelayAnswer t1 t2 t3 (s.rxStamp p)) := by
  simp only [pdelayReceive, asked, beq_self_eq_true, if_true]

theorem pdelayReceive_of_unasked {p : Nat} {seq : W16} {s : State} (other : ∀ x, (s.port p).pdelayT1 = some x → x.1 ≠ seq.toNat)
    (t2 t3 : W64) : pdelayReceive p (.resp seq t2 t3) s = s := by
  unfold pdelayReceive
  dsimp only
  split
  · next n t1 asked => exact if_neg (by simpa using other _ asked)
  · rfl

theorem peerDelay_same_rate (t1 t2 t3 t4 : W64) : peerDelay t1 t2 t3 t4 0 = (((t4 - t1).toInt - (t3 - t2).toInt) / 2).toNat := by
  simp [peerDelay]

/-! ### The time and the Announce a master port sends (R160) -/

theorem masterTime_own {s : State} (own : s.time.source ≠ 1) (stamp : W64) : masterTime stamp s = vtToPtp s stamp.toNat := by
  have relays : s.relays = false := by simpa [State.relays] using own
  simp only [masterTime, relays]

theorem announceOut_own {s : State} (own : s.time.source ≠ 1) : announceOut s = ownAnnounce s := by
  have relays : s.relays = false := by simpa [State.relays] using own
  simp only [announceOut, relays]

/-! ### The rows -/

/-- Settles O15: each message by the equation of its meaning, with the frame of one port. -/
theorem gptpRows : Obligations.GptpRows := by
  intro p s runs
  refine ⟨fun m other => ?_, fun m domain master => ?_, fun m arrived domain slave stamp => ?_,
    fun seq time n arrived known pending same slave => ?_, fun seq time other => ?_, fun m domain role => ?_,
    fun m domain role slave => ?_, fun m other => ?_, fun seq => ?_, fun seq t1 t2 t3 t4 asked stamp => ?_,
    fun seq t2 t3 other => ?_, ?_, fun k => ?_, fun stamp master hstamp => ?_, fun other => ?_, fun stamp hstamp => ?_,
    fun master => ?_, fun other => ?_, fun b role => ?_, fun b role => ?_⟩
  · exact Runs.of_act (show _ = execGptpSyncReceive p m s from rfl) runs (syncReceive_of_domain other p)
  · exact Runs.of_act (show _ = execGptpSyncReceive p m s from rfl) runs (syncReceive_of_not_slave domain master)
  · refine Runs.of_act (show _ = execGptpSyncReceive p m s from rfl) runs ?_
    obtain ⟨port, others, frame⟩ := syncHeard_frame p m s
    refine ⟨syncHeard p m s, port, others, frame, fun g known new => ?_, fun known => ?_⟩
    · rw [syncReceive_of_slave domain slave true (by simpa [known] using new), stamp]
      rfl
    · have old : (match (s.port p).prevGm with | some x => x != m.gm | none => false) = false := by
        split
        · next x hx => simpa using known x hx
        · rfl
      rw [syncReceive_of_slave domain slave false old, stamp]
      rfl
  · refine Runs.of_act (show _ = execGptpFollowUpReceive p seq time s from rfl) runs ?_
    obtain ⟨port, others, frame⟩ := s.setPort_setPort_frame p (fun g => { g with followRx := g.followRx + 1 }) fun g => { g with pendSync := none }
    exact ⟨_, port, others, frame, followUpReceive_of_pending pending same slave⟩
  · exact Runs.of_act (show _ = execGptpFollowUpReceive p seq time s from rfl) runs (followUpReceive_of_other other time)
  · refine Runs.of_act (show _ = execGptpAnnounceReceive p m s from rfl) runs ?_
    obtain ⟨port, others, frame⟩ := s.setPort_setPort_frame p (fun g => { g with announceRx := g.announceRx + 1 }) fun g => { g with announce := some m }
    exact ⟨_, port, others, frame, announceReceive_of_dynamic domain role⟩
  · refine Runs.of_act (show _ = execGptpAnnounceReceive p m s from rfl) runs ?_
    obtain ⟨port, others, -⟩ := s.setPort_setPort_frame p (fun g => { g with announceRx := g.announceRx + 1 }) fun g => { g with announce := some m }
    rw [announceReceive_of_slave domain role slave]
    exact ⟨port, others, rfl⟩
  · exact Runs.of_act (show _ = execGptpAnnounceReceive p m s from rfl) runs (announceReceive_of_other other)
  · exact Runs.of_act (show _ = execGptpPdelayReceive p (.req seq) s from rfl) runs rfl
  · refine Runs.of_act (show _ = execGptpPdelayReceive p (.resp seq t2 t3) s from rfl) runs ?_
    rw [pdelayReceive_of_answer asked]
    subst stamp
    obtain ⟨port, others, frame⟩ := s.setPort_frame p (pdelayAnswer t1 t2 t3 (s.rxStamp p))
    refine ⟨_, _, rfl, rfl, fun zero => ?_, port, others, frame⟩
    rw [zero, peerDelay_same_rate]
  · exact Runs.of_act (show _ = execGptpPdelayReceive p (.resp seq t2 t3) s from rfl) runs (pdelayReceive_of_unasked other t2 t3)
  · exact Runs.of_act (show _ = execGptpPdelayReceive p .lost s from rfl) runs (s.setPort_frame p _)
  · refine Runs.of_act (show _ = execGptpPdelayReceive p (.signaling k) s from rfl) runs ?_
    simp only [pdelayReceive, Bool.and_eq_true, beq_iff_eq, decide_eq_true_eq, and_assoc]
  · refine Runs.of_act (show _ = execGptpSyncTransmit p s from rfl) runs ?_
    subst hstamp
    obtain ⟨port, others, frame⟩ := s.setPort_frame p fun g => { g with seqTx := g.seqTx + 1, syncTx := g.syncTx + 1 }
    refine ⟨_, port, others, frame, fun own => masterTime_own (show (State.setPort ..).time.source ≠ 1 from own) _, ?_⟩
    simp only [syncTransmit, master, beq_self_eq_true, if_true]
    rfl
  · refine Runs.of_act (show _ = execGptpSyncTransmit p s from rfl) runs ?_
    exact if_neg (by simpa using other)
  · refine Runs.of_act (show _ = execGptpPdelayReqTransmit p s from rfl) runs ?_
    subst hstamp
    obtain ⟨port, others, -⟩ := s.setPort_frame p fun g => { g with
      seqTx := g.seqTx + 1, pdelayTx := g.pdelayTx + 1, pdelayT1 := some ((s.port p).seqTx % 65536, s.txStamp p) }
    exact ⟨port, others, rfl⟩
  · refine Runs.of_act (show _ = execGptpAnnounceTransmit p s from rfl) runs ⟨?_, fun own => announceOut_own own⟩
    exact if_pos (by simpa using master)
  · refine Runs.of_act (show _ = execGptpAnnounceTransmit p s from rfl) runs ?_
    exact if_neg (by simpa using other)
  all_goals
    have timeout : (s.alive && s.ready Rdy.gptp && p < 8 && s.gptpRole p != 0) = true := (Bool.and_eq_true _ _ ▸ runs).1
    refine Runs.of_act (show _ = execGptpReceiptTimeout p b s from rfl) timeout ?_
    have frame := s.setPort_frame p fun g => { g with
      syncTimeouts := if b then g.syncTimeouts + 1 else g.syncTimeouts, announce := none }
  · rw [show receiptTimeout p b s = _ from if_neg fun h => role (beq_iff_eq.mp h)]
    exact frame
  · rw [show receiptTimeout p b s = _ from if_pos (beq_iff_eq.mpr role)]
    exact ⟨_, frame.1, frame.2.1, frame.2.2, rfl⟩

end Sys2Proof.Machine
end

section
/-! PROOFS. Time references, clocks and time pins (R26, R66, R138, R144, R153 to R156, R161, R162). -/
namespace Sys2Proof.Machine

/-! ### PPS_IN (R138, R162) -/

theorem ppsInEdge_of_other {r : Bool} {s : State} (other : (r != (s.time.ppsEdge == 0)) = true) : ppsInEdge r s = s := by
  simp only [ppsInEdge, other, if_true]

theorem ppsInEdge_of_missed {r : Bool} {s : State} (chosen : (r != (s.time.ppsEdge == 0)) = false) (early : s.edgeStamped 48 = false) :
    ppsInEdge r s = { s with time := { s.time with ppsMiss := s.time.ppsMiss + 1 } } := by
  simp only [ppsInEdge, chosen, early, Bool.false_eq_true, if_false, Bool.not_false, if_true]
  rfl

theorem ppsInEdge_of_stamped {r : Bool} {s : State} (chosen : (r != (s.time.ppsEdge == 0)) = false) (stamped : s.edgeStamped 48 = true) :
    ppsInEdge r s = ppsInput (s.stamp 48) (postBound 4 (· == 0x6000) none (s.stamp 48) s.quality (assertProducer 504 (markEdge 48 s))) := by
  simp only [ppsInEdge, chosen, stamped, Bool.false_eq_true, if_false, Bool.not_true]
  rfl

theorem markEdge_lastEdge (pin : Nat) (s : State) : tabFind (markEdge pin s).sen.lastEdge pin = some s.time.mono :=
  tabFind_tabSet_same ..

/-! ### The servo (R138, R144) -/

theorem State.mono_bringTo (s : State) (m : Nat) : m ≤ (s.bringTo m).time.mono := by
  show m ≤ s.time.mono + (m - s.time.mono)
  omega

theorem loseSource_of_other {c : Nat} {s : State} (other : s.time.source ≠ c) :
    loseSource c s = s.setTrack c fun k => { k with valid := false, qualified := false, count := 0 } := by
  unfold loseSource
  exact if_neg fun h => other (beq_iff_eq.mp h)

theorem lastHeard_of_track {s : State} {c : Nat} (h : c ≠ 2 ∨ s.time.ppsRef = none) : s.lastHeard c = (s.track c).lastMono := by
  unfold State.lastHeard
  split
  · next r ref =>
    obtain h | h := h
    · exact absurd rfl h
    · rw [h] at ref
      cases ref
  · rfl

/-- The state in which a source's timeout has passed and is counted; of PPS the reference has lapsed with it (R138). -/
def timeoutPassed (c : Nat) (s : State) : State :=
  let s := (s.bringTo (s.lastHeard c + s.timeoutOf c)).setTrack c fun k => { k with timeouts := k.timeouts + 1 }
  if c == 2 then s.modTime fun t => { t with ppsRef := none } else s

theorem timeoutPassed_frame (c : Nat) (s : State) : ((timeoutPassed c s).track c).timeouts = (s.track c).timeouts + 1 ∧
    (c = 2 → (timeoutPassed c s).time.ppsRef = none) ∧ (c ≠ 2 → (timeoutPassed c s).time.ppsRef = s.time.ppsRef) ∧
    (timeoutPassed c s).time.source = s.time.source ∧ (timeoutPassed c s).time.servo = s.time.servo ∧
    s.lastHeard c + s.timeoutOf c ≤ (timeoutPassed c s).time.mono := by
  have track : (((s.bringTo (s.lastHeard c + s.timeoutOf c)).setTrack c fun k => { k with timeouts := k.timeouts + 1 }).track c).timeouts =
      (s.track c).timeouts + 1 := congrArg Track.timeouts (State.track_setTrack_same ..)
  by_cases h : c = 2
  · subst h
    exact ⟨track, fun _ => rfl, fun h => absurd rfl h, rfl, rfl, State.mono_bringTo ..⟩
  · simp only [timeoutPassed, beq_eq_false_iff_ne.mpr h, Bool.false_eq_true, if_false]
    exact ⟨track, fun e => absurd e h, fun _ => rfl, rfl, rfl, State.mono_bringTo ..⟩

theorem sourceTimeout_eq (c : Nat) (s : State) : sourceTimeout c s = loseSource c (timeoutPassed c s) := rfl

/-- Leaving HOLDOVER for FREE raises nothing and zeroes the frequency (R144). -/
theorem goServo_free {s : State} (holdover : s.time.servo = .holdover) : (goServo .free 0 s).time.servo = .free ∧
    (goServo .free 0 s).time.source = 0 ∧ (goServo .free 0 s).time.freq = 0 ∧ (goServo .free 0 s).time.pending = none ∧
    (goServo .free 0 s).time.mono = s.time.mono ∧ (goServo .free 0 s).fcu = s.fcu := by
  have mono : (closeSeg s.time).mono = s.time.mono := by unfold closeSeg; split <;> rfl
  simp only [goServo, holdover]
  exact ⟨rfl, rfl, rfl, rfl, mono, rfl⟩

/-! ### Clocks (R26, R153, R155) -/

theorem pathFailure_of_failed {path : Nat} {s : State} (h : path < 2) (failed : s.time.pathFailed.getLsbD path = true) :
    pathFailure path s = s := by
  simp only [pathFailure, Nat.mod_eq_of_lt h, failed, if_true]

/-- The state in which a crystal path has failed, before another takes its place (R153). -/
def pathLost (path : Nat) (s : State) : State :=
  { s with time := { s.time with pathFailed := putBit s.time.pathFailed path true }, health := { s.health with oscStandby := false } }

theorem pathFailure_of_good {path : Nat} {s : State} (h : path < 2) (good : s.time.pathFailed.getLsbD path = false) :
    pathFailure path s =
      if s.time.path = decide (path = 1) ∧ s.time.pathFailed.getLsbD (1 - path) = false then
        raiseFault Src.oscPath 0 unitNone { pathLost path s with
          time := { (pathLost path s).time with path := !s.time.path }, em := { s.em with oscB := !s.time.path } }
      else pathLost path s := by
  have one : (path == 1) = decide (path = 1) := rfl
  have other : (if path == 1 then 0 else 1) = 1 - path := by
    obtain rfl | rfl : path = 0 ∨ path = 1 := by omega
    · rfl
    · rfl
  have kept : (putBit s.time.pathFailed path true).getLsbD (1 - path) = s.time.pathFailed.getLsbD (1 - path) := by
    rw [getLsbD_putBit _ _ _ _ h, if_neg (by omega)]
  simp only [pathFailure, Nat.mod_eq_of_lt h, good, Bool.false_eq_true, if_false, other]
  by_cases serves : s.time.path = decide (path = 1)
  · cases alone : s.time.pathFailed.getLsbD (1 - path)
    · simp only [State.modTime, State.modHealth, State.modEm, pathLost, one, serves, kept, alone, beq_self_eq_true, Bool.not_false,
        Bool.and_self, and_self, if_true]
    · simp only [State.modTime, State.modHealth, State.modEm, pathLost, one, serves, kept, alone, Bool.not_true, Bool.and_false,
        Bool.false_eq_true, and_false, reduceCtorEq, if_false]
  · simp only [State.modTime, State.modHealth, State.modEm, pathLost, one, beq_eq_false_iff_ne.mpr serves, serves, Bool.false_and,
        Bool.false_eq_true, false_and, if_false]

/-! ### PPS_OUT (R161, R162) -/

theorem ppsFall_of_none {s : State} (h : s.time.ppsFall = none) : ppsFall s = s := by
  unfold ppsFall
  rw [h]

theorem State.bringVt_frame (s : State) (v : W64) : ∃ vt mono rest eng gates, s.bringVt v =
    { s with time := { s.time with vt64 := vt, mono := mono, rateFrac := rest }, eng := eng, stroke := { s.stroke with gates := gates } } := by
  unfold State.bringVt
  split
  · exact ⟨_, _, _, _, _, rfl⟩
  · exact ⟨s.time.vt64, s.time.mono, s.time.rateFrac, s.eng, s.stroke.gates, rfl⟩

theorem State.bringVt_pins (s : State) (v : W64) : (s.bringVt v).pins = s.pins := by
  obtain ⟨vt, mono, rest, eng, gates, eq⟩ := s.bringVt_frame v
  rw [eq]

theorem ppsFall_of_some {s : State} {m : W64} (h : s.time.ppsFall = some m) : ppsFall s =
    ppsOutEdge { s.bringVt m with pins := { s.pins with ppsOut := false }, time := { (s.bringVt m).time with ppsFall := none } } := by
  unfold ppsFall
  rw [h, ← s.bringVt_pins m]
  rfl

theorem ppsOutEdge_of_stamped {s : State} (h : s.edgeStamped 49 = true) : ppsOutEdge s =
    { s with time := { s.time with ppsOutStamp := s.stamp 49 }, sen := { s.sen with lastEdge := tabSet s.sen.lastEdge 49 s.time.mono } } := by
  unfold ppsOutEdge
  rw [if_pos h]
  rfl

theorem ppsOutEdge_of_missed {s : State} (h : s.edgeStamped 49 = false) : ppsOutEdge s =
    { s with sen := { s.sen with edgeMiss := tabMod s.sen.edgeMiss 49 0 (· + 1) } } := by
  unfold ppsOutEdge
  rw [if_neg (by rw [h]; decide)]
  rfl

theorem ppsOutEdge_frame (s : State) : (ppsOutEdge s).pins = s.pins ∧ ∃ stamp sen,
    ppsOutEdge s = { s with time := { s.time with ppsOutStamp := stamp }, sen := sen } := by
  cases h : s.edgeStamped 49
  · rw [ppsOutEdge_of_missed h]
    exact ⟨rfl, s.time.ppsOutStamp, _, rfl⟩
  · rw [ppsOutEdge_of_stamped h]
    exact ⟨rfl, _, _, rfl⟩

/-- What the end of a pulse leaves of what the next one rests on (R161). -/
theorem ppsFall_frame (s : State) : (ppsFall s).time.counting = s.time.counting ∧ (ppsFall s).time.ppsOfs = s.time.ppsOfs ∧
    (ppsFall s).time.ppsWidth = s.time.ppsWidth ∧ (ppsFall s).quality = s.quality ∧ (ppsFall s).pins.safeHeld = s.pins.safeHeld ∧
    (ppsFall s).time.ppsFall = none := by
  cases h : s.time.ppsFall with
  | none => rw [ppsFall_of_none h]; exact ⟨rfl, rfl, rfl, rfl, rfl, h⟩
  | some m =>
    rw [ppsFall_of_some h]
    obtain ⟨vt, mono, rest, eng, gates, eq⟩ := s.bringVt_frame m
    rw [eq]
    obtain ⟨-, stamp, sen, eq⟩ := ppsOutEdge_frame { s with
      pins := { s.pins with ppsOut := false }
      time := { s.time with vt64 := vt, mono := mono, rateFrac := rest, ppsFall := none }, eng := eng, stroke := { s.stroke with gates := gates } }
    rw [eq]
    exact ⟨rfl, rfl, rfl, rfl, rfl, rfl⟩

/-- Time passes to the next VT64 at which PPS_OUT may rise (R161). -/
def State.toSecond (s : State) : State :=
  if ((s.now.toNat : Int) - s.time.ppsOfs) % 16000000000 == 0 then s
  else s.advanceVt (16000000000 - ((s.now.toNat : Int) - s.time.ppsOfs) % 16000000000).toNat

theorem State.toSecond_frame {s : State} (counting : s.time.counting = true) :
    s.toSecond.now = s.now + w64 ((16000000000 - ((s.now.toNat : Int) - s.time.ppsOfs) % 16000000000) % 16000000000).toNat ∧
    s.toSecond.pins = s.pins ∧ s.toSecond.quality = s.quality ∧ s.toSecond.time.ppsWidth = s.time.ppsWidth ∧
    s.toSecond.time.ppsFall = s.time.ppsFall := by
  unfold State.toSecond
  set r := ((s.now.toNat : Int) - s.time.ppsOfs) % 16000000000 with hr
  by_cases zero : r = 0
  · rw [if_pos (beq_iff_eq.mpr zero), zero]
    exact ⟨(BitVec.add_zero _).symm, rfl, rfl, rfl, rfl⟩
  · rw [if_neg fun h => zero (beq_iff_eq.mp h)]
    refine ⟨?_, rfl, rfl, rfl, rfl⟩
    rw [State.advanceVt, State.elapse_now counting, show (16000000000 - r) % 16000000000 = 16000000000 - r by omega]

/-- The state in which the pulse before is over and the next second has come (R161). -/
theorem ppsRise_frame {s : State} (counting : s.time.counting = true) : ∃ v : State, v = (ppsFall s).toSecond ∧
    v.now = (ppsFall s).now + w64 ((16000000000 - (((ppsFall s).now.toNat : Int) - s.time.ppsOfs) % 16000000000) % 16000000000).toNat ∧
    v.pins = (ppsFall s).pins ∧ v.quality = s.quality ∧ v.pins.safeHeld = s.pins.safeHeld ∧ v.time.ppsWidth = s.time.ppsWidth ∧
    v.time.ppsFall = none := by
  obtain ⟨count, ofs, width, quality, held, fall⟩ := ppsFall_frame s
  obtain ⟨now, pins, quality', width', fall'⟩ := State.toSecond_frame (count.trans counting)
  exact ⟨_, rfl, by rw [now, ofs], pins, quality'.trans quality, by rw [pins, held], width'.trans width, fall'.trans fall⟩

theorem ppsRise_of_gone {s v : State} (hv : v = (ppsFall s).toSecond)
    (h : v.quality = .locked ∨ v.quality = .holdover ∨ v.quality = .lead) (free : v.pins.safeHeld = false) :
    ppsRise s = assertProducer 505 (ppsOutEdge { v with
      pins := { v.pins with ppsOut := true }, time := { v.time with ppsFall := some (v.now + w64 v.time.ppsWidth) } }) := by
  unfold ppsRise
  dsimp only
  rw [show (ite _ _ _ : State) = v from hv.symm]
  obtain h | h | h := h
  all_goals
    rw [h]
    rw [if_neg (by rw [free]; decide)]
    exact congrArg (assertProducer 505) (congrArg ppsOutEdge rfl)

theorem ppsRise_of_held {s v : State} (hv : v = (ppsFall s).toSecond)
    (h : (v.quality = .free ∨ v.quality = .acquire) ∨ v.pins.safeHeld = true) : ppsRise s = v := by
  unfold ppsRise
  dsimp only
  rw [show (ite _ _ _ : State) = v from hv.symm]
  split
  all_goals simp_all

/-! ### TIO balls (R154, R415) -/

theorem tioBallEdge_of_unselected {pin : Nat} {r : Bool} {s : State} (h : edgeSelected (tioEdgeSel (s.sen.tioCfg pin)) r = false) :
    tioBallEdge pin r s = { s with pins := { s.pins with tioIn := putBit s.pins.tioIn pin r } } := by
  simp only [tioBallEdge, h, Bool.not_false, if_true]
  rfl

theorem tioBallEdge_of_missed {pin : Nat} {r : Bool} {s : State} (selected : edgeSelected (tioEdgeSel (s.sen.tioCfg pin)) r = true)
    (early : s.edgeStamped pin = false) : tioBallEdge pin r s =
    { s with pins := { s.pins with tioIn := putBit s.pins.tioIn pin r }, sen := { s.sen with
      tio := tabSet s.sen.tio pin (w32 ((s.sen.tioCfg pin).toNat + 2 ^ 24 * (if bitsAt (s.sen.tioCfg pin).toNat 24 8 = 255 then 0 else 1))) } } := by
  have early' : (s.modPins fun x => { x with tioIn := putBit x.tioIn pin r }).edgeStamped pin = false := early
  simp only [tioBallEdge, selected, early', Bool.not_false, Bool.not_true, Bool.false_eq_true, if_false, if_true, beq_iff_eq]
  rfl

theorem tioBallEdge_of_stamped {pin : Nat} {r : Bool} {s : State} (selected : edgeSelected (tioEdgeSel (s.sen.tioCfg pin)) r = true)
    (stamped : s.edgeStamped pin = true) : ∃ v : State, v.pins = { s.pins with tioIn := putBit s.pins.tioIn pin r } ∧
    tabFind v.sen.lastEdge pin = some s.time.mono ∧ v = { s with pins := v.pins, sen := v.sen } ∧
    tioBallEdge pin r s = postBound 4 (· == 0x5000 + pin) none (s.stamp pin) s.quality
      { v with sen := (v.sen.assert pin s.senCycle).put { prod := pin, ch := 64 + pin, due := s.senCycle + 2, consumers := v.sen.pinConsumers pin, stamp := some (s.stamp pin, s.quality) } } := by
  have stamped' : (s.modPins fun x => { x with tioIn := putBit x.tioIn pin r }).edgeStamped pin = true := stamped
  refine ⟨markEdge pin (s.modPins fun x => { x with tioIn := putBit x.tioIn pin r }), rfl, markEdge_lastEdge .., rfl, ?_⟩
  simp only [tioBallEdge, selected, stamped', Bool.not_true, Bool.false_eq_true, if_false]
  rfl

/-! ### The rows -/

/-- Settles O16: each row by the equation of its meaning where its guard holds. -/
theorem referenceRows : Obligations.ReferenceRows := by
  intro s alive
  refine ⟨fun r counting other => ?_, fun r counting chosen early => ?_, fun r counting chosen stamped => ?_,
    fun c one five valid => ?_, fun holdover => ?_, fun on => ?_, fun off => ?_, fun path two failed => ?_,
    fun path two good serves other => ?_, fun path two good stays => ?_, fun pin residual code counting hpin small => ?_,
    fun pin residual code counting hpin large => ?_, fun counting => ?_, fun u ready counting idle ended => ?_, fun m pulse => ?_,
    fun idle => ?_, fun val ready => ?_, fun pin r counting hpin unselected => ?_, fun pin r counting hpin selected early => ?_,
    fun pin r counting hpin selected stamped => ?_⟩
  · exact Runs.of_act (show _ = execPpsInEdge r s from rfl) (by rw [alive, counting]; rfl) (ppsInEdge_of_other other)
  · exact Runs.of_act (show _ = execPpsInEdge r s from rfl) (by rw [alive, counting]; rfl) (ppsInEdge_of_missed chosen early)
  · exact Runs.of_act (show _ = execPpsInEdge r s from rfl) (by rw [alive, counting]; rfl)
      ⟨_, markEdge_lastEdge 48 s, rfl, ppsInEdge_of_stamped chosen stamped⟩
  · refine Runs.of_act (show _ = execSourceTimeout c s from rfl) (by simpa [alive, inRange, one, five] using valid) ?_
    obtain ⟨timeouts, pps, others, source, servo, mono⟩ := timeoutPassed_frame c s
    refine ⟨_, timeouts, pps, others, source, mono, sourceTimeout_eq c s, lastHeard_of_track, fun r pps ref => ?_, fun away => ?_⟩
    · subst pps
      simp only [State.lastHeard, ref]
    · rw [sourceTimeout_eq, loseSource_of_other (source.trans_ne away), State.track_setTrack_same]
      exact ⟨rfl, rfl, rfl, servo⟩
  · refine Runs.of_act (show _ = execHoldoverLimitExpiry s from rfl) (by rw [alive, holdover]; rfl) ?_
    obtain ⟨servo, source, freq, pending, mono, fcu⟩ := goServo_free (s := s.bringTo
      (16000000 * (if s.time.holdLimit == 0 then 300000 else s.time.holdLimit) + s.time.holdFrom)) holdover
    refine ⟨_, servo, source, freq, pending, ?_, fcu, rfl⟩
    rw [mono]
    simpa only [beq_iff_eq] using State.mono_bringTo s (16000000 * (if s.time.holdLimit == 0 then 300000 else s.time.holdLimit) + s.time.holdFrom)
  · exact Runs.of_act (show _ = execRef10InLoss s from rfl) alive (if_pos on)
  · exact Runs.of_act (show _ = execRef10InLoss s from rfl) alive (if_neg (by rw [off]; decide))
  · exact Runs.of_act (show _ = execCrystalPathFailure path s from rfl) (by rw [alive, decide_eq_true two]; rfl) (pathFailure_of_failed two failed)
  · refine Runs.of_act (show _ = execCrystalPathFailure path s from rfl) (by rw [alive, decide_eq_true two]; rfl) ?_
    rw [pathFailure_of_good two good, if_pos ⟨serves, other⟩]
    exact ⟨_, rfl, rfl, rfl, rfl, rfl⟩
  · refine Runs.of_act (show _ = execCrystalPathFailure path s from rfl) (by rw [alive, decide_eq_true two]; rfl) ?_
    rw [pathFailure_of_good two good, if_neg]
    · rfl
    · rintro ⟨serves, alone⟩
      obtain away | failed := stays
      · exact away serves
      · rw [alone] at failed
        cases failed
  · refine Runs.of_act (show _ = execTdcRecalibration pin residual code s from rfl) (by rw [alive, counting, decide_eq_true hpin]; rfl) ?_
    exact if_neg (Nat.not_lt.mpr small)
  · refine Runs.of_act (show _ = execTdcRecalibration pin residual code s from rfl) (by rw [alive, counting, decide_eq_true hpin]; rfl) ?_
    exact if_pos large
  · exact Runs.of_act (show _ = execVt64Save s from rfl) (by rw [alive, counting]; rfl) rfl
  · obtain ⟨v, hv, now, pins, quality, held, width, fall⟩ := ppsRise_frame counting
    have done : u = ppsFall s := by
      cases pulse : s.time.ppsFall with
      | none => rw [idle pulse, ppsFall_of_none pulse]
      | some m =>
        have ran := ended m pulse
        rw [show exec .ppsOutFall s = act s.alive ppsFall s from rfl, act_true alive] at ran
        cases ran
        rfl
    have up : (s.alive && s.ready Rdy.pps) = true := by rw [alive, ready]; rfl
    subst done
    refine ⟨fun lock free => ?_, fun lost => ?_⟩
    · refine Runs.of_act (show _ = execPpsOutRise s from rfl) up ⟨v, now, pins, ?_⟩
      rw [ppsRise_of_gone hv (by rw [quality]; exact lock) (held.trans free), width, pins]
    · refine Runs.of_act (show _ = execPpsOutRise s from rfl) up ?_
      rw [ppsRise_of_held hv (by rw [quality, held]; exact lost)]
      exact ⟨pins, fall⟩
  · refine Runs.of_act (show _ = execPpsOutFall s from rfl) alive ?_
    refine ⟨s.bringVt m, { s.bringVt m with pins := { s.pins with ppsOut := false }, time := { (s.bringVt m).time with ppsFall := none } },
      rfl, fun counting => State.bringVt_now counting, rfl, fun stamped => ?_, fun early => ?_⟩
    · rw [ppsFall_of_some pulse, ppsOutEdge_of_stamped stamped]
    · rw [ppsFall_of_some pulse, ppsOutEdge_of_missed early]
  · exact Runs.of_act (show _ = execPpsOutFall s from rfl) alive (ppsFall_of_none idle)
  · exact Runs.of_act (show _ = execTePtmOfsWrite val s from rfl) (by rw [alive, ready]; rfl) rfl
  all_goals refine Runs.of_act (show _ = execTioEdge pin r s from rfl) (by rw [alive, counting, decide_eq_true hpin]; rfl) ?_
  · exact tioBallEdge_of_unselected unselected
  · exact tioBallEdge_of_missed selected early
  · exact tioBallEdge_of_stamped selected stamped

end Sys2Proof.Machine
end

section
/-! PROOFS. Register-to-register instructions of the engine core (R214 to R216, R244 to R264). -/
namespace Sys2Proof.Machine

/-- A register operation that issues completes with what `pureOp` says it writes. -/
theorem Runs.of_pure {i : Instr} {e : Eng} {op : EOp} {cls : EClass} {s u : State} {ws : List (Nat × W32)} {flags : Nat}
    (meaning : exec i s = issue e cls (doPure e) s) (issues : Issues e op s u) (ofClass : op.cls = cls)
    (result : pureOp (u.engine e) op = some (ws, flags)) : Runs i s (Completes e ws flags u) := by
  refine Runs.of_issue meaning issues ofClass ?_ (t := complete e ws flags u) rfl
  rw [doPure, result, Option.map_some]

theorem pairWrites_eq (rd v : Nat) : pairWrites rd v = [(rd, w32 v), (rd + 1, w32 (v / 2 ^ 32))] := rfl

/-- The sources of an arithmetic instruction, a minimum, a maximum or a comparison are all of one format (R216). -/
theorem fpResult_of_le {f : Nat} (h : f ≤ 8) (x : Engine) (dbl : Bool) (rd a b c : Nat) :
    fpResult x f dbl rd a b c = (fun r : Nat × Nat =>
      (if dbl && f < 6 then [(rd, w32 r.1), (rd + 1, w32 (r.1 / 2 ^ 32))] else [(rd, w32 r.1)], r.2))
      (fpOp f dbl (fcsrRm x.fcsr) (if dbl then x.pair a else (x.reg a).toNat) (if dbl then x.pair b else (x.reg b).toNat)
        (if dbl then x.pair c else (x.reg c).toNat)) := by
  have single : (inRange f 6 9 || f == 10) = !decide (f < 6) := by
    simp only [inRange, beq_eq_false_iff_ne.mpr (show f ≠ 10 by omega), Bool.or_false]
    by_cases low : f < 6
    · simp [low, Nat.not_le.mpr low]
    · simp [low, Nat.not_lt.mp low, show f < 9 by omega]
  simp only [fpResult, beq_eq_false_iff_ne.mpr (show f ≠ 9 by omega), beq_eq_false_iff_ne.mpr (show f ≠ 11 by omega), single,
    Bool.false_eq_true, if_false, pairWrites_eq]
  by_cases low : f < 6
  · simp [low]
  · simp [low]

theorem fp_cls (f : Nat) (dbl : Bool) (rd a b c : Nat) :
    (EOp.fp f dbl rd a b c).cls = if f ≤ 3 then .fpArith else if f ≤ 8 then .fpMinMaxCompare else .fpConvert := rfl

/-- Settles O17: each instruction by what `pureOp` says of it; a division by its own meaning. -/
theorem scalarRegisterRows : Obligations.ScalarRegisterRows := by
  intro e s u x hx
  subst hx
  refine ⟨fun f rd a b issues => ?_, fun rd a b c issues => ?_, fun f rd a b issues => ?_, fun f rd a i issues => ?_,
    fun k rd a sh issues => ?_, fun rd i issues => ?_, fun rd i issues => ?_, fun f rd a b c issues => ?_, fun f rd a issues => ?_,
    fun rd a b issues => ?_, fun f rd a b wide issues => ?_, fun rd a b c issues => ?_, fun f rd a b issues => ?_, fun d live runs => ?_,
    fun f dbl rd a b c low issues => ?_, fun f dbl rd a b c low high issues => ?_, fun f dbl rd a b c high issues => ?_⟩
  · exact Runs.of_pure rfl issues rfl rfl
  · refine Runs.of_pure rfl issues rfl ?_
    simp only [pureOp, bne_iff_ne, ne_eq, ite_not]
  · exact Runs.of_pure rfl issues rfl rfl
  · exact Runs.of_pure rfl issues rfl rfl
  · exact Runs.of_pure rfl issues rfl rfl
  · rw [Nat.mul_comm]
    exact Runs.of_pure rfl issues rfl rfl
  · rw [Nat.mul_comm]
    exact Runs.of_pure rfl issues rfl rfl
  · exact Runs.of_pure rfl issues rfl rfl
  · exact Runs.of_pure rfl issues rfl rfl
  · exact Runs.of_pure rfl issues rfl rfl
  · refine Runs.of_pure rfl issues rfl ?_
    simp only [pureOp, beq_eq_false_iff_ne.mpr wide, Bool.false_eq_true, if_false, pairWrites_eq]
  · exact Runs.of_pure rfl issues rfl rfl
  · exact Runs.of_issue (f := doDivide e) rfl issues rfl rfl rfl
  · refine Runs.of_act (show _ = execDivideComplete e s from rfl) (by rw [live, runs]; rfl) ?_
    have flag : 8 * bit d.dz = if d.dz then 8 else 0 := by cases d.dz <;> rfl
    unfold divideDone
    rw [runs, ← flag]
    rfl
  · refine Runs.mono (Runs.of_pure rfl issues ((fp_cls ..).trans (if_pos low)) (congrArg some (fpResult_of_le (by omega) ..))) ?_
    rintro t done r rfl
    rw [show (dbl && decide (f < 6)) = dbl by rw [decide_eq_true (by omega), Bool.and_true]] at done
    exact done
  · refine Runs.mono (Runs.of_pure rfl issues ((fp_cls ..).trans ((if_neg (by omega)).trans (if_pos high))) (congrArg some (fpResult_of_le high ..))) ?_
    rintro t done r rfl
    exact done
  · exact Runs.of_pure rfl issues ((fp_cls ..).trans ((if_neg (by omega)).trans (if_neg (by omega)))) rfl

end Sys2Proof.Machine
end

section
/-! PROOFS. Loads, stores, atomics and paired words of the engine core (R213, R214, R226 to R241, R314, R393). -/
namespace Sys2Proof.Machine

/-! ### State rules -/

theorem tabSet_tabSet {α : Type} (t : Tab α) (i : Nat) (v w : α) : tabSet (tabSet t i v) i w = tabSet t i w := by
  induction t with
  | nil => simp [tabSet]
  | cons p t ih =>
    obtain ⟨k, u⟩ := p
    by_cases below : i < k
    · simp [tabSet, below]
    · by_cases same : i = k
      · subst same
        simp [tabSet]
      · simp [tabSet, below, same, ih]

theorem State.setEngine_setEngine (s : State) (e : Eng) (f g : Engine → Engine) :
    (s.setEngine e f).setEngine e g = s.setEngine e fun x => g (f x) := by
  simp only [State.setEngine, State.modEng, tabMod, tabGet_tabSet_same, tabSet_tabSet]

/-- An instruction that stalls changes nothing. -/
theorem issue_of_stall {e : Eng} {op : EOp} {s u : State} {f : EOp → State → Option State} (issues : Issues e op s u)
    (stall : f op u = none) : issue e op.cls f s = .next s := by
  obtain ⟨w, fetched, decoded⟩ := issues.fetched
  simp only [issue, issues.live, Bool.not_true, Bool.false_eq_true, if_false, fetched, decoded, bne_self_eq_false, issues.place,
    issues.ready, stall, Option.getD_none]

theorem Runs.of_stall {i : Instr} {e : Eng} {op : EOp} {cls : EClass} {s u : State} {f : EOp → State → Option State}
    {P : State → Prop} (meaning : exec i s = issue e cls f s) (issues : Issues e op s u) (ofClass : op.cls = cls)
    (stall : f op u = none) (holds : P s) : Runs i s P :=
  ⟨s, by rw [meaning, ← ofClass, issue_of_stall issues stall], holds⟩

theorem excOr_of_done {e : Eng} {s : State} (done : (s.engine e).loads = []) (c : Cause) : excOr e c s = some (raiseExc e c s) := by
  unfold excOr
  rw [done]
  rfl

/-! ### Bytes of a word -/

theorem leBytes_leNat (b : List Byte) : leBytes b.length (leNat b) = b := by
  induction b with
  | nil => rfl
  | cons x b ih =>
    have low : BitVec.ofNat 8 (x.toNat + 256 * leNat b) = x := BitVec.eq_of_toNat_eq (by
      have := x.isLt
      simp only [BitVec.toNat_ofNat]
      omega)
    have high : (x.toNat + 256 * leNat b) / 256 = leNat b := by have := x.isLt; omega
    simp only [List.length_cons, leBytes, leNat, low, high, ih]

theorem leNat_lt (b : List Byte) : leNat b < 256 ^ b.length := by
  induction b with
  | nil => decide
  | cons x b ih =>
    have := x.isLt
    simp only [leNat, List.length_cons, Nat.pow_succ]
    omega

theorem leBytes_w32_leNat {b : List Byte} (h : b.length = 4) : leBytes 4 (w32 (leNat b)).toNat = b := by
  have small := leNat_lt b
  rw [h] at small
  rw [w32, BitVec.toNat_ofNat, Nat.mod_eq_of_lt (by omega), ← h, leBytes_leNat]

/-! ### Loads (R226 to R233, R241) -/

theorem load_cls {kind : Nat} (h : kind ≠ 5) (rt base am amf : Nat) : (EOp.load kind rt base am amf).cls = .load := by
  simp only [EOp.cls, beq_eq_false_iff_ne.mpr h, Bool.false_eq_true, if_false]

/-- A load whose bytes are there takes them: from a buffered store, or from memory where the address is no FG_NEXT of its. -/
theorem loadGo_of_bytes {e : Eng} {a n : Nat} {go : List Byte → State → State} {s v : State} {b : List Byte}
    (h : loadWay e a n s = .forward b ∧ v = s ∨
      loadWay e a n s = .out ∧ (n = 4 → a % 4 = 0 → fgNextAt e a s = none) ∧ readPieces e n (pieces a n) s = (.ok b, v)) :
    loadGo e a n go s = some (go b v) := by
  obtain ⟨way, rfl⟩ | ⟨way, gate, read⟩ := h
  · simp only [loadGo, way]
  · have free : (if n == 4 && a % 4 == 0 then fgNextAt e a s else none) = none := by
      split
      · next h =>
        simp only [Bool.and_eq_true, beq_iff_eq] at h
        exact gate h.1 h.2
      · rfl
    simp only [loadGo, way, free, read]

theorem loadGo_of_error {e : Eng} {a n : Nat} {go : List Byte → State → State} {s v : State} {f : W32}
    (way : loadWay e a n s = .out) (gate : n = 4 → a % 4 = 0 → fgNextAt e a s = none)
    (read : readPieces e n (pieces a n) s = (.error f, v)) : loadGo e a n go s = some (failLoad e f v) := by
  have free : (if n == 4 && a % 4 == 0 then fgNextAt e a s else none) = none := by
    split
    · next h =>
      simp only [Bool.and_eq_true, beq_iff_eq] at h
      exact gate h.1 h.2
    · rfl
  simp only [loadGo, way, free, read]

theorem loadGo_of_wait {e : Eng} {a n : Nat} {go : List Byte → State → State} {s : State} (way : loadWay e a n s = .wait) :
    loadGo e a n go s = none := by
  simp only [loadGo, way]

/-- A load with room in the queue of loads, at its address. -/
theorem doLoad_eq {e : Eng} {s : State} {kind rt base am amf : Nat} {ea : W32} {upd : Option W32} (room : (s.engine e).loads.length < 4)
    (target : address (s.engine e).reg (fun i => ((s.engine e).modBase.toList[i]?).getD 0) (fun i => ((s.engine e).modLen.toList[i]?).getD 0)
      base am amf = (ea, upd)) : doLoad e (.load kind rt base am amf) s =
    loadGo e (loadAddr kind ea) (loadSize kind) (fun b => issueLoad e base upd (loadWrites kind rt (loadTurn kind ea b))
      (base == rt || (kind == 6 && base == rt + 1))) s := by
  simp only [doLoad, Nat.not_le.mpr room, if_false, Engine.address, target]

theorem doLoad_of_full {e : Eng} {s : State} (full : 4 ≤ (s.engine e).loads.length) (kind rt base am amf : Nat) :
    doLoad e (.load kind rt base am amf) s = none := by
  simp only [doLoad, full, if_true]

theorem loadAddr_of_ne {kind : Nat} (h : kind ≠ 5) (ea : W32) : loadAddr kind ea = ea.toNat := by
  simp only [loadAddr, beq_eq_false_iff_ne.mpr h, Bool.false_eq_true, if_false]

theorem loadTurn_of_ne {kind : Nat} (h : kind ≠ 5) (ea : W32) (b : List Byte) : loadTurn kind ea b = b := by
  simp only [loadTurn, beq_eq_false_iff_ne.mpr h, Bool.false_eq_true, if_false]

/-- What LWX writes of the bytes of a word. -/
theorem loadWrites_lwx {b : List Byte} (h : b.length = 4) (rt : Nat) (ea : W32) : loadWrites 5 rt (loadTurn 5 ea b) =
    if rt == 0 then [] else [(rt, (w32 (leNat b)).rotateRight (8 * (ea.toNat % 4)))] := by
  have word := loadWrites_word 5 rt ea (w32 (leNat b)) (.inr rfl)
  rwa [leBytes_w32_leNat h] at word

theorem loadWrites_lw (rt : Nat) (b : List Byte) : loadWrites 4 rt b = if rt == 0 then [] else [(rt, w32 (leNat b))] := by
  by_cases z : rt = 0 <;> simp [loadWrites, z]

/-- A read of FG_NEXT whose entry has been taken ends the job, then takes the next one's or waits (R187). -/
theorem fgNextLoad_of_taken {e : Eng} {k : Nat} {go : W32 → State → State} {s : State} (idle : (s.engine e).chordsAt false = false)
    (taken : (s.gate k).fresh = false) : fgNextLoad e k go s =
      if ((endJob k s).gate k).fresh then some (go ((endJob k s).gate k).entry ((endJob k s).setGate k fun g => { g with fresh := false }))
      else some ((endJob k s).setEngine e fun x => { x with fgWait := true }) := by
  simp only [fgNextLoad, idle, taken, Bool.false_eq_true, if_false]

/-! ### Stores (R241, R314, R393) -/

/-- A store enters the buffer: its own bytes and place, and the words of the fetch queue it meets. -/
def Engine.bufferStore (a : Nat) (bs : List Byte) (y : Engine) : Engine :=
  { (y.noteStore a bs) with stores := y.stores ++ [{ addr := a, bytes := bs, seq := y.storeSeq }], storeSeq := y.storeSeq + 1 }

section
variable {e : Eng} {a : Nat} {bs : List Byte} {done : Engine → Engine} {s : State}
  (room : (s.engine e).stores.length < 8) (scalar : (s.engine e).vq.any (·.store) = false)
  (free : (isFgDone e a bs s && (s.engine e).chordsAt false) = false)
include room scalar free

theorem storeOp_eq : storeOp e a bs done s = (match isGo e a bs s with
    | none => some (s.setEngine e fun y => done (y.bufferStore a bs))
    | some (n, ch) =>
      if (s.engine e).priv == 0 then excOr e privCause s
      else if n != e.course then some (s.setEngine e fun y => done (y.bufferStore a bs))
      else if 4 ≤ (s.engine e).starts.length then none
      else some (s.setEngine e fun y => done (Engine.bufferStore a bs { y with starts := y.starts ++ [.dma ch y.pc] }))) := by
  simp only [storeOp, decide_eq_false (Nat.not_le.mpr room), scalar, free, Bool.or_self, Bool.false_eq_true, if_false]
  rfl

/-- A store that starts no channel of its engine's course is queued. -/
theorem storeOp_of_plain
    (plain : isGo e a bs s = none ∨ ∃ n ch, isGo e a bs s = some (n, ch) ∧ n ≠ e.course ∧ (s.engine e).priv ≠ 0) :
    storeOp e a bs done s = some (s.setEngine e fun y => done (y.bufferStore a bs)) := by
  rw [storeOp_eq room scalar free]
  obtain go | ⟨n, ch, go, away, priv⟩ := plain
  · simp only [go]
  · simp only [go, beq_eq_false_iff_ne.mpr priv, bne_iff_ne.mpr away, Bool.false_eq_true, if_false, if_true]

theorem storeOp_of_go {ch : Nat} (go : isGo e a bs s = some (e.course, ch)) (priv : (s.engine e).priv ≠ 0)
    (starts : (s.engine e).starts.length < 4) : storeOp e a bs done s =
      some (s.setEngine e fun y => done (Engine.bufferStore a bs { y with starts := y.starts ++ [.dma ch y.pc] })) := by
  rw [storeOp_eq room scalar free]
  simp only [go, beq_eq_false_iff_ne.mpr priv, bne_self_eq_false, Nat.not_le.mpr starts, Bool.false_eq_true, if_false]

theorem storeOp_of_user {g : Nat × Nat} (go : isGo e a bs s = some g) (user : (s.engine e).priv = 0)
    (loaded : (s.engine e).loads = []) : storeOp e a bs done s = some (raiseExc e privCause s) := by
  rw [storeOp_eq room scalar free]
  simp only [go, user, beq_self_eq_true, if_true]
  exact excOr_of_done loaded _

end

theorem doStore_eq {e : Eng} {s : State} {kind rt base am amf : Nat} {ea : W32} {upd : Option W32}
    (target : address (s.engine e).reg (fun i => ((s.engine e).modBase.toList[i]?).getD 0) (fun i => ((s.engine e).modLen.toList[i]?).getD 0)
      base am amf = (ea, upd)) : doStore e (.store kind rt base am amf) s =
    storeOp e ea.toNat (leBytes (2 ^ kind) (if kind == 3 then (s.engine e).pair rt else ((s.engine e).reg rt).toNat))
      (fun y => (y.withBase base upd).retire 0 none) s := by
  simp only [doStore, Engine.address, target]
  rfl

theorem pushAsync_of_room {e : Eng} {s : State} (room : (s.engine e).asyncQ.length < 12) (x : AsyncErr) :
    pushAsync e x s = s.setEngine e fun g => { g with asyncQ := g.asyncQ ++ [x] } :=
  if_pos room

/-- The start an engine's buffered store belongs to: that of its go, none of another store (R393). -/
def storeStart (e : Eng) (st : StoreEnt) (s : State) : W32 :=
  match isGo e st.addr st.bytes s with
  | some (_, ch) => ((startOf (eMaster e) ch s).map (·.2)).getD 0
  | none => 0

theorem storeStart_eq {e : Eng} {st : StoreEnt} {s : State} {instr : W32}
    (ofGo : ∀ n ch, isGo e st.addr st.bytes s = some (n, ch) → instr = ((startOf (eMaster e) ch s).map (·.2)).getD 0)
    (plain : isGo e st.addr st.bytes s = none → instr = 0) : storeStart e st s = instr := by
  unfold storeStart
  split
  · next n ch go => exact (ofGo n ch go).symm
  · next go => exact (plain go).symm

/-- What a buffered store leaves where its target answers with an error: a refused go is no start (R230, R393). -/
def storeFailed (e : Eng) (st : StoreEnt) (instr a : W32) (s v : State) : State :=
  match isGo e st.addr st.bytes s with
  | some (_, ch) => pushAsync e (.buserr a) (v.setEngine e fun x => { x with starts := x.starts.erase (.dma ch instr) })
  | none => pushAsync e (.buserr a) v

/-- A buffered store at its turn is taken from the buffer and written (R241). -/
theorem storeAck_eq {e : Eng} {i : Nat} {s : State} {st : StoreEnt} (ready : storeReady e (s.engine e) i = some st) :
    storeAck e i s = (fun r : Option W32 × State => r.1.elim r.2 fun a => storeFailed e st (storeStart e st s) a s r.2)
      (writePieces e (storeStart e st s) st.bytes (pieces st.addr st.bytes.length) 0
        (s.setEngine e fun y => { y with stores := y.stores.eraseIdx i })) := by
  unfold storeAck storeStart storeFailed
  split
  · next none' => rw [ready] at none'; cases none'
  · next found =>
    rw [ready] at found
    cases found
    cases isGo e st.addr st.bytes s with
    | none =>
      dsimp only
      generalize writePieces _ _ _ _ _ _ = r
      obtain ⟨r, v⟩ := r
      cases r <;> rfl
    | some g =>
      dsimp only
      generalize writePieces _ _ _ _ _ _ = r
      obtain ⟨r, v⟩ := r
      cases r <;> rfl

/-! ### Atomics and paired words (R213, R214, R234) -/

/-- An atomic on a word of LSP or CSM that is read and written. -/
theorem doAtomic_of_done {e : Eng} {f rt base src o : Nat} {m : MemRef} {s v w : State} {bs : List (Option Byte)} {b : List Byte}
    (aligned : ((s.engine e).reg base).toNat % 4 = 0) (scalar : (s.engine e).vq.any (·.store) = false)
    (clear : (s.engine e).stores.any (·.meets ((s.engine e).reg base).toNat 4) = false)
    (place : regionOf (s.engine e).remap ((s.engine e).reg base).toNat = .lsp o ∧ m = .lsp e.course e.phys ∨
      regionOf (s.engine e).remap ((s.engine e).reg base).toNat = .csm o ∧ s.csmOk e.course = true ∧ m = .csm e.course)
    (load : memLoad m o 4 s = (bs, v)) (all : allBytes bs = some b)
    (store : memStore m o (leBytes 4 (amoOp f (w32 (leNat b)) ((s.engine e).reg src)).toNat) v = (true, w)) :
    doAtomic e (.amo f rt base src) s = some (complete e [(rt, w32 (leNat b))] 0 (w.setEngine e
      (Engine.noteStore ((s.engine e).reg base).toNat (leBytes 4 (amoOp f (w32 (leNat b)) ((s.engine e).reg src)).toNat)))) := by
  obtain ⟨region, rfl⟩ | ⟨region, ok, rfl⟩ := place
  · simp only [doAtomic, aligned, bne_self_eq_false, scalar, clear, Bool.or_self, Bool.false_eq_true, if_false, region, load, all, store, if_true]
  · simp only [doAtomic, aligned, bne_self_eq_false, scalar, clear, Bool.or_self, Bool.false_eq_true, if_false, region, ok, load, all, store, if_true]

theorem find?_sopMem_none {a b : Nat} (ha : sopMem a = false) (hb : sopMem b = false) : [a, b].find? sopMem = none := by
  simp [ha, hb]

/-! ### The rows -/

/-- Settles O18: each access by the lemma of its way, its class met by the instruction at pc. -/
theorem scalarMemoryRows : Obligations.ScalarMemoryRows := by
  intro e s u x hx
  subst hx
  refine ⟨fun kind rt base am amf ea upd b v ne issues room target bytes => ?_,
    fun kind rt base am amf ea upd f v ne issues room target way gate read => ?_,
    fun kind rt base am amf ea upd ne issues target waits => ?_,
    fun rt base am amf ea upd k issues room target aligned gate way idle => ?_,
    fun rt base am amf ea upd b v a issues room target place bytes length => ?_,
    fun rt base am amf ea upd f v a issues room target place way gate read => ?_,
    fun l ls live loads good => ?_, fun l ls a live loads bad => ?_,
    fun kind rt base am amf ea upd bs issues room scalar target data free plain => ?_,
    fun kind rt base am amf ea upd bs ch issues room scalar target data free go priv starts => ?_,
    fun kind rt base am amf ea upd bs g issues room scalar target data free go user loaded => ?_,
    fun i st v instr r alive ok ready ofGo plain write => ?_, fun i alive ok none' => ?_,
    fun f rt base src m o bs b v w issues aligned scalar clear place load all store => ?_,
    fun f rt base src issues misaligned loaded => ?_, fun a b issues ha hb => ?_,
    fun a b h bs ea issues found store room scalar place data free plain => ?_,
    fun a b h bs v ea issues found load room place bytes => ?_⟩
  · refine Runs.of_issue (f := doLoad e) rfl issues (load_cls ne ..) ?_ rfl
    rw [doLoad_eq room target, loadAddr_of_ne ne, loadGo_of_bytes bytes, loadTurn_of_ne ne]
  · refine Runs.of_issue (f := doLoad e) rfl issues (load_cls ne ..) ?_ rfl
    rw [doLoad_eq room target, loadAddr_of_ne ne, loadGo_of_error way gate read]
    rfl
  · refine Runs.of_stall (f := doLoad e) rfl issues (load_cls ne ..) ?_ rfl
    obtain full | way := waits
    · exact doLoad_of_full full ..
    · by_cases full : 4 ≤ (u.engine e).loads.length
      · exact doLoad_of_full full ..
      · rw [doLoad_eq (Nat.not_le.mp full) target, loadAddr_of_ne ne, loadGo_of_wait way]
  · have eq : doLoad e (.load 4 rt base am amf) u = fgNextLoad e k (fun v => issueLoad e base upd
        (if rt == 0 then [] else [(rt, v)]) (base == rt)) u := by
      rw [doLoad_eq room target]
      refine (loadGo_of_fgNext way aligned gate).trans ?_
      simp only [loadWrites_word 4 rt ea _ (.inl rfl), if_true, show (4 == 6) = false from rfl, Bool.false_and, Bool.or_false]
    refine ⟨fun fresh => ?_, fun v taken done waits => ?_, fun v taken done fresh => ?_⟩
    · exact Runs.of_issue (f := doLoad e) rfl issues rfl (eq.trans (fgNextLoad_of_fresh idle fresh)) rfl
    · subst done
      refine Runs.of_issue (f := doLoad e) rfl issues rfl ((eq.trans (fgNextLoad_of_taken idle taken)).trans (if_neg (by rw [waits]; decide))) rfl
    · subst done
      refine Runs.of_issue (f := doLoad e) rfl issues rfl ((eq.trans (fgNextLoad_of_taken idle taken)).trans (if_pos fresh)) rfl
  · subst place
    refine Runs.of_issue (f := doLoad e) rfl issues rfl ?_ rfl
    rw [doLoad_eq room target]
    refine (loadGo_of_bytes (bytes.imp_right fun ⟨way, gate, read⟩ => ⟨way, fun _ _ => gate, read⟩)).trans ?_
    simp only [loadWrites_lwx length, show (5 == 6) = false from rfl, Bool.false_and, Bool.or_false]
  · subst place
    refine Runs.of_issue (f := doLoad e) rfl issues rfl ?_ rfl
    rw [doLoad_eq room target]
    exact loadGo_of_error way (fun _ _ => gate) read
  · refine Runs.of_act (show _ = execLoadReturn e s from rfl) (by rw [live, loads]; rfl) ?_
    unfold loadReturn
    rw [loads]
    simp only [good]
    rfl
  · refine Runs.of_act (show _ = execLoadReturn e s from rfl) (by rw [live, loads]; rfl) ?_
    unfold loadReturn
    rw [loads]
    simp only [bad]
  · subst data
    refine Runs.of_issue (f := doStore e) rfl issues rfl ?_ rfl
    rw [doStore_eq target, storeOp_of_plain room scalar free plain]
    rfl
  · subst data
    refine Runs.of_issue (f := doStore e) rfl issues rfl ?_ rfl
    rw [doStore_eq target, storeOp_of_go room scalar free go priv starts]
    rfl
  · subst data
    refine Runs.of_issue (f := doStore e) rfl issues rfl ?_ rfl
    rw [doStore_eq target, storeOp_of_user room scalar free go user loaded]
  · have eq := storeAck_eq ready
    rw [storeStart_eq ofGo plain, write] at eq
    have up : (s.alive && Eng.ok e) = true := by rw [alive, ok]; rfl
    refine ⟨fun done => ?_, fun a fails noGo room => ?_, fun a n ch fails go room => ?_⟩
    all_goals refine Runs.of_act (show _ = execStoreAck e i s from rfl) up (eq.trans ?_)
    · subst done
      rfl
    · subst fails
      refine Eq.trans ?_ (pushAsync_of_room room (.buserr a))
      simp only [Option.elim_some, storeFailed, noGo]
    · subst fails
      refine Eq.trans ?_ ((pushAsync_of_room ?_ (.buserr a)).trans (State.setEngine_setEngine v e
        (fun x => { x with starts := x.starts.erase (.dma ch instr) }) _))
      · simp only [Option.elim_some, storeFailed, go]
      · rw [State.engine_setEngine_same]
        exact room
  · refine Runs.of_act (show _ = execStoreAck e i s from rfl) (by rw [alive, ok]; rfl) ?_
    unfold storeAck
    rw [none']
  · exact Runs.of_issue (f := doAtomic e) rfl issues rfl (doAtomic_of_done aligned scalar clear place load all store) rfl
  · refine Runs.of_issue (f := doAtomic e) rfl issues rfl ?_ rfl
    simp only [doAtomic, bne_iff_ne.mpr misaligned, if_true]
    exact excOr_of_done loaded _
  · refine Runs.of_issue (f := doPaired e) rfl issues rfl ?_ rfl
    simp only [doPaired, find?_sopMem_none ha hb]
    rfl
  · subst place data
    refine Runs.of_issue (f := doPaired e) rfl issues rfl ?_ rfl
    simp only [doPaired, found, store, beq_self_eq_true, if_true]
    rw [storeOp_of_plain room scalar free (.inl plain)]
    rfl
  · subst place
    refine Runs.of_issue (f := doPaired e) rfl issues rfl ?_ rfl
    simp only [doPaired, found, beq_eq_false_iff_ne.mpr load, Bool.false_eq_true, if_false, Nat.not_le.mpr room]
    rw [loadGo_of_bytes (bytes.imp_right fun ⟨way, gate, read⟩ => ⟨way, fun _ => gate, read⟩), loadWrites_lw]

end Sys2Proof.Machine
end

section
/-! PROOFS. Branches, loops, control registers, traps and waits of the engine core (R206, R209, R216 to R220, R235, R285). -/
namespace Sys2Proof.Machine

/-- A precise exception of an instruction that issues is raised where no load is outstanding. -/
theorem Runs.of_raise {i : Instr} {e : Eng} {op : EOp} {cls : EClass} {s u : State} {f : EOp → State → Option State} {c : Cause}
    (meaning : exec i s = issue e cls f s) (issues : Issues e op s u) (ofClass : op.cls = cls) (loaded : (u.engine e).loads = [])
    (raises : f op u = excOr e c u) : Runs i s (· = raiseExc e c u) :=
  Runs.of_issue meaning issues ofClass (raises.trans (excOr_of_done loaded c)) rfl

theorem doMfc_of_readable {e : Eng} {s : State} {n : Nat} (may : cregReadable (s.engine e).priv n = true)
    (flags : n = 0x1E → (s.engine e).vq = []) (rd : Nat) :
    doMfc e (.mfc rd n) s = some (complete e [(rd, readCreg e n s)] 0 s) := by
  have stalls : (n == 0x1E && !(s.engine e).vq.isEmpty) = false := by
    by_cases h : n = 0x1E
    · rw [flags h]
      simp
    · rw [beq_eq_false_iff_ne.mpr h, Bool.false_and]
  simp only [doMfc, may, stalls, Bool.not_true, Bool.false_eq_true, if_false]

theorem doMfc_of_unreadable {e : Eng} {s : State} {n : Nat} (may : cregReadable (s.engine e).priv n = false) (rd : Nat) :
    doMfc e (.mfc rd n) s = excOr e privCause s := by
  simp only [doMfc, may, Bool.not_false, if_true]

theorem doMtc_of_writable {e : Eng} {s : State} {rs n : Nat} (may : cregWritable (s.engine e).priv n = true)
    (mode : n = 0 → (s.engine e).priv = 1 → bitsAt ((s.engine e).reg rs).toNat 0 2 ≠ 3) :
    doMtc e (.mtc rs n) s = some (s.setEngine e fun y => y.retire 0 (some (n, y.reg rs))) := by
  have legal : (n == 0 && (s.engine e).priv == 1 && bitsAt ((s.engine e).reg rs).toNat 0 2 == 3) = false := by
    rw [Bool.eq_false_iff]
    intro h
    simp only [Bool.and_eq_true, beq_iff_eq] at h
    exact mode h.1.1 h.1.2 h.2
  simp only [doMtc, may, legal, Bool.not_true, Bool.or_self, Bool.false_eq_true, if_false]

theorem doMtc_of_unwritable {e : Eng} {s : State} {rs n : Nat} (h : cregWritable (s.engine e).priv n = false ∨
    (n = 0 ∧ (s.engine e).priv = 1 ∧ bitsAt ((s.engine e).reg rs).toNat 0 2 = 3)) : doMtc e (.mtc rs n) s = excOr e privCause s := by
  refine if_pos ?_
  obtain may | ⟨mode, supervisor, higher⟩ := h
  · simp only [may, Bool.not_false, Bool.true_or]
  · simp only [mode, supervisor, higher, beq_self_eq_true, Bool.and_self, Bool.or_true]

/-- Settles O19: each instruction by its own meaning where its condition holds. -/
theorem scalarControlRows : Obligations.ScalarControlRows := by
  intro e s u x hx
  subst hx
  refine ⟨fun nz rs off issues => ?_, fun off issues => ?_, fun off issues => ?_, fun rd rs imm issues => ?_,
    fun lvl reg count end13 issues => ?_, fun rd n may flags issues => ?_, fun rd n may loaded issues => ?_,
    fun rs n may mode issues => ?_, fun rs n barred loaded issues => ?_, fun i loaded issues => ?_, fun i loaded issues => ?_,
    fun priv idle issues => ?_, fun user loaded issues => ?_, fun stores starts issues => ?_, fun issues => ?_,
    fun pending issues => ?_, fun quiet running issues => ?_⟩
  · exact Runs.of_issue (f := doBranch e) rfl issues rfl rfl rfl
  · exact Runs.of_issue (f := doBranch e) rfl issues rfl rfl rfl
  · exact Runs.of_issue (f := doBranch e) rfl issues rfl rfl rfl
  · exact Runs.of_issue (f := doBranch e) rfl issues rfl rfl rfl
  · refine Runs.of_issue (f := doLoop e) rfl issues rfl rfl ?_
    refine congrArg (u.setEngine e) (funext fun y => ?_)
    simp only [beq_iff_eq]
  · exact Runs.of_issue (f := doMfc e) rfl issues rfl (doMfc_of_readable may flags rd) rfl
  · exact Runs.of_raise (f := doMfc e) rfl issues rfl loaded (doMfc_of_unreadable may rd)
  · exact Runs.of_issue (f := doMtc e) rfl issues rfl (doMtc_of_writable may mode) rfl
  · exact Runs.of_raise (f := doMtc e) rfl issues rfl loaded (doMtc_of_unwritable barred)
  · exact Runs.of_raise (f := doTrap e) rfl issues rfl loaded rfl
  · exact Runs.of_raise (f := doTrap e) rfl issues rfl loaded rfl
  · refine Runs.of_issue (f := doRfe e) rfl issues rfl ?_ rfl
    simp only [doRfe, beq_eq_false_iff_ne.mpr priv, idle, Bool.false_eq_true, if_false]
  · refine Runs.of_raise (f := doRfe e) rfl issues rfl loaded ?_
    simp only [doRfe, user, beq_self_eq_true, if_true]
  · refine Runs.of_issue (f := doSync e) rfl issues rfl ?_ (t := complete e [] 0 u) rfl
    simp only [doSync, stores, starts, List.isEmpty_nil, Bool.and_self, if_true]
  · exact Runs.of_issue (f := doIflush e) rfl issues rfl rfl rfl
  · exact Runs.of_issue (f := doWait e) rfl issues rfl (if_pos (bne_iff_ne.mpr pending)) (t := complete e [] 0 u) rfl
  · refine Runs.of_issue (f := doWait e) rfl issues rfl ?_ rfl
    simp only [doWait, quiet, running, bne_self_eq_false, Bool.false_eq_true, if_false]

end Sys2Proof.Machine
end

section
/-! PROOFS. VE_CTL, interrupts, asynchronous errors and the checks of starts (R60, R61, R205, R275 to R284, R392, R393). -/
namespace Sys2Proof.Machine

/-- A change of an engine is known by what it makes of that engine. -/
theorem State.setEngine_congr {s : State} {e : Eng} {f g : Engine → Engine} (h : f (s.engine e) = g (s.engine e)) :
    s.setEngine e f = s.setEngine e g := by
  simp only [State.engine] at h
  simp only [State.setEngine, State.modEng, tabMod, h]

/-! ### VE_CTL (R60, R61, R205) -/

theorem writeVeCtl_of_run {e : Eng} {val : W32} {s : State} {f : Engine → Engine} (rst : val.getLsbD 2 = false)
    (h : veCtlRunRemap val (s.engine e) = f (s.engine e)) : Leaves e s f (writeVeCtl e val s) :=
  (if_neg (by rw [rst]; decide)).trans (State.setEngine_congr h)

theorem veCtlRunRemap_start {val : W32} {y : Engine} (run : val.getLsbD 0 = true) (held : y.run = false) (idle : y.st = .idle) :
    veCtlRunRemap val y = { coreReset { y with run := true, remap := val.getLsbD 1, st := .run } with fetchRemap := val.getLsbD 1 } := by
  simp only [veCtlRunRemap, run, held, idle, Bool.not_false, Bool.and_self, if_true]

theorem veCtlRunRemap_stop {val : W32} {y : Engine} (stop : val.getLsbD 0 = false) (going : y.run = true) (run : y.st = .run) :
    veCtlRunRemap val y = coreReset { y with run := false, remap := val.getLsbD 1, st := .idle } := by
  simp only [veCtlRunRemap, stop, going, run, Bool.not_true, Bool.and_self, Bool.not_false, Bool.false_eq_true, if_false, if_true]

theorem veCtlRunRemap_marked {val : W32} {y : Engine} (run : val.getLsbD 0 = true) (held : y.run = false) (idle : y.st ≠ .idle)
    (shadow : y.st ≠ .shadow) : veCtlRunRemap val y = { y with run := true, remap := val.getLsbD 1 } := by
  simp only [veCtlRunRemap, run, held, Bool.not_false, Bool.and_self, if_true]

theorem veCtlRunRemap_remap {val : W32} {y : Engine} (same : val.getLsbD 0 = y.run) :
    veCtlRunRemap val y = { y with remap := val.getLsbD 1 } := by
  simp only [veCtlRunRemap, same, Bool.and_not_self, Bool.not_and_self, Bool.false_eq_true, if_false]

theorem Engine.reset_eq (y : Engine) : y.reset = { ({} : Engine) with
    st := if y.st = .run ∨ y.st = .halt then .idle else y.st
    irqPend := y.irqPend, irqEn := y.irqEn, irqLvl0 := y.irqLvl0, irqLvl1 := y.irqLvl1 } := by
  unfold Engine.reset
  cases y.st <;> rfl

theorem engineResetAt_frame {e : Eng} (ok : Eng.ok e = true) (s : State) : (engineResetAt e s).engine e = (s.engine e).reset ∧
    (∀ f, f ≠ e → Eng.ok f = true → (engineResetAt e s).engine f = s.engine f) ∧
    engineResetAt e s = { s with eng := (engineResetAt e s).eng, fab := { s.fab with ecc := (engineResetAt e s).fab.ecc } } := by
  have phys : ∀ d : Eng, Eng.ok d = true → d.phys < 13 := fun d h => by
    simp only [Eng.ok, Bool.and_eq_true, decide_eq_true_eq] at h
    exact h.2
  have others : ∀ f, f ≠ e → Eng.ok f = true → (s.setEngine e Engine.reset).engine f = s.engine f :=
    fun f ne hf => State.engine_setEngine_other s _ (phys e ok) (phys f hf) ne
  unfold engineResetAt
  dsimp only
  split
  · exact ⟨State.engine_setEngine_same .., others, rfl⟩
  · exact ⟨State.engine_setEngine_same .., others, rfl⟩

/-! ### Interrupts and asynchronous errors (R275 to R284) -/

theorem boundary_parts {s : State} {e : Eng} (h : s.atBoundary e = true) : (s.engine e).exl = false ∧ (s.engine e).window = 0 := by
  simp only [State.atBoundary, Bool.and_eq_true, Bool.not_eq_true', beq_iff_eq] at h
  exact ⟨h.1.2, h.2⟩

theorem endWait_of_running {e : Eng} {s : State} (running : (s.engine e).waiting = false) : endWait e s = s := by
  simp only [endWait, running, Bool.false_and, Bool.false_eq_true, if_false]

theorem endWait_of_pending {e : Eng} {s : State} (waits : (s.engine e).waiting = true)
    (pending : (s.engine e).irqPend &&& (s.engine e).irqEn ≠ 0) : endWait e s = complete e [] 0 s := by
  simp only [endWait, waits, bne_iff_ne.mpr pending, Bool.and_self, if_true]

/-- An interrupt is entered at the boundary at which a WAIT before it has ended (R278, R284). -/
theorem execInterruptEntry_enters {e : Eng} {s v : State} {n : Nat} (top : irqTop (s.engine e) = some n) (ended : endWait e s = v)
    (boundary : v.atBoundary e = true) (due : (v.engine e).irqDue = true) (quiet : (v.engine e).asyncQ = []) :
    execInterruptEntry e s = .next (enterCause e { code := 0x20 + n, sub := irqLevel (s.engine e) n } true v) := by
  have none' : (v.engine e).asyncDue = false := by
    simp only [Engine.asyncDue, quiet, List.isEmpty_nil, Bool.not_true, Bool.and_false]
  simp only [execInterruptEntry, top, ended, boundary, due, none', Bool.not_false, Bool.and_self, if_true]

/-- The cause an asynchronous error enters (R280). -/
def AsyncErr.cause : AsyncErr → Cause
  | .buserr a => { code := 6, eaddr := some a }
  | .startErr dma i => { code := 0x0A, sub := bit dma, eaddr := some i }

theorem asyncEntry_of_enter {e : Eng} {s : State} {q : AsyncErr} {qs : List AsyncErr} (queue : (s.engine e).asyncQ = q :: qs)
    (first : (s.engine e).esc = false) : asyncEntry e s = enterCause e q.cause false (s.setEngine e fun y => { y with asyncQ := qs }) := by
  have esc : ((s.setEngine e fun y => { y with asyncQ := qs }).engine e).esc = false := by
    rw [State.engine_setEngine_same]
    exact first
  unfold asyncEntry
  rw [queue]
  simp only [esc, Bool.false_eq_true, if_false]
  cases q <;> rfl

theorem asyncEntry_of_escalated {e : Eng} {s : State} {q : AsyncErr} {qs : List AsyncErr} (queue : (s.engine e).asyncQ = q :: qs)
    (esc : (s.engine e).esc = true) : asyncEntry e s = haltCore e (s.setEngine e fun y => { y with asyncQ := qs }) := by
  have esc' : ((s.setEngine e fun y => { y with asyncQ := qs }).engine e).esc = true := by
    rw [State.engine_setEngine_same]
    exact esc
  unfold asyncEntry
  rw [queue]
  simp only [esc', if_true]

theorem irqEdge_of_on {y : Engine} (on : y.st ≠ .off) (n : Nat) : irqEdge n y = { y with irqPend := putBit y.irqPend n true } :=
  if_neg fun h => on (beq_iff_eq.mp h)

theorem irqEdge_of_off {y : Engine} (off : y.st = .off) (n : Nat) : irqEdge n y = y := if_pos (beq_iff_eq.mpr off)

/-- What an entry under way wrote at the handler's stack is put back as it stood (R275). -/
theorem takeover_eq {e : Eng} {n : Nat} {r : EntryRun} {s v : State}
    (stack : r.stackAt = none ∧ v = s ∨ ∃ a bs o, r.stackAt = some (a, bs) ∧ regionOf (s.engine e).remap a = .lsp o ∧
      v = (memStore (.lsp e.course e.phys) o bs s).2) :
    takeover e n r s = enterHandler e { code := 0x20 + n, sub := irqLevel (s.engine e) n } true r.age (max 12 (r.age + 9))
      (v.setEngine e fun y => { y.setReg 30 r.oldG30 with
        priv := r.oldPriv, ie := r.oldIe, window := 0, entry := none, stores := y.stores.map fun st => (r.stores.find? (·.seq == st.seq)).getD st }) := by
  obtain ⟨none', rfl⟩ | ⟨a, bs, o, at', region, rfl⟩ := stack
  · simp only [takeover, none']
  · simp only [takeover, at', region]

theorem execInterruptTakeover_late {e : Eng} {s : State} {r : EntryRun} (entry : (s.engine e).entry = some r)
    (late : 7 < r.age ∨ r.source = none) : execInterruptTakeover e s = .next s := by
  unfold execInterruptTakeover
  dsimp only
  split
  · next r' n entry' top =>
    rw [entry] at entry'
    cases entry'
    refine act_false ?_ ..
    obtain late | none' := late
    · rw [decide_eq_false (Nat.not_le.mpr late), Bool.and_false, Bool.false_and]
    · rw [none', Option.any_none, Bool.and_false]
  · rfl

/-! ### The rows -/

/-- Settles O20: each row by the equation of its meaning where its guard holds. -/
theorem engineEventRows : Obligations.EngineEventRows := by
  intro e s x alive ok hx
  subst hx
  have up : (s.alive && Eng.ok e) = true := by rw [alive, ok]; rfl
  refine ⟨fun val rst run held idle => ?_, fun val rst stop going run => ?_, fun val rst run held idle shadow => ?_, fun val rst => ?_,
    fun val rst same => ?_, fun n top running boundary ie quiet delay mtc => ?_, fun n v top waits pending done boundary due quiet => ?_,
    fun top => ?_, fun a qs boundary queue first => ?_, fun d i qs boundary queue first => ?_, fun q qs boundary queue esc => ?_,
    fun r n k v live entry early source top before stack => ?_, fun r entry late => ?_, fun live window => ?_,
    fun n hn soft on => ?_, fun n hn soft off => ?_, ?_, fun val => ?_, fun val edges => ?_, fun on => ?_, fun off => ?_,
    fun t i found => ?_, fun ch i found => ?_, fun found => ?_⟩
  · exact Runs.of_act (show _ = execVeCtlRun e val s from rfl) (by rw [up, rst]; rfl) (writeVeCtl_of_run rst (veCtlRunRemap_start run held idle))
  · exact Runs.of_act (show _ = execVeCtlRun e val s from rfl) (by rw [up, rst]; rfl) (writeVeCtl_of_run rst (veCtlRunRemap_stop stop going run))
  · exact Runs.of_act (show _ = execVeCtlRun e val s from rfl) (by rw [up, rst]; rfl)
      (writeVeCtl_of_run rst (veCtlRunRemap_marked run held idle shadow))
  · refine Runs.of_act (show _ = execVeCtlRst e val s from rfl) (by rw [up, rst]; rfl) ?_
    obtain ⟨core, others, frame⟩ := engineResetAt_frame ok s
    rw [show writeVeCtl e val s = engineResetAt e s from if_pos rst]
    exact ⟨core.trans (Engine.reset_eq _), others, frame⟩
  · exact Runs.of_act (show _ = execVeCtlRemap e val s from rfl) (by rw [up, rst, same, beq_self_eq_true]; rfl)
      (writeVeCtl_of_run rst (veCtlRunRemap_remap same))
  · obtain ⟨exl, window⟩ := boundary_parts boundary
    have due : (s.engine e).irqDue = true := by simp only [Engine.irqDue, exl, window, ie, delay, mtc, top]; rfl
    exact ⟨_, execInterruptEntry_enters top (endWait_of_running running) boundary due quiet, rfl⟩
  · exact ⟨_, execInterruptEntry_enters top ((endWait_of_pending waits pending).trans done.symm) boundary due quiet, rfl⟩
  · refine ⟨s, ?_, rfl⟩
    show execInterruptEntry e s = _
    simp only [execInterruptEntry, top]
  · exact Runs.of_act (show _ = execAsyncErrorEntry e s from rfl) (by rw [boundary, queue]; rfl) (asyncEntry_of_enter (q := .buserr a) queue first)
  · exact Runs.of_act (show _ = execAsyncErrorEntry e s from rfl) (by rw [boundary, queue]; rfl) (asyncEntry_of_enter (q := .startErr d i) queue first)
  · exact Runs.of_act (show _ = execAsyncErrorEntry e s from rfl) (by rw [boundary, queue]; rfl) (asyncEntry_of_escalated queue esc)
  · refine ⟨takeover e n r s, ?_, takeover_eq stack⟩
    show execInterruptTakeover e s = _
    simp only [execInterruptTakeover, entry, top]
    exact act_true (by rw [live, decide_eq_true early, source, Option.any_some, before]; rfl) ..
  · exact ⟨s, execInterruptTakeover_late entry late, rfl⟩
  · refine Runs.of_act (show _ = act (s.coreLive e && (s.engine e).window != 0)
      (fun v => (v.advance (v.vtOfCycles ((s.engine e).entryLeft + (s.engine e).window))).setEngine e fun y => { y with window := 0 }) s from rfl)
      (by rw [live, bne_iff_ne.mpr window]; rfl) ?_
    rfl
  · exact Runs.of_act (show _ = execIrqSourceEdge e n s from rfl) (by rw [up, decide_eq_true hn, bne_iff_ne.mpr soft]; rfl)
      (State.setEngine_congr (irqEdge_of_on on n))
  · exact Runs.of_act (show _ = execIrqSourceEdge e n s from rfl) (by rw [up, decide_eq_true hn, bne_iff_ne.mpr soft]; rfl)
      (State.setEngine_congr (irqEdge_of_off off n))
  · refine ⟨s, ?_, rfl⟩
    show execIrqSourceEdge e 4 s = _
    exact act_false (by rw [bne_self_eq_false, Bool.and_false]) ..
  · exact Runs.of_act (show _ = execIrqSetWrite e val s from rfl) up rfl
  · exact Runs.of_act (show _ = execIrqPendWrite e val edges s from rfl) up rfl
  · exact Runs.of_act (show _ = execPegboxMailbox e s from rfl) up (State.setEngine_congr (irqEdge_of_on on 3))
  · exact Runs.of_act (show _ = execPegboxMailbox e s from rfl) up (State.setEngine_congr (irqEdge_of_off off 3))
  all_goals
    refine Runs.of_act (show _ = execStartCheckComplete e s from rfl) up ?_
    unfold startCheckDone
    rw [found]

end Sys2Proof.Machine
end

section
/-! PROOFS. Short-vector instructions (R296 to R310, R370). -/
namespace Sys2Proof.Machine

theorem vIssue_of_room {e : Eng} {s : State} (room : (s.engine e).vq.length < 4) (run : VecRun) (f : Engine → Engine) :
    ∃ t, vIssue e run f s = some t ∧ Queues e run s f t := by
  refine ⟨_, if_neg (Nat.not_le.mpr room), State.setEngine_congr ?_⟩
  cases run with
  | mk flags writes store seq => cases store <;> rfl

/-- A vector instruction that issues queues its result. -/
theorem Runs.of_vIssue {i : Instr} {e : Eng} {op : EOp} {cls : EClass} {s u w : State} {f : EOp → State → Option State}
    {run : VecRun} {g : Engine → Engine} (meaning : exec i s = issue e cls f s) (issues : Issues e op s u) (ofClass : op.cls = cls)
    (done : f op u = vIssue e run g w) (room : (w.engine e).vq.length < 4) : Runs i s (Queues e run w g) := by
  obtain ⟨t, queued, holds⟩ := vIssue_of_room room run g
  exact Runs.of_issue meaning issues ofClass (done.trans queued) holds

theorem doVa_of_legal {e : Eng} {s : State} {major vd v1 vs2 src func : Nat} {vm : Bool}
    (legal : vaIllegal (shapeOf (s.engine e).vshape) major vd v1 vs2 vm src func = false) {r}
    (hr : r = vaRun (shapeOf (s.engine e).vshape) (fcsrRm (s.engine e).fcsr) (s.engine e).reg (s.engine e).v (s.engine e).vpos (s.engine e).vl
      major vd v1 vs2 vm src func) : doVa e (.va major vd v1 vs2 vm src func) s =
    vIssue e { flags := r.flags, writes := r.writes.filter fun w => w.1 != 0 } (fun y => { y with v := r.v }) s := by
  simp only [doVa, legal, Bool.false_eq_true, if_false, hr]

theorem vmem_cls (st : Bool) (vd rs r2 : Nat) (vm : Bool) (mode eew : Nat) :
    (EOp.vmem st vd rs r2 vm mode eew).cls = if st then .vectorStore else .vectorLoad := rfl

theorem exec_vmem (e : Eng) (st : Bool) (s : State) : exec (if st then .vectorStore e else .vectorLoad e) s =
    issue e (if st then .vectorStore else .vectorLoad) (doVmem e) s := by
  cases st <;> rfl

/-- A whole-group access whose check passes moves its words in order (R304). -/
theorem doVmem_of_whole {e : Eng} {s : State} {st : Bool} {vd rs r2 eew : Nat} {vm : Bool} (free : vecWaits (s.engine e) = false)
    (room : (s.engine e).vq.length < 4) (legal : vmIllegal (shapeOf (s.engine e).vshape) st vd r2 vm 3 eew = false)
    (check : wholeCheck (s.engine e) (shapeOf (s.engine e).vshape) st ((s.engine e).reg rs).toNat = none) :
    doVmem e (.vmem st vd rs r2 vm 3 eew) s = vIssue e { flags := 0, store := st } id
      ((List.range (8 * (shapeOf (s.engine e).vshape).grp)).foldl (fun z k => vecMove e st vd 64 k (((s.engine e).reg rs).toNat + 8 * k) z) s) := by
  simp only [doVmem, legal, free, decide_eq_false (Nat.not_le.mpr room), check, Bool.or_self, Bool.false_eq_true, if_false,
    beq_self_eq_true, if_true]

/-- An access by elements moves those its mask keeps, in order, where the check of each passes (R303, R304). -/
theorem doVmem_of_elements {e : Eng} {s : State} {st : Bool} {vd rs r2 mode eew : Nat} {vm : Bool} {els : List Nat}
    (free : vecWaits (s.engine e) = false) (room : (s.engine e).vq.length < 4) (single : mode ≠ 3)
    (legal : vmIllegal (shapeOf (s.engine e).vshape) st vd r2 vm mode eew = false)
    (kept : els = ((List.range (s.engine e).vl).drop (s.engine e).vpos).filter fun i => vm || vmask (s.engine e).v 0 i)
    (checks : ∀ i ∈ els, elemCheck (s.engine e) (shapeOf (s.engine e).vshape) st
      (elemAddr (s.engine e) (shapeOf (s.engine e).vshape) rs r2 mode eew i).toNat = none) :
    doVmem e (.vmem st vd rs r2 vm mode eew) s = vIssue e { flags := 0, store := st } id
      (els.foldl (fun z i => vecMove e st vd (shapeOf (s.engine e).vshape).sew i
        (elemAddr (s.engine e) (shapeOf (s.engine e).vshape) rs r2 mode eew i).toNat z) s) := by
  have good : els.find? (fun i => (elemCheck (s.engine e) (shapeOf (s.engine e).vshape) st
      (elemAddr (s.engine e) (shapeOf (s.engine e).vshape) rs r2 mode eew i).toNat).isSome) = none := by
    rw [List.find?_eq_none]
    intro i hi
    rw [checks i hi]
    decide
  subst kept
  simp only [doVmem, legal, free, decide_eq_false (Nat.not_le.mpr room), beq_eq_false_iff_ne.mpr single, good, Bool.or_self,
    Bool.false_eq_true, if_false]

/-- Settles O21: each instruction by its own meaning, its result queued in order. -/
theorem vectorRows : Obligations.VectorRows := by
  intro e s u x sh hx hsh
  subst hx hsh
  refine ⟨fun rd rs n hn issues => ?_, fun imm issues => ?_, fun rs small issues => ?_, fun rs large loaded issues => ?_,
    fun rd sel v hv room issues => ?_, fun rs room issues => ?_, fun major vd v1 vs2 vm src func r hr legal room issues c hc i hi => ?_,
    fun major vd v1 vs2 vm src func illegal loaded issues hc => ?_, fun r rs alive ok queue => ?_,
    fun st vd rs r2 vm eew w free room legal check issues hw room' => ?_,
    fun st vd rs r2 vm mode eew els w free room single legal kept checks issues hw room' => ?_⟩
  · subst hn
    exact Runs.of_issue (f := doVc e) rfl issues rfl rfl rfl
  · exact Runs.of_issue (f := doVc e) rfl issues rfl rfl rfl
  · exact Runs.of_issue (f := doVc e) rfl issues rfl (if_neg (Nat.not_le.mpr small)) rfl
  · exact Runs.of_raise (f := doVc e) rfl issues rfl loaded (if_pos large)
  · refine Runs.of_vIssue (f := doVc e) rfl issues rfl ?_ room
    subst hv
    rcases sel with _ | _ | sel
    · rfl
    · rfl
    · rfl
  · exact Runs.of_vIssue (f := doVc e) rfl issues rfl rfl room
  · have meaning : exec i s = issue e c (doVa e) s := by
      obtain ⟨rfl, rfl⟩ | ⟨rfl, rfl⟩ | ⟨rfl, rfl⟩ | ⟨rfl, rfl⟩ | ⟨rfl, rfl⟩ := hi <;> rfl
    exact Runs.of_vIssue meaning issues hc.symm (doVa_of_legal legal hr) room
  · exact Runs.of_raise (f := doVa e) rfl issues hc loaded (if_pos illegal)
  · refine Runs.of_act (show _ = execVectorComplete e s from rfl) (by rw [alive, ok, queue]; rfl) (State.setEngine_congr ?_)
    dsimp only
    rw [queue]
  · subst hw
    exact Runs.of_vIssue (exec_vmem e st s) issues (vmem_cls ..) (doVmem_of_whole free room legal check) room'
  · subst hw
    exact Runs.of_vIssue (exec_vmem e st s) issues (vmem_cls ..) (doVmem_of_elements free room single legal kept checks) room'

end Sys2Proof.Machine
end

section
/-! PROOFS. SSTART, SSTARTA, SWAIT, SSTAT and SCANCEL (R286, R312, R313, R315, R320, R336). -/
namespace Sys2Proof.Machine

/-- A start stalls while microcode is not ready, stores before it are under way, or its level's queue is full (R312, R313). -/
theorem start_stalls {s : State} {e : Eng} (ready : s.ready Rdy.ucode = true) (stores : (s.engine e).storesOut (s.engine e).storeSeq = false)
    (room : (s.engine e).su.count (s.engine e).exl < 4) :
    (!s.ready Rdy.ucode || (s.engine e).storesOut (s.engine e).storeSeq || decide (4 ≤ (s.engine e).su.count (s.engine e).exl)) = false := by
  rw [ready, stores, decide_eq_false (Nat.not_le.mpr room)]
  rfl

theorem doStart_of_ok {e : Eng} {s v : State} {rs : Nat} {l : List (List Byte)} (ready : s.ready Rdy.ucode = true)
    (stores : (s.engine e).storesOut (s.engine e).storeSeq = false) (room : (s.engine e).su.count (s.engine e).exl < 4)
    (check : startCheck e ((s.engine e).reg rs).toNat s.restartMode s = (.ok l, v)) (rd : Nat) :
    doStart e (.sstart rd rs) s = some (complete e [(rd, w32 (s.engine e).su.next)] 0 (queueChord e
      { ticket := (s.engine e).su.next, instr := (s.engine e).pc, addr := ((s.engine e).reg rs).toNat, handler := (s.engine e).exl
        after := (s.engine e).storeSeq, checked := true, restart := v.restartMode, bank := (v.engine e).su.bank, descs := l
        staged := v.restartMode && chordInPlace (l.map parseDesc) } v)) := by
  simp only [doStart, start_stalls ready stores room, Bool.false_eq_true, if_false, check]
  rfl

theorem doStart_of_error {e : Eng} {s v : State} {rs c : Nat} {f : W32} (ready : s.ready Rdy.ucode = true)
    (stores : (s.engine e).storesOut (s.engine e).storeSeq = false) (room : (s.engine e).su.count (s.engine e).exl < 4)
    (check : startCheck e ((s.engine e).reg rs).toNat s.restartMode s = (.error (c, f), v)) (rd : Nat) :
    doStart e (.sstart rd rs) s = excOr e { code := 0x0C, sub := c, eaddr := some f } v := by
  simp only [doStart, start_stalls ready stores room, Bool.false_eq_true, if_false, check]

/-- Settles O22: each instruction by its own meaning where its condition holds. -/
theorem streamRows : Obligations.StreamRows := by
  intro e s u x hx
  subst hx
  refine ⟨fun rd rs l v ready stores room check issues => ?_, fun rd rs c f v ready stores room check loaded issues => ?_,
    fun rd rs stalls issues => ?_, fun rd rs priv ready room starts issues => ?_, fun rd rs priv stalls issues => ?_,
    fun rd rs user loaded issues => ?_, fun rd rs gone issues => ?_, fun rd rs live issues => ?_, fun rd sel issues => ?_,
    fun priv issues => ?_, fun user loaded issues => ?_⟩
  · exact Runs.of_issue (f := doStart e) rfl issues rfl (doStart_of_ok ready stores room check rd) rfl
  · exact Runs.of_issue (f := doStart e) rfl issues rfl ((doStart_of_error ready stores room check rd).trans (excOr_of_done loaded _)) rfl
  · refine Runs.of_stall (f := doStart e) rfl issues rfl (if_pos ?_) rfl
    obtain h | h | h := stalls <;> simp [h]
  · refine Runs.of_issue (f := doStart e) rfl issues rfl ?_ rfl
    simp only [doStart, beq_eq_false_iff_ne.mpr priv, ready, decide_eq_false (Nat.not_le.mpr room), decide_eq_false (Nat.not_le.mpr starts),
      Bool.not_true, Bool.or_self, Bool.false_eq_true, if_false]
    rfl
  · refine Runs.of_stall (f := doStart e) rfl issues rfl ((if_neg fun h => priv (beq_iff_eq.mp h)).trans (if_pos ?_)) rfl
    obtain h | h | h := stalls <;> simp [h]
  · exact Runs.of_raise (f := doStart e) rfl issues rfl loaded (if_pos (beq_iff_eq.mpr user))
  · exact Runs.of_issue (f := doSu e) rfl issues rfl (if_neg (by rw [gone]; decide)) (t := complete e _ 0 u) rfl
  · exact Runs.of_stall (f := doSu e) rfl issues rfl (if_pos live) rfl
  · exact Runs.of_issue (f := doSu e) rfl issues rfl rfl rfl
  · exact Runs.of_issue (f := doSu e) rfl issues rfl (if_neg fun h => priv (beq_iff_eq.mp h)) rfl
  · exact Runs.of_raise (f := doSu e) rfl issues rfl loaded (if_pos (beq_iff_eq.mpr user))

end Sys2Proof.Machine
end

section
/-! PROOFS. Chords start, complete, stop, resume and restart (R313, R314, R332 to R336, R341, R352 to R358). -/
namespace Sys2Proof.Machine

/-! ### State rules -/

theorem State.modSu_modSu (s : State) (e : Eng) (f g : StreamUnit → StreamUnit) :
    (s.modSu e f).modSu e g = s.modSu e fun u => g (f u) :=
  State.setEngine_setEngine s e _ _

theorem State.su_modSu (s : State) (e : Eng) (f : StreamUnit → StreamUnit) : ((s.modSu e f).engine e).su = f (s.engine e).su := by
  rw [State.modSu, State.engine_setEngine_same]

theorem State.modSu_congr {s : State} {e : Eng} {f g : StreamUnit → StreamUnit} (h : f (s.engine e).su = g (s.engine e).su) :
    s.modSu e f = s.modSu e g :=
  State.setEngine_congr (f := fun x => { x with su := f x.su }) (g := fun x => { x with su := g x.su }) (by rw [h])

/-- The chord of a ticket as it stands, the one known before where it is gone. -/
def chordNow (e : Eng) (c : Chord) (s : State) : Chord := ((s.engine e).su.chords.find? (·.ticket == c.ticket)).getD c

theorem chordNow_of_find {e : Eng} {c d : Chord} {s : State} (h : (s.engine e).su.chords.find? (·.ticket == c.ticket) = some d) :
    chordNow e c s = d := by
  rw [chordNow, h, Option.getD_some]

/-- A change that leaves the chords alone leaves each as it stands. -/
theorem chordNow_modSu {e : Eng} {s : State} {f : StreamUnit → StreamUnit} (h : ∀ u, (f u).chords = u.chords) (c : Chord) :
    chordNow e c (s.modSu e f) = chordNow e c s := by
  rw [chordNow, State.su_modSu, h]
  rfl

/-! ### Completion (R314, R334 to R336) -/

theorem chordFinish_of_bad {e : Eng} {s : State} {c : Chord} {code k : Nat} (active : (s.engine e).su.active = some c)
    (bad : endedBad (s.engine e).su = some (code, k)) : chordFinish e s = chordDone e c code k s := by
  simp only [chordFinish, active, bad]

/-- What is left of a chord that has ended well: its stores are committed and its stage buffer drained. -/
theorem chordFinish_of_good {e : Eng} {s v w z : State} {c d : Chord} {r : ChordRun} {bad : Option Nat} {ok : Bool}
    (active : (s.engine e).su.active = some c) (good : endedBad (s.engine e).su = none) (run : r = chordRun e c s)
    (touched : v = touchSources e c r s)
    (stores : c.committed = true ∧ bad = none ∧ w = v ∨ c.committed = false ∧ commitTo e c r r.index v = (bad, w))
    (stage : c.staged = false ∧ ok = true ∧ z = w ∨ c.staged = true ∧ drainStage e c w = (ok, z))
    (stands : (z.engine e).su.chords.find? (·.ticket == c.ticket) = some d) : chordFinish e s =
      (if ok then bad else some 3).elim (chordDone e d (runCode r) (if runCode r == 0 then 0 else r.opx) z)
        fun code => chordDone e d code (c.descs.length - 1) z := by
  have commit : (if c.committed then (none, v) else commitTo e c r r.index v) = (bad, w) := by
    obtain ⟨done, rfl, rfl⟩ | ⟨rest, eq⟩ := stores
    · rw [done]
      rfl
    · rw [rest]
      exact eq
  have drain : (if c.staged then drainStage e c w else (true, w)) = (ok, z) := by
    obtain ⟨plain, rfl, rfl⟩ | ⟨staged, eq⟩ := stage
    · rw [plain]
      rfl
    · rw [staged]
      exact eq
  subst run touched
  simp only [chordFinish, active, good, commit, drain, stands, Option.getD_some]
  cases (if ok then bad else some 3) <;> rfl

/-! ### Stops (R313, R353 to R358) -/

/-- A chord in restart mode is abandoned: past its commit point it keeps what it has done, else it begins again (R355, R357). -/
def abandonStop (e : Eng) (c : Chord) (y : State) : State :=
  ((y.modSu e fun u => { (freeStage (c.staged && !c.committed) c.handler u) with restarts := satAdd 16 u.restarts 1 }).modChord e c.ticket fun d =>
    if d.committed then { d with state := .abandoned }
    else { d with state := .abandoned, index := 0, flags := 0, noprior := 0, nopost := 0, bytes := 0, undo := [] }).modSu e
      fun u => { u with threads := Vector.replicate 4 {} }

/-- The state in which a stop in trap mode is counted (R351). -/
def trapCounted (e : Eng) (y : State) : State := y.modSu e fun u => { u with traps := satAdd 16 u.traps 1 }

/-- The context of a chord in the slot: of a halted engine only where the slot is free (R290, R353). -/
def slotSaved (e : Eng) (d : Chord) (halted : Bool) (z : State) : State :=
  if halted && slotTag e z != 0 then z else writeLsp e slotAddr (slotBytes (z.engine e).su d (if halted then 2 else 1)) z

theorem slotSaved_running (e : Eng) (d : Chord) (z : State) :
    slotSaved e d false z = writeLsp e 0x3FF00 (slotBytes (z.engine e).su d 1) z := by
  simp only [slotSaved, slotAddr, Bool.false_and, Bool.false_eq_true, if_false]

theorem slotSaved_halted {e : Eng} {z : State} (free : slotTag e z = 0) (d : Chord) :
    slotSaved e d true z = writeLsp e 0x3FF00 (slotBytes (z.engine e).su d 2) z := by
  simp only [slotSaved, slotAddr, free, bne_self_eq_false, Bool.and_false, Bool.false_eq_true, if_false, if_true]

theorem slotSaved_held {e : Eng} {z : State} (held : slotTag e z ≠ 0) (d : Chord) : slotSaved e d true z = z := by
  simp only [slotSaved, bne_iff_ne.mpr held, Bool.and_self, if_true]

def chordStopped (e : Eng) (c : Chord) (a : State) : State :=
  (a.modChord e c.ticket fun d => { d with state := .stopped }).modSu e fun u => { u with threads := Vector.replicate 4 {} }

/-- The active chord that stops has committed what it had done and its threads are aligned; it is cancelled, abandoned or
saved (R313, R353, R355). -/
theorem chordStop_eq {e : Eng} {s v w y : State} {c d : Chord} {r : ChordRun} {k : Nat} (active : (s.engine e).su.active = some c)
    (run : r = chordRun e c s) (index : stopIndex c r s = (k, v))
    (stores : c.committed = true ∧ w = v ∨ c.committed = false ∧ w = (commitTo e c r k (touchSources e c { r with code := 0 } v)).2)
    (stands : (w.engine e).su.chords.find? (·.ticket == c.ticket) = some d) (aligned : y = w.modSu e (alignThreads c r d.index)) :
    chordStop e s =
      if c.cancel then chordDone e (if c.restart then { d with index := 0 } else d) 1 0 y
      else if c.restart then abandonStop e c y
      else chordStopped e c (slotSaved e d ((s.engine e).st == .halt) (trapCounted e y)) := by
  have now : chordNow e c w = d := chordNow_of_find stands
  have same : chordNow e c y = d := by
    rw [aligned, chordNow_modSu (f := alignThreads c r d.index) (fun _ => rfl), now]
  have counted : chordNow e c (trapCounted e y) = d := 
    (chordNow_modSu (f := fun u => { u with traps := satAdd 16 u.traps 1 }) (fun _ => rfl) c).trans same
  have commit : (if c.committed then v else (commitTo e c r k (touchSources e c { r with code := 0 } v)).2) = w := by
    obtain ⟨done, rfl⟩ | ⟨rest, rfl⟩ := stores
    · rw [done]
      rfl
    · rw [rest]
      rfl
  unfold chordStop
  simp only [active]
  subst run
  rw [index]
  dsimp only
  rw [commit, show ((w.engine e).su.chords.find? (·.ticket == c.ticket)).getD c = d from now, ← aligned,
    show ((y.engine e).su.chords.find? (·.ticket == c.ticket)).getD c = d from same]
  cases c.cancel
  · cases restart : c.restart
    · simp only [Bool.false_eq_true, if_false]
      rw [show y.modSu e (fun u => { u with traps := satAdd 16 u.traps 1 }) = trapCounted e y from rfl,
        show (((trapCounted e y).engine e).su.chords.find? (·.ticket == c.ticket)).getD c = d from counted]
      rfl
    · simp only [Bool.false_eq_true, if_false, if_true, State.modSu_modSu]
      refine congrArg (State.modSu · e _) (congrArg (State.modChord · e c.ticket _) (congrArg (State.modSu y e) (funext fun u => ?_)))
      unfold freeStage
      cases c.staged && !c.committed <;> cases c.handler <;> rfl
  · simp only [if_true]

/-! ### Returns (R348, R352, R354) -/

theorem chordResume_of_good {e : Eng} {s v : State} {c : Chord} {bs : List (Option Byte)} {b : List Byte}
    (waits : (s.engine e).su.waiting .stopped = some c) (load : memLoad (.lsp e.course e.phys) slotAddr 256 s = (bs, v))
    (bytes : b = bs.map (·.getD 0)) (whole : allBytes bs = some b) (tag : leNat (b.take 1) = 1)
    (crc : crc32c (b.take 252) = w32 (leNat (b.drop 252))) : chordResume e s =
    ((writeLsp e slotAddr [0] v).modSu e fun u => { u with
      threads := Vector.ofFn fun (t : Fin 4) => threadFrom b (t.val < c.descs.length) t, uaccBy := leNat ((b.drop 0xD0).take 1) % 4 }).modChord
        e c.ticket fun d => { d with state := .running, trap := none, index := leNat ((b.drop 0x0C).take 3) } := by
  simp only [chordResume, waits, load, ← bytes, whole, Option.isSome_some, tag, crc, beq_self_eq_true, Bool.and_self, if_true]

theorem chordResume_of_bad {e : Eng} {s v : State} {c : Chord} {bs : List (Option Byte)} {b : List Byte}
    (waits : (s.engine e).su.waiting .stopped = some c) (load : memLoad (.lsp e.course e.phys) slotAddr 256 s = (bs, v))
    (bytes : b = bs.map (·.getD 0))
    (bad : allBytes bs = none ∨ leNat (b.take 1) ≠ 1 ∨ crc32c (b.take 252) ≠ w32 (leNat (b.drop 252))) : chordResume e s =
    raiseFault (Src.seqCtxBad e.course) 0 (unitEng e.course e.phys) (chordDone e c 4 0 v) := by
  have fails : ((allBytes bs).isSome && leNat (b.take 1) == 1 && crc32c (b.take 252) == w32 (leNat (b.drop 252))) = false := by
    obtain h | h | h := bad
    · rw [h]
      rfl
    · rw [beq_eq_false_iff_ne.mpr h, Bool.and_false, Bool.false_and]
    · rw [beq_eq_false_iff_ne.mpr h, Bool.and_false]
  simp only [chordResume, waits, load, ← bytes, fails, Bool.false_eq_true, if_false]

/-! ### The rows -/

/-- Settles O23: each row by the equation of its meaning where its guard holds. -/
theorem chordRows : Obligations.ChordRows := by
  intro e s x hx
  subst hx
  refine ⟨fun c live next checked queued stores => ?_, fun c code k alive ok active going bad => ?_,
    fun c r v w bad ok z d alive ok' active going good run touched stores stage stands => ?_,
    fun c r k v w d y alive ok active stops run index stores stands aligned => ?_,
    fun c bs b v live waits load bytes => ⟨fun whole tag crc => ?_, fun bad => ?_⟩, fun c live waits done => ?_,
    fun c l v live waits rest check => ?_, fun c k f v live waits rest check => ?_⟩
  · refine Runs.of_act (show _ = execChordStart e s from rfl) ?_ ?_
    · simp only [live, next, checked, queued, stores]
      rfl
    · unfold chordStart
      rw [next]
      rfl
  · refine Runs.of_act (show _ = execChordComplete e s from rfl) ?_ (chordFinish_of_bad active bad)
    simp only [alive, ok, active, going]
    rfl
  · have eq := chordFinish_of_good active good run touched stores stage stands
    have up : (s.alive && Eng.ok e && (match (s.engine e).su.active with | some c => !c.cancel | none => false)) = true := by
      simp only [alive, ok', active, going]
      rfl
    refine ⟨fun none' fine => ?_, fun code some' fine => ?_, fun lost => ?_⟩
    all_goals refine Runs.of_act (show _ = execChordComplete e s from rfl) up (eq.trans ?_)
    · rw [fine, none']
      simp only [if_true, Option.elim_none, beq_iff_eq]
    · rw [fine, some']
      rfl
    · rw [lost]
      rfl
  · have eq := chordStop_eq active run index stores stands aligned
    have up : (s.alive && Eng.ok e && (match (s.engine e).su.active with
        | some c => (c.state == .stopping && c.trap != some false) || (s.engine e).st == .halt | none => false)) = true := by
      rw [alive, ok, active]
      obtain ⟨stopping, trap⟩ | halted := stops
      · simp only [stopping, bne_iff_ne.mpr trap, beq_self_eq_true, Bool.and_self, Bool.true_or]
      · simp only [halted, beq_self_eq_true, Bool.or_true, Bool.and_self]
    refine ⟨fun cancel => ?_, fun going restart => ?_, fun going trap => ?_⟩
    all_goals refine Runs.of_act (show _ = execChordStop e s from rfl) up ?_
    · rw [eq, cancel, if_pos rfl]
    · rw [eq, going, restart, if_neg (by decide), if_pos rfl]
      rfl
    · refine ⟨trapCounted e y, slotSaved e d ((s.engine e).st == .halt) (trapCounted e y), rfl, fun runs => ?_, fun halted free => ?_,
        fun halted held => ?_, ?_⟩
      · rw [beq_eq_false_iff_ne.mpr runs, slotSaved_running]
      · rw [halted, beq_self_eq_true, slotSaved_halted free]
      · rw [halted, beq_self_eq_true, slotSaved_held held]
      · rw [eq, going, trap, if_neg (by decide), if_neg (by decide), chordStopped]
  · refine Runs.of_act (show _ = execChordResume e s from rfl) (by rw [live, waits]; rfl) ?_
    exact chordResume_of_good waits load bytes whole tag crc
  · refine Runs.of_act (show _ = execChordResume e s from rfl) (by rw [live, waits]; rfl) ?_
    exact chordResume_of_bad waits load bytes bad
  all_goals
    refine Runs.of_act (show _ = execChordRestart e s from rfl) (by rw [live, waits]; rfl) ?_
    unfold chordRestart
    rw [waits]
  · simp only [done, if_true]
  · simp only [rest, check, Bool.false_eq_true, if_false]
    rfl
  · simp only [rest, check, Bool.false_eq_true, if_false]

end Sys2Proof.Machine
end

section
/-! PROOFS. Microwords of the stream unit (R343 to R345, R353). -/
namespace Sys2Proof.Machine

/-- A running chord of one operation, whose descriptor is all zero. -/
def loneChord : Chord := { ticket := 0, instr := 0, addr := 0, descs := [[]], handler := false, checked := true, restart := false, bank := 0, state := .running }

/-- A chord of the same ticket that is to stop and has no descriptor. -/
def twinChord : Chord := { loneChord with descs := [], state := .stopping }

def firstEng : Eng := ⟨0, 0⟩

/-- A device in RUN: thread 0 of the first engine runs `loneChord`, and behind it stands its twin. -/
def twins : State :=
  { pins := { porstN := true }
    boot := { held := false, readyMap := 0xFFFFF }
    eng := { tab := [(0, { ({} : Engine) with
      st := .run
      su := putThread 0 { ({} : UThread) with active := true } { ({} : StreamUnit) with chords := [loneChord, twinChord] } })] } }

/-- A NOP at a trap point (R343). -/
def trapNop : W64 := BitVec.ofNat 64 (2 ^ 55)

theorem twins_ready : MwReady firstEng 0 trapNop 0 twins loneChord [] where
  chord := by decide +kernel
  live := by decide +kernel
  turn := by decide +kernel
  going := by decide +kernel
  mapped := by decide +kernel
  stands := by decide +kernel
  ofClass := by decide +kernel

theorem twins_holds : MwHolds firstEng 0 trapNop twins loneChord [] := by
  unfold MwHolds
  decide +kernel

/-- Where the stop of the last chord stands. -/
def lastTrap (s : State) : Option Bool := (s.engine firstEng).su.chords.getLast?.bind (·.trap)

/-- The word comes to its trap point as a word of the last operation of the chord that issues it: both chords of the ticket
take it so. -/
theorem twins_step : ∃ t, exec (.mwNop firstEng 0 (some trapNop)) twins = .next t ∧ lastTrap t = some true :=
  ⟨mwRun firstEng 0 trapNop twins, by
    refine (show exec (.mwNop firstEng 0 (some trapNop)) twins = mwIssue firstEng 0 (some trapNop) 0 twins from rfl).trans ?_
    simp only [mwIssue, twins_ready.chord, twins_ready.live, twins_ready.turn, bne_iff_ne.mpr twins_ready.going, twins_ready.mapped,
      twins_ready.stands, twins_ready.ofClass, beq_self_eq_true, Bool.and_self, Bool.not_true, Bool.false_eq_true, if_false]
    exact act_true rfl .., by decide +kernel⟩

/-- Refutes O24: in `twins` two chords bear one ticket. The model takes the number of the operations of the chord that issues
for both; `MwTo` takes each chord's own, so that the second one's trap point is lost. The statement leaves out that the tickets
of outstanding chords differ. -/
theorem not_microwordRows : ¬ Obligations.MicrowordRows := by
  intro h
  obtain ⟨-, nop, -⟩ := h firstEng 0 trapNop twins loneChord [] _ _ _ _ _ rfl rfl rfl rfl rfl
  obtain ⟨t, ran, m, x, v, u, rfl, rfl, rfl, rfl, rfl⟩ := nop twins_ready twins_holds
  obtain ⟨t, step, trap⟩ := twins_step
  rw [step] at ran
  injection ran with ran
  rw [ran] at trap
  exact absurd trap (by decide +kernel)

end Sys2Proof.Machine
end

section
/-! PROOFS. ECC write-back, scrubbing, arbitration and accesses that time out (R362, R367, R369, R371, R384, R385, R501). -/
namespace Sys2Proof.Machine

/-! ### Codewords (R369, R371, R373) -/

theorem State.setEcc_frame (s : State) (k : Nat) (f : EccRec → EccRec) : (s.setEcc k f).ecc k = f (s.ecc k) ∧
    (∀ j, j ≠ k → (s.setEcc k f).ecc j = s.ecc j) ∧ s.setEcc k f = { s with fab := (s.setEcc k f).fab } :=
  ⟨State.ecc_setEcc_same .., fun _ h => State.ecc_setEcc_ne s f h, rfl⟩

theorem eccCheck_of_clear {c : Cw} {s : State} (clear : (s.ecc c.key).bad.isEmpty = true) (unarmed : (s.ecc c.key).armed = none)
    (first : Bool) : eccCheck c first s = (some [], s) := by
  simp only [eccCheck, clear, unarmed, Option.isNone_none, Bool.and_self, if_true]

/-- The first read of a codeword of a memory with an error or an injection: what the checker makes of it. -/
theorem eccCheck_first {c : Cw} {s v : State} {pat : List (Nat × Byte)} {inj stored : Bool}
    (marked : ((s.ecc c.key).bad.isEmpty && (s.ecc c.key).armed.isNone) = false) (met : eccMeet c true s = (pat, inj, v))
    (kept : stored = ((tabFind (s.ecc c.key).bad c.idx).isSome && !(match (s.ecc c.key).armed with | some (1, _) => true | _ => false))) :
    (eccDecode c.k pat = .clean → (eccCheck c true s).2 = v) ∧
    (∀ j b, eccDecode c.k pat = .corrected j b → (eccCheck c true s).2 = asInjected inj (eccCe c j stored) v) ∧
    (eccDecode c.k pat = .uncorrectable → (eccCheck c true s).2 = asInjected inj (eccUe c) v) := by
  have eq : eccCheck c true s = (match eccDecode c.k pat with
      | .clean => (some pat, v)
      | .corrected j b => (some (patXor pat j b), asInjected inj (eccCe c j stored) v)
      | .uncorrectable => (none, asInjected inj (eccUe c) v)) := by
    rw [kept]
    simp only [eccCheck, marked, Bool.false_eq_true, if_false, met, Bool.true_and] <;>
      cases eccDecode c.k pat <;> rfl
  refine ⟨fun h => ?_, fun j b h => ?_, fun h => ?_⟩
  all_goals
    rw [eq]
    simp only [h]

/-! ### Accesses that time out (R384, R501) -/

/-- The default target's record of a timeout: the first in full, a later one as a count (R385). -/
theorem fabError_timeout (write : Bool) (master addr : Nat) (s : State) : ∃ w : State, w = { s with fab := w.fab } ∧
    fabError true write master addr s = raiseFault Src.fabTimeout 0 unitNone w ∧
    (s.fab.errValid = true → w.fab = { s.fab with errCount := satAdd 16 s.fab.errCount 1 }) ∧
    (s.fab.errValid = false → w.fab = { s.fab with
      errValid := true, errTimeout := true, errWrite := write, errMaster := master, errAddr := addr % 2 ^ 40 }) := by
  cases held : s.fab.errValid
  · refine ⟨s.modFab fun b => { b with
      errValid := true, errTimeout := true, errWrite := write, errMaster := master, errAddr := addr % 2 ^ 40 }, rfl, ?_, fun h => (by cases h), fun _ => rfl⟩
    simp only [fabError, held, Bool.false_eq_true, if_false, if_true]
  · refine ⟨s.modFab fun b => { b with errCount := satAdd 16 b.errCount 1 }, rfl, ?_, fun _ => rfl, fun h => (by cases h)⟩
    simp only [fabError, held, if_true]

theorem timedOut_read {m : Master} (host : m = .pf ∨ ∃ f, m = .vf f) (addr : Nat) (v : State) :
    timedOut m addr false v = (tlpError .completerAbort v).emit (.readCompletion none false) := by
  obtain rfl | ⟨f, rfl⟩ := host <;> rfl

theorem timedOut_write {m : Master} (host : m = .pf ∨ ∃ f, m = .vf f) (addr : Nat) (v : State) :
    timedOut m addr true v = tlpError .completerAbort v := by
  obtain rfl | ⟨f, rfl⟩ := host <;> rfl

theorem timedOut_load {n p addr a : Nat} {v : State} (load : hangsLoad ⟨n, p⟩ addr v = some a) :
    timedOut (.engine n p) addr false v = failLoad ⟨n, p⟩ (w32 a) v := by
  simp only [timedOut, load, Bool.false_eq_true, if_false]

theorem timedOut_store {n p addr i : Nat} {st : StoreEnt} {v : State} (store : hangsStore ⟨n, p⟩ addr v = some i)
    (ready : storeReady ⟨n, p⟩ (v.engine ⟨n, p⟩) i = some st) (plain : isGo ⟨n, p⟩ st.addr st.bytes v = none) :
    timedOut (.engine n p) addr true v =
      pushAsync ⟨n, p⟩ (.buserr (w32 st.addr)) (v.setEngine ⟨n, p⟩ fun x => { x with stores := x.stores.eraseIdx i }) := by
  simp only [timedOut, store, Option.bind_some, ready, Option.map_some, plain, if_true]

theorem timedOut_dma {n ch addr : Nat} {write : Bool} {v : State} (dma : hangsDma n addr write v = some ch) :
    timedOut (.courseDma n) addr write v = dmaErrorAt (dmaKey n ch) write v := by
  simp only [timedOut, dma]

/-- What a timeout answers each master (R79, R240, R241, R397, R500). -/
theorem timedOut_rows (m : Master) (addr : Nat) (write : Bool) (v : State) : (m = .pegbox → timedOut m addr write v = v) ∧
    (∀ k, m = .link k → timedOut m addr write v = v.emit (.brlAccessRsp k none)) ∧
    ((m = .pf ∨ ∃ f, m = .vf f) → write = true → timedOut m addr write v = tlpError .completerAbort v) ∧
    ((m = .pf ∨ ∃ f, m = .vf f) → write = false →
      timedOut m addr write v = (tlpError .completerAbort v).emit (.readCompletion none false)) ∧
    (∀ n p a, m = .engine n p → write = false → hangsLoad ⟨n, p⟩ addr v = some a → timedOut m addr write v = failLoad ⟨n, p⟩ (w32 a) v) ∧
    (∀ n p i st, m = .engine n p → write = true → hangsStore ⟨n, p⟩ addr v = some i → storeReady ⟨n, p⟩ (v.engine ⟨n, p⟩) i = some st →
      isGo ⟨n, p⟩ st.addr st.bytes v = none →
      timedOut m addr write v = pushAsync ⟨n, p⟩ (.buserr (w32 st.addr)) (v.setEngine ⟨n, p⟩ fun x => { x with stores := x.stores.eraseIdx i })) ∧
    (∀ n ch, m = .courseDma n → hangsDma n addr write v = some ch → timedOut m addr write v = dmaErrorAt (dmaKey n ch) write v) := by
  refine ⟨?_, ?_, ?_, ?_, ?_, ?_, ?_⟩
  · rintro rfl
    rfl
  · rintro k rfl
    rfl
  · rintro host rfl
    exact timedOut_write host addr v
  · rintro host rfl
    exact timedOut_read host addr v
  · rintro n p a rfl rfl load
    exact timedOut_load load
  · rintro n p i st rfl rfl store ready plain
    exact timedOut_store store ready plain
  · rintro n ch rfl dma
    exact timedOut_dma dma

/-- The link a window's access goes out on does not rest on the count of timeouts. -/
theorem remoteLink_timeouts (addr : Nat) (s : State) (n : W32) :
    remoteLink addr { s with brl := { s.brl with timeouts := n } } = remoteLink addr s := by
  have joins : joined { s with brl := { s.brl with timeouts := n } } = joined s := rfl
  have round : hopRound { s with brl := { s.brl with timeouts := n } } = hopRound s := by
    funext d
    simp only [hopRound, joins]
  have hops : hopsFrom { s with brl := { s.brl with timeouts := n } } = hopsFrom s := by
    funext root
    simp only [hopsFrom, round]
  have up : State.linkUp { s with brl := { s.brl with timeouts := n } } = s.linkUp := rfl
  have cube : State.cubeId { s with brl := { s.brl with timeouts := n } } = s.cubeId := rfl
  simp only [remoteLink, hops, up, cube]

theorem remoteTimeout_eq (m : Master) (addr : Nat) (write : Bool) (s : State) : remoteTimeout m addr write s =
    timedOut m addr write (raiseFault Src.brlTimeout (w64 (remoteLink addr s)) unitNone
      { s with brl := { s.brl with timeouts := s.brl.timeouts + 1 } }) := by
  rw [← remoteLink_timeouts addr s (s.brl.timeouts + 1)]
  rfl

/-! ### The rows -/

/-- Settles O25: each row by the equation of its meaning where its guard holds. -/
theorem memoryRows : Obligations.MemoryRows := by
  intro s alive
  refine ⟨fun inst cw k hk back => ?_, fun inst cw k hk fits clear unarmed => ?_,
    fun inst cw k c pat inj v stored hk fits marked hc met kept => ?_, fun e ok limit => ?_, fun row inRow => ?_, fun ch => ?_,
    fun m addr write block hang => ?_, fun m addr write w o remote window hang => ?_, fun val set => ?_, fun val clear => ?_⟩
  · subst hk
    refine Runs.of_act (show _ = execEccWriteBack inst cw s from rfl) (by rw [alive, back]; rfl) ?_
    obtain ⟨same, others, frame⟩ := s.setEcc_frame (MemInst.key inst) fun r => { r with
      bad := tabDel r.bad cw, back := r.back.filter (· != cw), injected := setDel r.injected cw
      last := r.last.map fun p => if p.1 == cw then (p.1, p.2.1, true) else p }
    refine ⟨same.trans ?_, others, frame⟩
    simp only [beq_iff_eq]
  · subst hk
    refine Runs.of_act (show _ = execPatrolScrubRead inst cw s from rfl) (by rw [alive, decide_eq_true fits]; rfl) ?_
    exact congrArg Prod.snd (eccCheck_of_clear (c := { key := MemInst.key inst, idx := cw, start := cw * instK (MemInst.key inst), k := instK (MemInst.key inst) })
      clear unarmed true)
  · subst hk hc
    refine Runs.of_act (show _ = execPatrolScrubRead inst cw s from rfl) (by rw [alive, decide_eq_true fits]; rfl) ?_
    exact eccCheck_first marked met kept
  · exact Runs.of_act (show _ = execLspStarveLimit e s from rfl) (by rw [alive, ok, bne_iff_ne.mpr limit]; rfl) rfl
  · exact Runs.of_act (show _ = execSpareRowCopy row s from rfl) (by rw [alive, inRow]; rfl) rfl
  · exact ⟨s, rfl, rfl⟩
  · refine Runs.of_act (show _ = execFabricTimeout m addr write s from rfl) (Bool.and_eq_true_iff.mpr ⟨Bool.and_eq_true_iff.mpr ⟨alive, block⟩, hang⟩) ?_
    obtain ⟨w, frame, eq, again, first⟩ := fabError_timeout write (fabMaster m) addr s
    refine ⟨w, raiseFault Src.fabTimeout 0 unitNone w, frame, rfl, again, first, ?_⟩
    rw [eq]
    exact timedOut_rows m addr write _
  · refine Runs.of_act (show _ = execRemoteAccessTimeout m addr write s from rfl) ?_ ?_
    · rw [alive, remote, hang]
      simp only [window, Bool.and_self]
    · refine ⟨_, rfl, ?_⟩
      rw [remoteTimeout_eq]
      exact timedOut_rows m addr write _
  · exact Runs.of_act (show _ = execFabErrValidWrite val s from rfl) alive (if_pos set)
  · exact Runs.of_act (show _ = execFabErrValidWrite val s from rfl) alive (if_neg (by rw [clear]; decide))

end Sys2Proof.Machine
end

section
/-! PROOFS. DMA channels: go, stop, the descriptor check, completion and error responses (R391 to R394, R397). -/
namespace Sys2Proof.Machine

/-- A command whose condition does not hold leaves the state. -/
theorem Runs.of_not_act {i : Instr} {s : State} {P : State → Prop} {c : Bool} {f : State → State} (e : exec i s = act c f s)
    (h : c = false) (hp : P s) : Runs i s P :=
  ⟨s, by rw [e, act_false h], hp⟩

/-! ### Go and stop (R391, R393) -/

theorem State.setDma_frame (s : State) (k : Nat) (f : DmaCh → DmaCh) : (s.setDma k f).dmaCh k = f (s.dmaCh k) ∧
    (∀ j, j ≠ k → (s.setDma k f).dmaCh j = s.dmaCh j) ∧ s.setDma k f = { s with dma := (s.setDma k f).dma } :=
  ⟨State.dmaCh_setDma_same .., fun _ h => State.dmaCh_setDma_ne s f h, rfl⟩

theorem dmaGo_of_idle {k : Nat} {s : State} (idle : dmaRunning (s.dmaCh k) = false) : dmaGo k none s = s.setDma k fun c => { c with
    code := 1, cause := 0, cur := c.next &&& 0xFFFFFFFFFF, desc := none, stopReq := false, starter := none, i0 := 0, i1 := 0, i2 := 0 } := by
  simp only [dmaGo, idle, Bool.false_eq_true, if_false]

theorem dmaGo_of_running {k : Nat} {s : State} (busy : dmaRunning (s.dmaCh k) = true) :
    dmaGo k none s = s.setDma k fun c => { c with refused := true } := by
  simp only [dmaGo, busy, if_true]

theorem dmaStop_of_running {k : Nat} {s : State} (busy : dmaRunning (s.dmaCh k) = true) :
    dmaStop k s = s.setDma k fun c => { c with stopReq := true } := if_pos busy

theorem dmaStop_of_idle {k : Nat} {s : State} (idle : dmaRunning (s.dmaCh k) = false) : dmaStop k s = s :=
  if_neg (by rw [idle]; decide)

/-! ### The check of a descriptor (R392) -/

theorem dmaCheck_of_badAddress {k : Nat} {s : State} (bad : dmaAddrOk s (k / 16) (s.dmaCh k).cur = false) :
    dmaCheck k s = dmaReport k true (dmaFail k 4 1 s) := by
  simp only [dmaCheck, bad, Bool.not_false, if_true]

/-- The descriptor as it was read, or the failed read. -/
theorem dmaCheck_of_read {k a : Nat} {m : MemRef} {s v : State} {bs : List (Option Byte)} (ok : dmaAddrOk s (k / 16) (s.dmaCh k).cur = true)
    (place : s.memAt (k / 16) (target40 (s.dmaCh k).cur.toNat) 64 = some (m, a)) (load : memLoad m a 64 s = (bs, v)) :
    (∀ b, allBytes bs = some b → ∃ w, w = (v.setDma k fun c => { c with desc := some b, tag := (parseDma b).tag, i0 := 0, i1 := 0, i2 := 0 }) ∧
      (dmaCause w (k / 16) b = none → dmaCheck k s = dmaReport k false w) ∧
      (∀ x, dmaCause w (k / 16) b = some x → dmaCheck k s = dmaReport k true (dmaFail k 4 x w))) ∧
    (allBytes bs = none → dmaCheck k s = dmaReport k true (dmaFail k 6 0 v)) := by
  refine ⟨fun b whole => ⟨_, rfl, fun fine => ?_, fun x cause => ?_⟩, fun hole => ?_⟩
  · simp only [dmaCheck, ok, place, load, whole, fine, Bool.not_true, Bool.false_eq_true, if_false]
  · simp only [dmaCheck, ok, place, load, whole, cause, Bool.not_true, Bool.false_eq_true, if_false]
  · simp only [dmaCheck, ok, place, load, hole, Bool.not_true, Bool.false_eq_true, if_false]

/-! ### Completion, stop and error (R393, R394, R397) -/

@[simp] theorem dmaIrq_dmaCh (k eng j : Nat) (s : State) : (dmaIrq k eng s).dmaCh j = s.dmaCh j := by
  unfold dmaIrq
  split <;> rfl

/-- A completed descriptor: counted, its interrupt and event sent, then the status. -/
theorem dmaComplete_dmaCh (k : Nat) (d : DmaDesc) (v : State) : ∃ i0 i1 i2, (dmaComplete k d v).dmaCh k =
    (fun c => if (v.dmaCh k).stopReq then { c with code := 3 } else if d.chain then { c with cur := d.next &&& 0xFFFFFFFFFF } else { c with code := 2 } : DmaCh → DmaCh)
      { v.dmaCh k with i0 := i0, i1 := i1, i2 := i2, done := (v.dmaCh k).done + 1, desc := none, stopReq := false } := by
  refine ⟨d.total % d.n0, d.total / d.n0 % d.n1, d.total / (d.n0 * d.n1) % 65536, ?_⟩
  have kept : ∀ (id : Nat) (u : State), (assertProducer id u).dmaCh k = u.dmaCh k := fun _ _ => rfl
  have counted : ((if d.irq then dmaIrq k d.eng ((setPos k d d.total v).setDma k fun c => { c with done := c.done + 1, desc := none, stopReq := false })
      else (setPos k d d.total v).setDma k fun c => { c with done := c.done + 1, desc := none, stopReq := false }).dmaCh k) =
      { v.dmaCh k with i0 := d.total % d.n0, i1 := d.total / d.n0 % d.n1, i2 := d.total / (d.n0 * d.n1) % 65536,
                       done := (v.dmaCh k).done + 1, desc := none, stopReq := false } := by
    split <;> simp only [dmaIrq_dmaCh, setPos, State.dmaCh_setDma_same]
  rw [← counted]
  simp only [dmaComplete, State.dmaCh_setDma_same, kept]

theorem dmaRunAll_eq {k : Nat} {s v : State} {b : List Byte} {r : DmaEnd} (desc : (s.dmaCh k).desc = some b)
    (moved : moveFlush (k / 16) (parseDma b) (parseDma b).total s = (r, v)) :
    dmaRunAll k s = dmaEnd k (parseDma b) r (dmaComplete k (parseDma b)) v := by
  simp only [dmaRunAll, desc, moved]

theorem dmaStopAt_of_none {k : Nat} {s : State} (desc : (s.dmaCh k).desc = none) :
    dmaStopAt k s = dmaReport k false (s.setDma k fun c => { c with code := 3, stopReq := false }) := by
  simp only [dmaStopAt, desc]

/-- A stop within a descriptor: the elements before it are written, and the position stays. -/
theorem dmaStopAt_within {k n : Nat} {s v w : State} {b : List Byte} {x : W64} (desc : (s.dmaCh k).desc = some b) (draw : s.draw = (x, v))
    (hn : n = x.toNat % ((parseDma b).total + 1)) (within : n ≠ (parseDma b).total) (moved : moveFlush (k / 16) (parseDma b) n v = (.done, w)) :
    dmaStopAt k s = (setPos k (parseDma b) n w).setDma k fun c => { c with code := 3, stopReq := false, desc := none } := by
  subst hn
  simp only [dmaStopAt, desc, draw, moved, dmaEnd, beq_eq_false_iff_ne.mpr within, Bool.false_eq_true, if_false]

theorem dmaErrorAt_read {k n : Nat} {s v w : State} {b : List Byte} {x : W64} (desc : (s.dmaCh k).desc = some b) (draw : s.draw = (x, v))
    (hn : n = x.toNat % (parseDma b).total) (moved : moveFlush (k / 16) (parseDma b) n v = (.done, w)) :
    dmaErrorAt k false s = dmaFail k 5 0 (setPos k (parseDma b) n w) := by
  subst hn
  simp only [dmaErrorAt, desc, draw, moved, dmaEnd, Bool.false_eq_true, if_false]

theorem dmaErrorAt_write {k n : Nat} {s v w z r : State} {b : List Byte} {d : DmaDesc} {x y : W64} {h : DmaHold} {q : Option Nat}
    (desc : (s.dmaCh k).desc = some b) (hd : d = parseDma b) (draw : s.draw = (x, v)) (hn : n = x.toNat % d.total)
    (moved : moveElems (k / 16) d (n + 1) (n + 1) 0 {} v = (.done, h, w)) (landed : w.draw = (y, z))
    (flushed : flushHold (k / 16) { h with bytes := h.bytes.take (y.toNat % (h.bytes.length + 1) / d.dw * d.dw) } z = (q, r)) :
    dmaErrorAt k true s = dmaFail k 5 0 (setPos k d h.first r) := by
  subst hd hn
  simp only [dmaErrorAt, desc, draw, moved, landed, flushed, if_true]

/-! ### The rows -/

theorem dmaLive_of {s : State} {course ch : Nat} (alive : s.alive = true) (hc : course < 16) (hch : ch < 16)
    (busy : dmaRunning (s.dmaCh (dmaKey course ch)) = true) : dmaLive s course ch = true := by
  rw [dmaLive, alive, decide_eq_true hc, decide_eq_true hch, busy]
  rfl

/-- A go of the PF or the pegbox is its command word. -/
theorem Runs.of_dmaGo {m : Master} {course ch : Nat} {s : State} {P : State → Prop} (host : m = .pf ∨ m = .pegbox) (alive : s.alive = true)
    (hc : course < 16) (hch : ch < 16) (hp : P (dmaGo (dmaKey course ch) none s)) : Runs (.dmaCmdGo m course ch) s P := by
  obtain rfl | rfl := host
  · exact Runs.of_act (show _ = execDmaCmdGo .pf course ch s from rfl) (by rw [alive, decide_eq_true hc, decide_eq_true hch]; rfl) hp
  · exact Runs.of_act (show _ = execDmaCmdGo .pegbox course ch s from rfl) (by rw [alive, decide_eq_true hc, decide_eq_true hch]; rfl) hp

/-- An engine's go is the store that wrote it, where one is ready. -/
theorem Runs.of_dmaGo_engine {course p ch : Nat} {s : State} {P : State → Prop} (alive : s.alive = true) (hc : course < 16) (hch : ch < 16)
    (hp : P (match goStore ⟨course, p⟩ course ch s with | some i => storeAck ⟨course, p⟩ i s | none => s)) :
    Runs (.dmaCmdGo (.engine course p) course ch) s P :=
  Runs.of_act (show _ = execDmaCmdGo (.engine course p) course ch s from rfl)
    (by rw [alive, decide_eq_true hc, decide_eq_true hch, dmaMaster, beq_self_eq_true]; rfl) hp

theorem Runs.of_dmaStop {m : Master} {course ch : Nat} {s : State} {P : State → Prop} (alive : s.alive = true) (hc : course < 16)
    (hch : ch < 16) (master : dmaMaster m course = true) (hp : P (dmaStop (dmaKey course ch) s)) : Runs (.dmaCmdStop m course ch) s P :=
  Runs.of_act (show _ = execDmaCmdStop m course ch s from rfl) (by rw [alive, decide_eq_true hc, decide_eq_true hch, master]; rfl) hp

section
variable {course ch : Nat} {s : State} {P : State → Prop} (alive : s.alive = true) (hc : course < 16) (hch : ch < 16)
  (busy : dmaRunning (s.dmaCh (dmaKey course ch)) = true)
include alive hc hch busy

theorem Runs.of_dmaCheck (open' : (s.dmaCh (dmaKey course ch)).desc = none) (hp : P (dmaCheck (dmaKey course ch) s)) :
    Runs (.dmaDescriptorCheck course ch) s P :=
  Runs.of_act (show _ = execDmaDescriptorCheck course ch s from rfl) (by rw [dmaLive_of alive hc hch busy, open']; rfl) hp

theorem Runs.of_dmaRunAll {b : List Byte} (desc : (s.dmaCh (dmaKey course ch)).desc = some b) (hp : P (dmaRunAll (dmaKey course ch) s)) :
    Runs (.dmaDescriptorComplete course ch) s P :=
  Runs.of_act (show _ = execDmaDescriptorComplete course ch s from rfl) (by rw [dmaLive_of alive hc hch busy, desc]; rfl) hp

theorem Runs.of_dmaStopAt (stop : (s.dmaCh (dmaKey course ch)).stopReq = true) (hp : P (dmaStopAt (dmaKey course ch) s)) :
    Runs (.dmaStopTaken course ch) s P :=
  Runs.of_act (show _ = execDmaStopTaken course ch s from rfl) (by rw [dmaLive_of alive hc hch busy, stop]; rfl) hp

theorem Runs.of_dmaErrorAt {write : Bool} {b : List Byte} (desc : (s.dmaCh (dmaKey course ch)).desc = some b)
    (hp : P (dmaErrorAt (dmaKey course ch) write s)) : Runs (.dmaErrorResponse course ch write) s P :=
  Runs.of_act (show _ = execDmaErrorResponse course ch write s from rfl) (by rw [dmaLive_of alive hc hch busy, desc]; rfl) hp

end

/-- Settles O26: each row by the equation of its meaning where its guard holds. -/
theorem dmaRows : Obligations.DmaRows := by
  intro course ch k s alive hc hch hk
  refine ⟨fun m host idle => ?_, fun m host busy => ?_, fun p i ok found => ?_, fun p none' => ?_, fun m other => ⟨?_, ?_⟩,
    fun m master busy => ?_, fun m master idle => ?_, fun m a bs b v busy desc addr place load whole => ?_,
    fun m a bs v busy desc addr place load hole => ?_, fun busy desc addr => ?_, fun b d v busy desc hd moved => ?_,
    fun b d code i v busy desc hd moved => ?_, fun busy stop desc => ?_,
    fun b d x n v w busy stop desc hd draw hn within moved => ?_, fun b d x n v w busy desc hd draw hn moved => ?_,
    fun b d x n v h w y z q r busy desc hd draw hn moved landed flushed => ?_⟩ <;> subst hk
  · refine Runs.of_dmaGo host alive hc hch ?_
    rw [dmaGo_of_idle idle]
    exact State.setDma_frame ..
  · refine Runs.of_dmaGo host alive hc hch ?_
    rw [dmaGo_of_running busy]
    exact State.setDma_frame ..
  · refine Runs.of_dmaGo_engine alive hc hch ?_
    rw [found]
    exact act_true (by rw [alive, ok]; rfl) _ _
  · refine Runs.of_dmaGo_engine alive hc hch ?_
    rw [none']
  · exact Runs.of_not_act (show _ = execDmaCmdGo m course ch s from rfl) (by rw [other, Bool.and_false]) rfl
  · exact Runs.of_not_act (show _ = execDmaCmdStop m course ch s from rfl) (by rw [other, Bool.and_false]) rfl
  · refine Runs.of_dmaStop alive hc hch master ?_
    rw [dmaStop_of_running busy]
    exact State.setDma_frame ..
  · exact Runs.of_dmaStop alive hc hch master (dmaStop_of_idle idle)
  · exact Runs.of_dmaCheck alive hc hch busy desc ((dmaCheck_of_read addr place load).1 b whole)
  · exact Runs.of_dmaCheck alive hc hch busy desc ((dmaCheck_of_read addr place load).2 hole)
  · exact Runs.of_dmaCheck alive hc hch busy desc (dmaCheck_of_badAddress addr)
  · subst hd
    refine Runs.of_dmaRunAll alive hc hch busy desc ?_
    rw [dmaRunAll_eq desc moved]
    obtain ⟨i0, i1, i2, eq⟩ := dmaComplete_dmaCh (dmaKey course ch) (parseDma b) v
    rw [dmaEnd, eq]
    cases (v.dmaCh (dmaKey course ch)).stopReq <;> cases (parseDma b).chain <;> simp
  · subst hd
    exact Runs.of_dmaRunAll alive hc hch busy desc (dmaRunAll_eq desc moved)
  · exact Runs.of_dmaStopAt alive hc hch busy stop (dmaStopAt_of_none desc)
  · subst hd
    refine Runs.of_dmaStopAt alive hc hch busy stop ?_
    rw [dmaStopAt_within desc draw hn within moved]
    refine ⟨?_, ?_, ?_, ?_, fun j other => ?_, rfl⟩
    · rw [State.dmaCh_setDma_same]
    · rw [State.dmaCh_setDma_same]
    · rw [State.dmaCh_setDma_same]
    · rw [State.dmaCh_setDma_same, setPos, State.dmaCh_setDma_same]
    · rw [State.dmaCh_setDma_ne _ _ other, setPos, State.dmaCh_setDma_ne _ _ other]
  · subst hd
    exact Runs.of_dmaErrorAt alive hc hch busy desc (dmaErrorAt_read desc draw hn moved)
  · exact Runs.of_dmaErrorAt alive hc hch busy desc (dmaErrorAt_write desc hd draw hn moved landed flushed)

end Sys2Proof.Machine
end

section
/-! PROOFS. SEN pulses, deliveries, clearing reads, balls and the storm window (R401, R403, R404, R414, R422, R517). -/
namespace Sys2Proof.Machine

/-! ### Time brought forward (log 5) -/

theorem State.bringTo_mono (s : State) (m : Nat) : (s.bringTo m).time.mono = max s.time.mono m := by
  show s.time.mono + (m - s.time.mono) = max s.time.mono m
  omega

@[simp] theorem State.bringTo_sen (s : State) (m : Nat) : (s.bringTo m).sen = s.sen := rfl

@[simp] theorem State.bringTo_pins (s : State) (m : Nat) : (s.bringTo m).pins = s.pins := rfl

/-! ### Pulses and deliveries (R401, R404) -/

/-- A pulse moves no time: each of its producers asserts in the cycle of the write. -/
theorem foldl_pulse (val : W32) {c : Nat} (l : List Nat) {s : State} (at' : s.senCycle = c) :
    l.foldl (fun s i => if val.getLsbD i then assertProducer (508 + i) s else s) s =
    l.foldl (fun v i => if val.getLsbD i then { v with sen := v.sen.assert (508 + i) c } else v) s := by
  induction l generalizing s with
  | nil => rfl
  | cons i l ih =>
    rw [List.foldl_cons, List.foldl_cons]
    cases val.getLsbD i with
    | false => exact ih at'
    | true =>
      subst at'
      exact ih (s := assertProducer (508 + i) s) rfl

theorem swPulse_eq (val : W32) (s : State) : swPulse val s = ([0, 1, 2, 3] : List Nat).foldl
    (fun v i => if val.getLsbD i then { v with sen := v.sen.assert (508 + i) s.senCycle } else v) s := foldl_pulse val _ rfl

theorem deliverNext_of_none {s : State} (none' : s.sen.firstDue = none) : deliverNext s = s := by
  unfold deliverNext
  rw [none']

/-- Time has come to a SEN cycle and its events are no longer on their way. -/
def arrived (d : Nat) (s : State) : State :=
  (s.bringTo (20 * d)).modSen fun n => { n with inflight := n.inflight.filter fun e => e.due != d }

theorem arrived_frame (d : Nat) (s : State) : (arrived d s).sen.inflight = s.sen.inflight.filter (fun e => e.due != d) ∧
    20 * d ≤ (arrived d s).time.mono ∧ (arrived d s).time.mono = max s.time.mono (20 * d) :=
  ⟨rfl, State.mono_bringTo .., State.bringTo_mono ..⟩

theorem deliverNext_of_due {s : State} {d : Nat} (due : s.sen.firstDue = some d) : deliverNext s = (List.range 112).foldl
    (fun w ch => deliverChannel ch ((s.sen.inflight.filter fun e => e.due == d).filter fun e => e.ch == ch) w) (arrived d s) := by
  unfold deliverNext
  rw [due]
  rfl

/-! ### Balls (R414) -/

theorem driveBall_frame (p : Nat) (lvl : Bool) (s : State) : (driveBall p lvl s).sen = s.sen ∧ (driveBall p lvl s).time = s.time ∧
    (s.pins.safeHeld = false → (driveBall p lvl s).pins = { s.pins with tioOut := putBit s.pins.tioOut p lvl }) ∧
    (s.pins.safeHeld = true → (driveBall p lvl s).pins = s.pins) := by
  unfold driveBall
  cases s.pins.safeHeld with
  | false => exact ⟨rfl, rfl, fun _ => rfl, nofun⟩
  | true => exact ⟨rfl, rfl, nofun, fun _ => rfl⟩

theorem ballDrive_of_none {p : Nat} {s : State} (none' : (s.sen.ballDue.find? fun b => b.1 == p) = none) : ballDrive p s = s := by
  unfold ballDrive
  rw [none']

/-- Time has come to the change and it is no longer due. -/
def ballTaken (p due : Nat) (lvl : Bool) (s : State) : State :=
  (s.bringTo (20 * due)).modSen fun n => { n with ballDue := n.ballDue.erase (p, due, lvl) }

theorem ballTaken_frame (p due : Nat) (lvl : Bool) (s : State) : (ballTaken p due lvl s).sen.ballDue = s.sen.ballDue.erase (p, due, lvl) ∧
    20 * due ≤ (ballTaken p due lvl s).time.mono ∧ (ballTaken p due lvl s).pins = s.pins :=
  ⟨rfl, State.mono_bringTo .., rfl⟩

theorem ballDrive_of_due {p q due : Nat} {lvl : Bool} {s : State} (found : (s.sen.ballDue.find? fun b => b.1 == p) = some (q, due, lvl)) :
    ballDrive p s = if tioFunc (s.sen.tioCfg p) == 1 then driveBall p lvl (ballTaken p due lvl s) else ballTaken p due lvl s := by
  unfold ballDrive
  rw [found]
  rfl

/-! ### The storm window (R517) -/

/-- Time has come to the end of the window and the counts start anew. -/
def windowOver (s : State) : State := (s.bringTo ((s.time.mono / 163840 + 1) * 163840)).modSen fun n => { n with storm := [] }

theorem windowOver_frame (s : State) : (windowOver s).sen.storm = [] ∧ (windowOver s).time.mono = (s.time.mono / 163840 + 1) * 163840 := by
  have mono : (windowOver s).time.mono = max s.time.mono ((s.time.mono / 163840 + 1) * 163840) := State.bringTo_mono ..
  exact ⟨rfl, by omega⟩

theorem stormEnd_eq (s : State) : stormEnd s = (List.range 64).foldl
    (fun w ch => setCause (Src.senStorm ch) (w.fcu.stormLimit != 0 && w.fcu.stormLimit < tabGet s.sen.storm ch 0) 0 w) (windowOver s) := rfl

/-! ### The rows -/

theorem senUp_of {s : State} (alive : s.alive = true) (ready : s.ready Rdy.senTmr = true) : s.senUp = true := by
  rw [State.senUp, alive, ready]
  rfl

/-- Settles O27: each row by the equation of its meaning where its guard holds. -/
theorem senRows : Obligations.SenRows := by
  intro s alive
  refine ⟨fun val ready => ?_, fun none' => ?_, fun d due => ?_, fun e j w hc hp hj hw => ?_, fun k hk ready => ?_, fun p hp none' => ?_,
    fun p q due lvl hp found => ?_, ?_⟩
  · exact Runs.of_act (show _ = execSenSwpulseWrite val s from rfl) (senUp_of alive ready) (swPulse_eq val s)
  · exact Runs.of_act (show _ = execSenEventDelivery s from rfl) alive (deliverNext_of_none none')
  · refine Runs.of_act (show _ = execSenEventDelivery s from rfl) alive ?_
    obtain ⟨left, reached, mono⟩ := arrived_frame d s
    exact ⟨arrived d s, left, reached, mono, deliverNext_of_due due⟩
  · subst hw
    exact Runs.of_act (show _ = execVeSenselRead e j s from rfl)
      (by rw [alive, decide_eq_true hc, decide_eq_true hp, decide_eq_true hj]; rfl) rfl
  · exact Runs.of_act (show _ = execTioCfgRead k s from rfl) (by rw [senUp_of alive ready, decide_eq_true hk]; rfl) rfl
  · exact Runs.of_act (show _ = execTioBallDrive p s from rfl) (by rw [alive, decide_eq_true hp]; rfl) (ballDrive_of_none none')
  · refine Runs.of_act (show _ = execTioBallDrive p s from rfl) (by rw [alive, decide_eq_true hp]; rfl) ?_
    rw [ballDrive_of_due found]
    obtain ⟨taken, reached, pins⟩ := ballTaken_frame p due lvl s
    obtain ⟨sen, time, free, held⟩ := driveBall_frame p lvl (ballTaken p due lvl s)
    rw [pins] at free held
    by_cases func : tioFunc (s.sen.tioCfg p) = 1
    · rw [if_pos (beq_iff_eq.mpr func), sen, time]
      exact ⟨taken, reached, fun _ => free, fun h => held (h.resolve_left fun n => n func)⟩
    · rw [if_neg (fun h => func (beq_iff_eq.mp h))]
      exact ⟨taken, reached, fun h => absurd h func, fun _ => pins⟩
  · refine Runs.of_act (show _ = execStormWindowEnd s from rfl) alive ?_
    obtain ⟨storm, mono⟩ := windowOver_frame s
    exact ⟨windowOver s, storm, mono, stormEnd_eq s⟩

end Sys2Proof.Machine
end

section
/-! PROOFS. Timers: ticks, carries, compares, counts, reads, captures and GSTART (R410 to R413, R416, R417, R420). -/
namespace Sys2Proof.Machine

/-! ### One timer (R409, R411) -/

theorem State.setTimer_frame (s : State) (i : Nat) (f : Timer → Timer) : (s.setTimer i f).timer i = f (s.timer i) ∧
    (∀ j, j ≠ i → (s.setTimer i f).timer j = s.timer j) ∧ s.setTimer i f = { s with sen := (s.setTimer i f).sen } :=
  ⟨State.timer_setTimer_same .., fun _ h => State.timer_setTimer_ne s f h, rfl⟩

/-! ### Counts and compares (R410, R412, R413) -/

theorem countOne_of_noWrap {i : Nat} {v : State} (noWrap : ((matchUpTo i 3 v).timer i).cnt + 1 ≠ 0) :
    countOne i v = (matchUpTo i 3 v).setTimer i fun x => { x with cnt := x.cnt + 1 } := by
  simp only [countOne, State.timer_setTimer_same, beq_eq_false_iff_ne.mpr noWrap, Bool.false_eq_true, if_false]

theorem timerTick_of_clock {i : Nat} {s : State} (clock : (s.timer i).mode = 0) (counts : s.counts i = true) : timerTick i s =
    (fun v : State => v.setTimer i fun y => { y with lastTick := v.senCycle })
      (countOne i (s.bringTo (20 * ((s.timer i).lastTick + (s.timer i).pre + 1)))) := by
  simp only [timerTick, clock, counts, beq_self_eq_true, if_true]

theorem timerTick_of_stopped {i : Nat} {s : State} (clock : (s.timer i).mode = 0) (stopped : s.counts i = false) : timerTick i s = s := by
  simp only [timerTick, clock, stopped, beq_self_eq_true, if_true, Bool.false_eq_true, if_false]

/-- A linked timer counts at its carry, and mode 3 is reserved. -/
theorem timerTick_of_linked {i : Nat} {s : State} (mode : (s.timer i).mode = 1 ∨ (s.timer i).mode = 3) : timerTick i s = s := by
  have neither : ((s.timer i).mode == 0) = false ∧ ((s.timer i).mode == 2) = false := by
    obtain h | h := mode <;> rw [h] <;> exact ⟨rfl, rfl⟩
  simp only [timerTick, neither.1, neither.2, Bool.false_eq_true, if_false]

theorem timerTick_of_event {i d : Nat} {s : State} (mode : (s.timer i).mode = 2) (due : s.sen.firstDue = some d)
    (here : (s.sen.inflight.any fun e => e.due == d && e.consumers.contains (.count i)) = true) : timerTick i s = deliverNext s := by
  have clock : ((2 : Nat) == 0) = false := rfl
  simp only [timerTick, mode, due, here, clock, beq_self_eq_true, if_true, Bool.false_eq_true, if_false]

/-- A carry that arrives: time has come to it and it no longer waits. -/
def carryTaken (i : Nat) (s : State) : State :=
  (s.bringTo (20 * (s.timer i).carryDue)).setTimer i fun y => { y with carry := false }

theorem carryTaken_frame (i : Nat) (s : State) : (carryTaken i s).time.mono = max s.time.mono (20 * (s.timer i).carryDue) ∧
    (carryTaken i s).timer i = { s.timer i with carry := false } ∧ (∀ j, j ≠ i → (carryTaken i s).timer j = s.timer j) :=
  ⟨State.bringTo_mono .., State.timer_setTimer_same .., fun _ h => State.timer_setTimer_ne _ _ h⟩

theorem carryArrive_of_none {i : Nat} {s : State} (none' : (s.timer i).carry = false) : carryArrive i s = s :=
  if_neg (by rw [none']; decide)

theorem carryArrive_of_carry {i : Nat} {s : State} (carry : (s.timer i).carry = true) : carryArrive i s =
    if (carryTaken i s).counts i && (s.timer i).mode == 1 then countOne i (carryTaken i s) else carryTaken i s := if_pos carry

theorem matchUpTo_of_unarmed {i c : Nat} {s : State} (unarmed : ∀ k, k ≤ c → (s.timer i).arm.getLsbD k = false) : matchUpTo i c s = s := by
  unfold matchUpTo
  refine foldl_keeps (P := (· = s)) (fun t k hk eq => ?_) rfl
  subst eq
  exact if_neg (by rw [unarmed k (Nat.lt_succ_iff.mp (List.mem_range.mp hk)), Bool.false_and]; exact Bool.false_ne_true)

theorem matchUpTo_first {i : Nat} {s : State} (armed : (s.timer i).arm.getLsbD 0 = true)
    (met : passed (s.timer i).cnt (s.timer i).cmp[0]! = true) : matchUpTo i 0 s = matchOne i 0 s :=
  if_pos (by rw [armed, met]; rfl)

/-! ### Writes of a compare or a count (R411, R412) -/

/-- The low half held at a register goes. -/
def lowTaken (key : Nat) (s : State) : State := { s with fab := { s.fab with heldLo := tabDel s.fab.heldLo key } }

theorem writeCmpHalf_high (i c : Nat) (val : W32) (s : State) : writeCmpHalf i c true val s =
    armCompare i c (mk64 (tabGet s.fab.heldLo (timerBase i + 0x20 + 8 * c) (lo32 (s.timer i).cmp[c]!)) val)
      (lowTaken (timerBase i + 0x20 + 8 * c) s) := rfl

theorem writeCntHalf_high (i : Nat) (val : W32) (s : State) : writeCntHalf i true val s =
    writeCount i (mk64 (tabGet s.fab.heldLo (timerBase i + 0x18) (lo32 (s.timer i).cnt)) val) (lowTaken (timerBase i + 0x18) s) := rfl

theorem armCompare_of_quiet {i c : Nat} {v : W64} {s : State} (quiet : ((s.timer i).arm.getLsbD c && passed (s.timer i).cnt (s.timer i).cmp[c]!) = false) :
    armCompare i c v s = s.setTimer i fun x => { x with cmp := x.cmp.set! c v, arm := putBit x.arm c true } := by
  simp only [armCompare, quiet, Bool.false_eq_true, if_false]

theorem armCompare_of_due {i c : Nat} {v : W64} {s : State} (due : ((s.timer i).arm.getLsbD c && passed (s.timer i).cnt (s.timer i).cmp[c]!) = true) :
    armCompare i c v s = (matchOne i c s).setTimer i fun x => { x with cmp := x.cmp.set! c v, arm := putBit x.arm c true } := by
  simp only [armCompare, due, if_true]

/-! ### Captures (R416) -/

/-- A waiting capture lands in its channel. -/
def Timer.landed (k : Nat) (w : CapWait) (rest : List CapWait) (from' : Nat) (x : Timer) : Timer :=
  let x := { x with
    cap := x.cap.set! k w.value
    ovr := if x.fresh.getLsbD k then putBit x.ovr k true else x.ovr
    fresh := putBit x.fresh k true
    landFrom := x.landFrom.set! k from' }
  if k == 0 then { x with wait0 := rest } else { x with wait1 := rest }

theorem Timer.landed_frame (k : Nat) (w : CapWait) (rest : List CapWait) (from' : Nat) (x : Timer) :
    (x.landed k w rest from').cap = x.cap.set! k w.value ∧ (x.landed k w rest from').landFrom = x.landFrom.set! k from' ∧
    (x.landed k w rest from').fresh = putBit x.fresh k true ∧
    (x.landed k w rest from').ovr = (if x.fresh.getLsbD k then putBit x.ovr k true else x.ovr) ∧
    (if k = 0 then (x.landed k w rest from').wait0 else (x.landed k w rest from').wait1) = rest := by
  unfold Timer.landed
  by_cases h : k = 0
  · subst h
    exact ⟨rfl, rfl, rfl, rfl, rfl⟩
  · simp only [h, beq_iff_eq, if_false, and_self]

/-- Time has come to the landing and the oldest capture has landed. -/
def captureLanded (i k : Nat) (w : CapWait) (rest : List CapWait) (s : State) : State :=
  (fun v : State => v.setTimer i (Timer.landed k w rest (v.senCycle + 1))) (s.bringTo (20 * (s.timer i).landFrom[k]!))

theorem captureLanded_frame (i k : Nat) (w : CapWait) (rest : List CapWait) (s : State) :
    (captureLanded i k w rest s).time.mono = max s.time.mono (20 * (s.timer i).landFrom[k]!) ∧
    (captureLanded i k w rest s).timer i = (s.timer i).landed k w rest ((captureLanded i k w rest s).senCycle + 1) ∧
    (∀ j, j ≠ i → (captureLanded i k w rest s).timer j = s.timer j) :=
  ⟨State.bringTo_mono .., State.timer_setTimer_same .., fun _ h => State.timer_setTimer_ne _ _ h⟩

theorem landCapture_of_none {i k : Nat} {s : State} (none' : (if k = 0 then (s.timer i).wait0 else (s.timer i).wait1) = []) :
    landCapture i k s = s := by
  unfold landCapture
  simp only [beq_iff_eq, none']

theorem landCapture_of_waiting {i k : Nat} {s : State} {w : CapWait} {rest : List CapWait}
    (waiting : (if k = 0 then (s.timer i).wait0 else (s.timer i).wait1) = w :: rest) : landCapture i k s =
    (fun v : State => postBound 5 (· == 0x8000 + 4 * i + k) none w.stamp w.ql (if (s.timer i).cmpctl.getLsbD (16 + k) then eventLine i v else v))
      (captureLanded i k w rest s) := by
  have found : (if (k == 0) = true then (s.timer i).wait0 else (s.timer i).wait1) = w :: rest := by
    simpa only [beq_iff_eq] using waiting
  unfold landCapture
  simp only [found]
  rfl

/-! ### The rows -/

section
variable {i : Nat} {s : State} (alive : s.alive = true) (hi : i < 160)
include alive hi

theorem Runs.of_timerTick {P : State → Prop} (hp : P (timerTick i s)) : Runs (.timerTick i) s P :=
  Runs.of_act (show _ = execTimerTick i s from rfl) (by rw [alive, decide_eq_true hi]; rfl) hp

theorem Runs.of_carryArrive {P : State → Prop} (hp : P (carryArrive i s)) : Runs (.linkedCarryArrive i) s P :=
  Runs.of_act (show _ = execLinkedCarryArrive i s from rfl) (by rw [alive, decide_eq_true hi]; rfl) hp

theorem Runs.of_matchUpTo {c : Nat} {P : State → Prop} (hc : c < 4) (hp : P (matchUpTo i c s)) : Runs (.timerCompareMatch i c) s P :=
  Runs.of_act (show _ = execTimerCompareMatch i c s from rfl) (by rw [alive, decide_eq_true hi, decide_eq_true hc]; rfl) hp

theorem Runs.of_landCapture {k : Nat} {P : State → Prop} (hk : k < 2) (hp : P (landCapture i k s)) : Runs (.captureLand i k) s P :=
  Runs.of_act (show _ = execCaptureLand i k s from rfl) (by rw [alive, decide_eq_true hi, decide_eq_true hk]; rfl) hp

variable (ready : s.ready Rdy.senTmr = true)
include ready

theorem Runs.of_writeCmpHalf {c : Nat} {high : Bool} {val : W32} {P : State → Prop} (hc : c < 4) (hp : P (writeCmpHalf i c high val s)) :
    Runs (.tmrCmpWrite i c high val) s P :=
  Runs.of_act (show _ = execTmrCmpWrite i c high val s from rfl) (by rw [senUp_of alive ready, decide_eq_true hi, decide_eq_true hc]; rfl) hp

theorem Runs.of_writeCntHalf {high : Bool} {val : W32} {P : State → Prop} (hp : P (writeCntHalf i high val s)) :
    Runs (.tmrCntWrite i high val) s P :=
  Runs.of_act (show _ = execTmrCntWrite i high val s from rfl) (by rw [senUp_of alive ready, decide_eq_true hi]; rfl) hp

/-- A write of a high half after the match of the old value that is due, where one is. -/
theorem Runs.of_cmpHigh {c key : Nat} {val : W32} {v : W64} {P : State → Prop} (hc : c < 4) (hkey : key = timerBase i + 0x20 + 8 * c)
    (hv : v = mk64 (tabGet s.fab.heldLo key (lo32 (s.timer i).cmp[c]!)) val) (hp : P (armCompare i c v (lowTaken key s))) :
    Runs (.tmrCmpWrite i c true val) s P := by
  subst hkey hv
  exact Runs.of_writeCmpHalf alive hi ready hc hp

end

/-- Settles O28: each row by the equation of its meaning where its guard holds. -/
theorem timerRows : Obligations.TimerRows := by
  intro i s x alive hi hx
  subst hx
  refine ⟨fun clock counts => ?_, fun clock stopped => ?_, fun mode => ?_, fun d mode due here => ?_, fun none' => ?_, fun carry => ?_,
    fun armed met => ?_, fun c hc unarmed => ?_, fun c hc => ?_, fun c val hc ready => ?_, fun c val key v hc hkey hv ready quiet => ?_,
    fun c val key v hc hkey hv ready due => ?_, fun val ready => ?_, fun val v hv ready => ?_, fun ready => ?_, fun ready => ?_,
    fun k hk ready => ?_, fun k hk none' => ?_, fun k w rest hk waiting => ?_, fun on ready => ?_⟩
  · refine Runs.of_timerTick alive hi ?_
    rw [timerTick_of_clock clock counts]
    refine ⟨s.bringTo (20 * ((s.timer i).lastTick + (s.timer i).pre + 1)), _, State.bringTo_mono .., rfl, rfl, fun noWrap => ?_⟩
    rw [countOne_of_noWrap noWrap]
    generalize matchUpTo i 3 _ = w
    refine ⟨?_, ?_, fun j other => ?_, rfl⟩
    · rw [State.timer_setTimer_same, State.timer_setTimer_same]
    · rw [State.timer_setTimer_same]
      rfl
    · rw [State.timer_setTimer_ne _ _ other, State.timer_setTimer_ne _ _ other]
  · exact Runs.of_timerTick alive hi (timerTick_of_stopped clock stopped)
  · exact Runs.of_timerTick alive hi (timerTick_of_linked mode)
  · exact Runs.of_timerTick alive hi (timerTick_of_event mode due here)
  · exact Runs.of_carryArrive alive hi (carryArrive_of_none none')
  · refine Runs.of_carryArrive alive hi ?_
    rw [carryArrive_of_carry carry]
    obtain ⟨mono, same, others⟩ := carryTaken_frame i s
    refine ⟨carryTaken i s, mono, same, others, fun counts link => ?_, fun h => ?_⟩
    · rw [counts, link]
      exact if_pos rfl
    · exact if_neg (by simpa [Bool.and_eq_true, ← not_and_or, or_iff_not_imp_left] using h)
  · exact Runs.of_matchUpTo alive hi (by decide) (matchUpTo_first armed met)
  · exact Runs.of_matchUpTo alive hi hc (matchUpTo_of_unarmed unarmed)
  · exact Runs.of_matchUpTo alive hi hc rfl
  · exact Runs.of_writeCmpHalf alive hi ready hc rfl
  · refine Runs.of_cmpHigh alive hi ready hc hkey hv ?_
    rw [armCompare_of_quiet (s := lowTaken key s) quiet]
    obtain ⟨same, others, frame⟩ := (lowTaken key s).setTimer_frame i fun x => { x with cmp := x.cmp.set! c v, arm := putBit x.arm c true }
    exact ⟨same, tabFind_tabDel_same .., others, frame⟩
  · refine Runs.of_cmpHigh alive hi ready hc hkey hv ?_
    rw [armCompare_of_due (s := lowTaken key s) due]
    exact ⟨_, rfl, State.setTimer_frame ..⟩
  · exact Runs.of_writeCntHalf alive hi ready rfl
  · subst hv
    refine Runs.of_writeCntHalf alive hi ready ?_
    rw [writeCntHalf_high]
    refine ⟨lowTaken (timerBase i + 0x18) s, rfl, fun run => if_pos run, fun stopped => ?_⟩
    rw [writeCount, if_neg (by rw [show ((lowTaken (timerBase i + 0x18) s).timer i).run = false from stopped]; decide)]
    exact State.setTimer_frame ..
  · refine Runs.of_act (show _ = execTmrEvctlRead i s from rfl) (by rw [senUp_of alive ready, decide_eq_true hi]; rfl) ?_
    obtain ⟨same, others, -⟩ := s.setTimer_frame i fun x => { x with coinc := 0 }
    exact ⟨rfl, same, others, rfl⟩
  · refine Runs.of_act (show _ = execTmrCapselRead i s from rfl) (by rw [senUp_of alive ready, decide_eq_true hi]; rfl) ?_
    obtain ⟨same, others, -⟩ := s.setTimer_frame i fun x => { x with capsel := x.capsel &&& 0x00FF00FF }
    exact ⟨rfl, same, others, rfl⟩
  · refine Runs.of_act (show _ = execTmrCapLoRead i k s from rfl) (by rw [senUp_of alive ready, decide_eq_true hi, decide_eq_true hk]; rfl) ?_
    obtain ⟨same, others, -⟩ := s.setTimer_frame i fun x => { x with
      capLatch := x.capLatch.set! k (hi32 (s.timer i).cap[k]!), fresh := putBit x.fresh k false, landFrom := x.landFrom.set! k (s.senCycle + 1) }
    exact ⟨rfl, same, others, rfl⟩
  · exact Runs.of_landCapture alive hi hk (landCapture_of_none none')
  · refine Runs.of_landCapture alive hi hk ?_
    obtain ⟨mono, same, others⟩ := captureLanded_frame i k w rest s
    obtain ⟨cap, from', fresh, ovr, wait⟩ := Timer.landed_frame k w rest ((captureLanded i k w rest s).senCycle + 1) (s.timer i)
    rw [← same] at cap from' fresh ovr wait
    exact ⟨captureLanded i k w rest s, mono, cap, from', fresh, ovr, wait, others, landCapture_of_waiting waiting⟩
  · cases on with
    | true => exact Runs.of_act (show _ = execTmrGstartGo s from rfl) (senUp_of alive ready) rfl
    | false => exact Runs.of_act (show _ = execTmrGstartStop s from rfl) (senUp_of alive ready) rfl

end Sys2Proof.Machine
end

section
/-! PROOFS. CSI-2 packets (R424, R434, R436, R437, R447). -/
namespace Sys2Proof.Machine

/-! ### Ports (R424) -/

theorem State.setSport_frame (s : State) (ty p : Nat) (f : Port → Port) : (s.setSport ty p f).sport ty p = f (s.sport ty p) ∧
    (∀ ty2 p2, 8 * ty2 + p2 ≠ 8 * ty + p → (s.setSport ty p f).sport ty2 p2 = s.sport ty2 p2) ∧
    s.setSport ty p f = { s with ports := (s.setSport ty p f).ports } :=
  ⟨State.sport_setSport_same .., fun _ _ h => State.sport_setSport_ne s f h, rfl⟩

theorem time_of_wide {s t : State} (h : t.wide = s.wide) : t.time = s.time := congrArg (·.2.2.2.2.2.1) h

theorem quality_of_time {s t : State} (h : t.time = s.time) : t.quality = s.quality := by
  unfold State.quality
  rw [h]

/-! ### Frames (R436, R437) -/

/-- The frame that a frame start opens: its entry, its base and its stamps. -/
def openedFrame (p vc : Nat) (frame : W16) (s : State) : CsiFrame :=
  let entry := (s.csi p).vcEntry vc
  let used := (tabGet s.ports.usedEdge (16 * p + vc) []).filter (recent s.now)
  let trig := entryByte entry 0
  let edge := if trig < 16 then frameEdge (tabGet s.ports.trigs trig {}).edges used s.now (entryWord entry 12 4) else none
  let base := edge.getD (s.now, s.quality)
  { entry, frame, base := base.1, baseQl := base.2, nobase := edge.isNone, lines := 0, fsVt := s.now, fsQl := s.quality, ls := none }

theorem openedFrame_base {p vc : Nat} {frame : W16} {s : State} (nobase : (openedFrame p vc frame s).nobase = true) :
    (openedFrame p vc frame s).base = s.now ∧ (openedFrame p vc frame s).baseQl = s.quality := by
  have none' := Option.isNone_iff_eq_none.mp nobase
  constructor
  · exact congrArg (fun e : Option (W64 × Quality) => (e.getD (s.now, s.quality)).1) none'
  · exact congrArg (fun e : Option (W64 × Quality) => (e.getD (s.now, s.quality)).2) none'

/-- A frame whose entry names no trigger has no base of its own. -/
theorem openedFrame_nobase {p vc : Nat} {frame : W16} {s : State} (beyond : 16 ≤ entryByte (openedFrame p vc frame s).entry 0) :
    (openedFrame p vc frame s).nobase = true :=
  (congrArg Option.isNone (if_neg (Nat.not_lt.mpr beyond))).trans rfl

theorem frameStart_frames (p vc : Nat) (frame : W16) (s : State) :
    (frameStart p vc frame s).ports.frames = tabSet s.ports.frames (16 * p + vc) (openedFrame p vc frame s) := by
  unfold frameStart openedFrame
  have ports : (postBound 4 (fun src => src == 256 * p + vc) none s.now (assertProducer (480 + p) s).quality (assertProducer (480 + p) s)).ports = s.ports :=
    ports_of_deep (s := assertProducer (480 + p) s) (postBound_deep ..)
  have quality : (postBound 4 (fun src => src == 256 * p + vc) none s.now (assertProducer (480 + p) s).quality (assertProducer (480 + p) s)).quality = s.quality :=
    quality_of_time (time_of_wide (s := assertProducer (480 + p) s) (postBound_wide ..))
  dsimp only
  generalize postBound 4 _ _ _ _ _ = v at ports quality ⊢
  simp only [State.csi, State.sport, State.modPorts_ports, State.setSport, ports, quality] <;> rfl

theorem lineStart_of_frame {p vc : Nat} {s : State} {f : CsiFrame} (frame : s.csiFrame p vc = some f) : lineStart p vc s =
    { s with ports := { s.ports with frames := tabSet s.ports.frames (16 * p + vc) { f with ls := some (s.now, s.quality) } } } := by
  unfold lineStart
  rw [frame]
  rfl

theorem lineStart_of_none {p vc : Nat} {s : State} (none' : s.csiFrame p vc = none) : lineStart p vc s = s := by
  unfold lineStart
  rw [none']

/-! ### Long packets (R437) -/

/-- The line of a long packet is counted and its line start used. -/
def lineCounted (p vc : Nat) (f : CsiFrame) (s : State) : State :=
  { s with ports := { s.ports with frames := tabSet s.ports.frames (16 * p + vc) { f with lines := f.lines + 1, ls := none } } }

theorem longPacket_of_none {p vc dt : Nat} {crc : Bool} {data : List Byte} {s : State} (none' : s.csiFrame p vc = none) :
    longPacket p vc dt crc data s = s := by
  unfold longPacket
  rw [none']

theorem longPacket_of_frame {p vc dt : Nat} {crc : Bool} {data : List Byte} {s : State} {f : CsiFrame} (frame : s.csiFrame p vc = some f) :
    (csiSupported dt = false → longPacket p vc dt crc data s = (lineCounted p vc f s).setSport 0 p fun x => x.tick 7) ∧
    (csiSupported dt = true → crc = true → longPacket p vc dt crc data s = offer 0 p data.length (lineRecord p vc f (dt == 0x12) true data)
      ((lineCounted p vc f s).setSport 0 p fun x => x.tick (if dt = 0x12 then 3 else 2))) ∧
    (csiSupported dt = true → crc = false → longPacket p vc dt crc data s = offer 0 p data.length (lineRecord p vc f (dt == 0x12) false data)
      (raiseFault Src.csiErr (w64 p) unitNone (((lineCounted p vc f s).setSport 0 p fun x => x.tick (if dt = 0x12 then 3 else 2)).setSport 0 p
        fun x => x.tick 6))) := by
  have eq : longPacket p vc dt crc data s = if !csiSupported dt then (lineCounted p vc f s).setSport 0 p fun x => x.tick 7
      else offer 0 p data.length (lineRecord p vc f (dt == 0x12) crc data)
        ((fun v => if crc then v else raiseFault Src.csiErr (w64 p) unitNone (v.setSport 0 p fun x => x.tick 6))
          ((lineCounted p vc f s).setSport 0 p fun x => x.tick (if dt = 0x12 then 3 else 2))) := by
    simp only [← beq_iff_eq (a := dt)]
    unfold longPacket
    rw [frame]
    rfl
  rw [eq]
  refine ⟨fun no => if_pos (by rw [no]; rfl), fun yes whole => ?_, fun yes broken => ?_⟩
  · subst whole
    rw [yes]
    rfl
  · subst broken
    rw [yes]
    rfl

/-- A packet whose header is intact, or has been corrected and counted. -/
theorem csiPacket_of_header {p vc dt : Nat} {ecc : HdrEcc} {crc : Bool} {data : List Byte} {s v : State}
    (header : ecc = .ok ∧ v = s ∨ ecc = .corrected ∧ v = s.setSport 0 p (fun x => x.tick 4)) :
    csiPacket p vc dt ecc crc data s = longPacket p vc dt crc data v := by
  obtain ⟨rfl, rfl⟩ | ⟨rfl, rfl⟩ := header <;> rfl

/-! ### The rows -/

theorem Runs.of_csiPacket {p vc dt : Nat} {ecc : HdrEcc} {crc : Bool} {data : List Byte} {s : State} {P : State → Prop} (alive : s.alive = true)
    (hp : p < 8) (hvc : vc < 16) (on : ((s.csi p).byte 0 == 1 || (s.csiFrame p vc).isSome) = true) (holds : P (csiPacket p vc dt ecc crc data s)) :
    Runs (.csi2LongPacket p vc dt ecc crc data) s P :=
  Runs.of_act (show _ = execCsi2LongPacket p vc dt ecc crc data s from rfl)
    (by rw [alive, decide_eq_true hp, decide_eq_true hvc, on]; rfl) holds

/-- Settles O29: each row by the equation of its meaning where its guard holds. -/
theorem cameraRows : Obligations.CameraRows := by
  intro p vc s alive hp
  refine ⟨fun frame on => ?_, fun f frame => ?_, fun none' => ?_, fun dt crc data hvc on => ?_, fun dt crc data hvc on none' => ?_,
    fun dt crc data ecc v f hvc header frame => ?_, fun on => ?_, ?_, ?_⟩
  · refine Runs.of_act (show _ = execCsi2FrameStart p vc frame s from rfl) (by rw [alive, on]; rfl) ?_
    refine ⟨openedFrame p vc frame s, ?_, rfl, rfl, rfl, rfl, rfl, openedFrame_base, openedFrame_nobase, fun j other => ?_⟩
    · rw [State.csiFrame, frameStart_frames, tabFind_tabSet_same]
    · rw [frameStart_frames, tabFind_tabSet_ne _ _ other]
  · exact Runs.of_act (show _ = execCsi2LineStart p vc s from rfl) alive (lineStart_of_frame frame)
  · exact Runs.of_act (show _ = execCsi2LineStart p vc s from rfl) alive (lineStart_of_none none')
  · exact Runs.of_csiPacket alive hp hvc on rfl
  · exact Runs.of_csiPacket alive hp hvc (by rw [on]; rfl) (longPacket_of_none none')
  · refine Runs.of_csiPacket alive hp hvc (by rw [frame]; exact Bool.or_true _) ?_
    rw [csiPacket_of_header header]
    have frames : v.ports.frames = s.ports.frames := by obtain ⟨-, rfl⟩ | ⟨-, rfl⟩ := header <;> rfl
    refine ⟨lineCounted p vc f v, by rw [lineCounted, frames], longPacket_of_frame ?_⟩
    rw [State.csiFrame, frames]
    exact frame
  · refine Runs.of_act (show _ = execCsi2FrameEnd p vc s from rfl) (by rw [alive, on]; rfl) ?_
    exact ⟨tabFind_tabDel_same .., _, rfl, rfl⟩
  · refine Runs.of_act (show _ = execCsi2UlpsExit p s from rfl) (by rw [alive, decide_eq_true hp]; rfl) ?_
    obtain ⟨same, others, frame⟩ := s.setSport_frame 0 p fun x => { x with linkUp := true }
    exact ⟨same, fun ty j other => others ty j (by omega), frame⟩
  · refine Runs.of_act (show _ = execCsi2UlpsEntry p s from rfl) (by rw [alive, decide_eq_true hp]; rfl) ?_
    obtain ⟨same, others, frame⟩ := s.setSport_frame 0 p fun x => { x with linkUp := false }
    exact ⟨same, fun ty j other => others ty j (by omega), frame⟩

end Sys2Proof.Machine
end

section
/-! PROOFS. Ethernet frames and link state, CAN FD frames and SPI transactions (R440 to R447, R449). -/
namespace Sys2Proof.Machine

/-! ### Ethernet (R440, R442, R449) -/

theorem ethFrame_of_badFcs (p : Nat) (data : List Byte) (s : State) : ethFrame p false data s = s.setSport 1 p fun y => y.tick 4 := rfl

section
variable {p : Nat} {data : List Byte} {s : State}

theorem ethFrame_of_long (long : (s.eth p).word 4 2 < data.length + 4) : ethFrame p true data s = s.setSport 1 p fun y => y.tick 8 := by
  simp only [ethFrame, Bool.not_true, Bool.false_eq_true, if_false, long, if_true]

variable (fits : data.length + 4 ≤ (s.eth p).word 4 2)
include fits

theorem ethFrame_of_short (short : data.length + 4 < 64) : ethFrame p true data s = s := by
  simp only [ethFrame, Bool.not_true, Bool.false_eq_true, if_false, Nat.not_lt.mpr fits, short, if_true]

/-- A good frame of a legal size is counted and then sorted by its EtherType and the rules of the port. -/
theorem ethFrame_of_good (long : 64 ≤ data.length + 4) : ethFrame p true data s = (fun v : State =>
    if etherType data == 0x8808 then v.setSport 1 p fun y => y.tick 5
    else if etherType data == 0x88F7 && beNat (data.take 6) == 0x0180C200000E then v.setSport 1 p fun y => y.tick 7
    else ((List.range (s.eth p).rules.length).find? fun i => ruleTakes data (((s.eth p).rules[i]?).getD [])).elim (v.setSport 1 p fun y => y.tick 6)
      fun i => ethTaken p i (((s.eth p).rules[i]?).getD []) data (s.now - i64 (s.tune (0x140 + p))) v) (s.setSport 1 p fun y => y.tick 1) := by
  simp only [ethFrame, Bool.not_true, Bool.false_eq_true, if_false, Nat.not_lt.mpr fits, Nat.not_lt.mpr long]
  cases (List.range (s.eth p).rules.length).find? fun i => ruleTakes data (((s.eth p).rules[i]?).getD []) <;> rfl

end

theorem ethTaken_of_drop {p i : Nat} {r data : List Byte} {stamp : W64} {s : State} (drop : entryByte r 0x16 % 2 = 1) :
    ethTaken p i r data stamp s = s.setSport 1 p fun y => y.tick 3 := if_pos (beq_iff_eq.mpr drop)

/-- What a record of a taken frame is offered to: the port has counted and its events have acted. -/
def ethPosted (p i : Nat) (stamp : W64) (s : State) : State :=
  postBound 4 (· == 0x2000 + 256 * p + i) none stamp s.quality (assertProducer (488 + p) (s.setSport 1 p fun y => y.tick 2))

theorem ethTaken_of_keep {p i : Nat} {r data : List Byte} {stamp : W64} {s : State} (keep : entryByte r 0x16 % 2 = 0) :
    ethTaken p i r data stamp s = (fun w : State => offer 1 p ((w.eth p).word 4 2) { stream := streamId 1 p (entryByte r 0x14), vt := stamp, stamp := stamp, ql := w.quality, seq := 0, cls := entryByte r 0x15, info := qualCode w.quality, aux32 := w32 i, aux64 := w64 (sensorTime data r), payload := data.drop (entryWord r 0x18 2) } w)
      (ethPosted p i stamp s) := by
  unfold ethTaken
  rw [if_neg (by rw [keep]; decide)]
  rfl

theorem lockLoss_of_up {p : Nat} {s : State} (up : (s.eth p).linkUp = true) (on : (s.eth p).byte 0 = 1) : lockLoss p s =
    raiseFault Src.ethLink (w64 p) unitNone ((s.setSport 1 p fun y => { y with linkUp := false }).setSport 1 p fun y => y.tick 9) := by
  have still : (State.eth (s.setSport 1 p fun y => { y with linkUp := false }) p).byte 0 = 1 := by
    rw [State.eth, State.sport_setSport_same]
    exact on
  unfold lockLoss
  rw [up]
  simp only [still, beq_self_eq_true, Bool.and_self, if_true]

theorem lockLoss_of_quiet {p : Nat} {s : State} (quiet : (s.eth p).linkUp = false ∨ (s.eth p).byte 0 ≠ 1) :
    lockLoss p s = s.setSport 1 p fun y => { y with linkUp := false } := by
  have still : (State.eth (s.setSport 1 p fun y => { y with linkUp := false }) p).byte 0 = (s.eth p).byte 0 := by
    rw [State.eth, State.sport_setSport_same]
    rfl
  refine if_neg ?_
  rw [still, Bool.and_eq_true, beq_iff_eq]
  exact fun h => quiet.elim (fun down => Bool.false_ne_true (down.symm.trans h.1)) fun off => off h.2

theorem find?_range_eq_none {n : Nat} {f : Nat → Bool} (h : ∀ i, i < n → f i = false) : (List.range n).find? f = none :=
  List.find?_eq_none.mpr fun i hi => by rw [h i (List.mem_range.mp hi)]; exact Bool.false_ne_true

/-- Settles O30: each row by the equation of its meaning where its guard holds. -/
theorem ethernetRows : Obligations.EthernetRows := by
  intro p s alive hp
  refine ⟨fun ok data x stamp counting hx on hst => ?_, fun up on => ?_, fun quiet => ?_, ?_⟩
  · subst hx hst
    refine Runs.of_act (show _ = execEthernetFrameReceive p ok data s from rfl)
      (by rw [alive, decide_eq_true hp, counting, beq_iff_eq.mpr on]; rfl) ?_
    refine ⟨?_, ?_, ?_, ?_⟩
    · rintro rfl
      exact ethFrame_of_badFcs ..
    · rintro rfl long
      exact ethFrame_of_long long
    · rintro rfl fits short
      exact ethFrame_of_short fits short
    · rintro rfl fits long
      rw [ethFrame_of_good fits long]
      refine ⟨_, rfl, fun pause => if_pos (beq_iff_eq.mpr pause), fun delay group => ?_, fun notPause notDelay => ?_⟩
      · simp only [delay, group]
        rfl
      · have other : (etherType data == 0x88F7 && beNat (data.take 6) == 0x0180C200000E) = false := by
          rw [Bool.and_eq_false_imp]
          exact fun h => beq_eq_false_iff_ne.mpr (notDelay (beq_iff_eq.mp h))
        simp only [beq_eq_false_iff_ne.mpr notPause, other, Bool.false_eq_true, if_false]
        refine ⟨fun none' => ?_, fun i r first hr => ?_⟩
        · rw [find?_range_eq_none none']
          rfl
        · subst hr
          rw [first]
          exact ⟨fun drop => ethTaken_of_drop drop, fun keep => ⟨ethPosted p i _ _, rfl, ethTaken_of_keep keep⟩⟩
  · exact Runs.of_act (show _ = execEthBlockLockLoss p s from rfl) (by rw [alive, decide_eq_true hp]; rfl) (lockLoss_of_up up on)
  · exact Runs.of_act (show _ = execEthBlockLockLoss p s from rfl) (by rw [alive, decide_eq_true hp]; rfl) (lockLoss_of_quiet quiet)
  · refine Runs.of_act (show _ = execEthBlockLockGain p s from rfl) (by rw [alive, decide_eq_true hp]; rfl) ?_
    obtain ⟨same, others, frame⟩ := s.setSport_frame 1 p fun x => { x with linkUp := true }
    exact ⟨same, fun ty j other => others ty j (by omega), frame⟩

/-! ### CAN FD (R443, R444) -/

theorem canFrame_of_remote {p : Nat} {fr : CanFrame} {s : State} (remote : fr.remote = true) :
    canFrame p fr s = (s.setSport 2 p fun y => y.tick 1).setSport 2 p fun y => y.tick 6 := by
  simp only [canFrame, remote, if_true]

theorem canFrame_of_noFilter {p : Nat} {fr : CanFrame} {s : State} (data : fr.remote = false)
    (none' : (List.range ((s.can p).byte 11)).find? (filterTakes (s.can p) fr) = none) :
    canFrame p fr s = (assertProducer (496 + p) (s.setSport 2 p fun y => y.tick 1)).setSport 2 p fun y => y.tick 3 := by
  simp only [canFrame, data, none', Bool.false_eq_true, if_false]

/-- What a record of a taken CAN frame is offered to: the port has counted and its events have acted. -/
def canPosted (p f : Nat) (s : State) : State :=
  postBound 4 (· == 0x3000 + 256 * p + f) none (s.stamp (54 + p)) s.quality
    ((assertProducer (496 + p) (s.setSport 2 p fun y => y.tick 1)).setSport 2 p fun y => y.tick 2)

theorem canFrame_of_filter {p f : Nat} {fr : CanFrame} {s : State} (data : fr.remote = false)
    (found : (List.range ((s.can p).byte 11)).find? (filterTakes (s.can p) fr) = some f) : canFrame p fr s = (fun w : State =>
      offer 2 p 64 { stream := streamId 2 p f, vt := s.stamp (54 + p), stamp := s.stamp (54 + p), ql := w.quality, seq := 0, cls := (s.can p).byte (12 + 16 * f + 9), info := qualCode w.quality, aux32 := w32 (2 ^ 31 * bit fr.ide + 2 ^ 30 * bit fr.fdf + 2 ^ 29 * bit fr.brs + fr.id.toNat), aux64 := 0, payload := fr.data.take 64 } w)
      (canPosted p f s) := by
  simp only [canFrame, data, found, Bool.false_eq_true, if_false]
  rfl

/-! ### SPI (R445, R446) -/

theorem drdyEdge_of_missed {p : Nat} {s : State} (missed : s.edgeStamped (50 + p) = false) : drdyEdge p s = missEdge (50 + p) s :=
  if_pos (by rw [missed]; rfl)

theorem drdyEdge_of_stamped {p : Nat} {s : State} (stamped : s.edgeStamped (50 + p) = true) : drdyEdge p s =
    if drdyStarts p s then dataReady p (s.stamp (50 + p)) s.quality (markEdge (50 + p) s) else markEdge (50 + p) s :=
  if_neg (by rw [stamped]; decide)

theorem spiDone_of_run {p : Nat} {data : List Byte} {s : State} {stamp : W64} {ql : Quality} (run : (s.sport 3 p).spiRun = some (stamp, ql)) :
    spiDone p data s = offer 3 p (s.sport 3 p).spiLen { stream := streamId 3 p 0, vt := stamp, stamp := stamp, ql := ql, seq := 0, cls := 4, info := qualCode ql, aux32 := w32 (s.sport 3 p).overlaps, aux64 := (s.sport 3 p).lastOverlap, payload := data }
      (s.setSport 3 p fun x => { (x.tick 1) with spiRun := none, overlaps := 0, lastOverlap := 0 }) := by
  simp only [spiDone, run]

theorem spiDone_of_none {p : Nat} {data : List Byte} {s : State} (none' : (s.sport 3 p).spiRun = none) : spiDone p data s = s := by
  simp only [spiDone, none']

theorem Runs.of_drdyEdge {p : Nat} {s : State} {P : State → Prop} (alive : s.alive = true) (hp : p < 4) (counting : s.time.counting = true)
    (holds : P (drdyEdge p s)) : Runs (.spiDrdyEvent p) s P :=
  Runs.of_act (show _ = execSpiDrdyEvent p s from rfl) (by rw [alive, decide_eq_true hp, counting]; rfl) holds

theorem Runs.of_spiDone {p : Nat} {data : List Byte} {s : State} {P : State → Prop} (alive : s.alive = true) (hp : p < 4)
    (whole : data.length = (s.sport 3 p).spiLen) (holds : P (spiDone p data s)) : Runs (.spiTransactionComplete p data) s P :=
  Runs.of_act (show _ = execSpiTransactionComplete p data s from rfl) (by rw [alive, decide_eq_true hp, beq_iff_eq.mpr whole]; rfl) holds

/-- Settles O31: each row by the equation of its meaning where its guard holds. -/
theorem canSpiRows : Obligations.CanSpiRows := by
  intro p s alive hp
  refine ⟨fun fr x stamp counting hx configured running hst => ?_, fun active running => ?_, fun off => ?_, fun counting enabled source stamped => ?_,
    fun counting other stamped => ?_, fun counting missed => ?_, fun data stamp ql x hx whole run => ?_, fun data whole none' => ?_⟩
  · subst hx hst
    refine Runs.of_act (show _ = execCanFrameReceive p fr s from rfl)
      (by rw [alive, decide_eq_true hp, counting, configured, running]; rfl) ?_
    exact ⟨_, rfl, canFrame_of_remote, fun data none' => canFrame_of_noFilter data (find?_range_eq_none none'),
      fun f data found => ⟨canPosted p f s, rfl, canFrame_of_filter data found⟩⟩
  · exact Runs.of_act (show _ = execCanBusOff p s from rfl) (by rw [alive, decide_eq_true hp, beq_iff_eq.mpr active, running]; rfl) rfl
  · refine Runs.of_act (show _ = execCanBusOffRecovery p s from rfl) (by rw [alive, decide_eq_true hp, off]; rfl) ?_
    obtain ⟨same, others, frame⟩ := s.setSport_frame 2 p fun x => { x with busOff := false }
    exact ⟨same, fun ty j other => others ty j (by omega), frame⟩
  · refine Runs.of_drdyEdge alive hp counting ?_
    rw [drdyEdge_of_stamped stamped, drdyStarts, enabled, source]
    rfl
  · refine Runs.of_drdyEdge alive hp counting ?_
    rw [drdyEdge_of_stamped stamped, if_neg]
    · rfl
    · rw [drdyStarts, Bool.and_eq_true, beq_iff_eq, beq_iff_eq, not_and_or]
      exact other
  · exact Runs.of_drdyEdge alive hp counting (drdyEdge_of_missed missed)
  · subst hx
    refine Runs.of_spiDone alive hp whole ?_
    obtain ⟨same, others, frame⟩ := s.setSport_frame 3 p fun x => { (x.tick 1) with spiRun := none, overlaps := 0, lastOverlap := 0 }
    exact ⟨_, same, fun ty j other => others ty j (by omega), frame, spiDone_of_run run⟩
  · exact Runs.of_spiDone alive hp whole (spiDone_of_none none')

end Sys2Proof.Machine
end

section
/-! PROOFS. Ingress records, EVENT entries and camera triggers (R111, R424, R427, R428, R438, R439, R479). -/
namespace Sys2Proof.Machine

/-! ### Records and entries (R427, R428, R479) -/

/-- The oldest record is taken from the queue. -/
def recordTaken (r : IngRecord) (rest : List IngRecord) (s : State) : State :=
  { s with ports := { s.ports with queue := rest, fill := s.ports.fill - r.payload.length } }

theorem ingressWrite_of_empty {s : State} (empty : s.ports.queue = []) : ingressWrite s = s := by
  unfold ingressWrite
  rw [empty]

theorem ingressWrite_of_noRing {s : State} {r : IngRecord} {rest : List IngRecord} (first : s.ports.queue = r :: rest)
    (none' : (s.stream r.stream).ring = none) : ingressWrite s = recordTaken r rest s := by
  rw [State.stream] at none'
  simp only [ingressWrite, first, State.stream, State.modPorts_ports, none']
  rfl

theorem ingressWrite_of_ring {s : State} {r : IngRecord} {rest : List IngRecord} {base len qp : Nat} (first : s.ports.queue = r :: rest)
    (ring : (s.stream r.stream).ring = some (base, len, qp)) : ingressWrite s = (fun v : State => logIngress r (if qp == 0xFFFFFFFF then v
      else { v with link := { v.link with posting := v.link.posting ++
        [{ qp := qp, cqe := { unsolEntry v 4 (w32 (65536 * (s.stream r.stream).handle + r.seq % 65536)) r.stamp with quality := r.ql } }] } }))
      (ringWrite base len r (recordTaken r rest s)) := by
  rw [State.stream] at ring
  simp only [ingressWrite, first, State.stream, State.modPorts_ports, ring]
  rfl

theorem postNext_of_empty {s : State} (empty : s.link.posting = []) : postNext s = s := by
  unfold postNext
  rw [empty]

theorem postNext_of_entry {s : State} {u : Unsol} {rest : List Unsol} (first : s.link.posting = u :: rest) :
    postNext s = postUnsol u.qp u.cqe { s with link := { s.link with posting := rest } } := by
  unfold postNext
  rw [first]
  rfl

/-! ### Triggers (R438, R439) -/

theorem driveBall_blocks (p : Nat) (lvl : Bool) (s : State) : (driveBall p lvl s).ports = s.ports ∧ (driveBall p lvl s).time = s.time := by
  unfold driveBall
  cases s.pins.safeHeld <;> exact ⟨rfl, rfl⟩

theorem State.setTrig_congr {s : State} {i : Nat} {f g : Trigger → Trigger} (h : f (s.trig i) = g (s.trig i)) : s.setTrig i f = s.setTrig i g := by
  rw [State.trig] at h
  simp only [State.setTrig, State.modPorts, tabMod, h]

/-- The state in which a trigger has risen: its pulse runs, its edge is kept, and the pin follows. -/
def risen (i : Nat) (v : State) : State :=
  (fun w : State => if tioFunc (w.sen.tioCfg i) == 2 then driveBall i true w else w) (v.setTrig i fun y => { y with
    fall := some (v.now + w64 y.width), high := true, edges := (v.now, v.quality) :: y.edges.filter fun e => recent v.now e.1 })

/-- The pulse has the width the trigger had. -/
theorem risen_eq (i : Nat) (v : State) : risen i v =
    (fun w => if tioFunc (v.sen.tioCfg i) = 2 then driveBall i true w else w) (v.setTrig i fun y => { y with
      fall := some (v.now + w64 (v.trig i).width), high := true, edges := (v.now, v.quality) :: y.edges.filter fun e => recent v.now e.1 }) := by
  rw [State.setTrig_congr (g := fun y => { y with
    fall := some (v.now + w64 y.width), high := true, edges := (v.now, v.quality) :: y.edges.filter fun e => recent v.now e.1 }) rfl]
  simp only [risen, beq_iff_eq]
  rfl

theorem risen_quality (i : Nat) (v : State) : (risen i v).quality = v.quality := by
  refine quality_of_time ?_
  unfold risen
  dsimp only
  split
  · exact (driveBall_blocks ..).2
  · rfl

theorem trigRise_eq {i low : Nat} {s : State} (free : (s.trig i).fall = none → low = 0)
    (after : ∀ m, (s.trig i).fall = some m → low = (m + 16 - s.now).toInt.toNat) : trigRise i s = (fun v : State =>
      postBound 4 (· == 0x7000 + i) none v.now v.quality (assertProducer (48 + i) (risen i v)))
      (s.advanceVt (edgeWait (s.trig i) s.now low)) := by
  dsimp only
  rw [← risen_quality i]
  cases fall : (s.trig i).fall with
  | none =>
    rw [free fall]
    simp only [trigRise, fall]
    generalize s.advanceVt _ = v
    rfl
  | some m =>
    rw [after m fall]
    simp only [trigRise, fall]
    generalize s.advanceVt _ = v
    rfl

theorem State.bringVt_blocks (s : State) (v : W64) : (s.bringVt v).ports = s.ports ∧ (s.bringVt v).sen = s.sen := by
  obtain ⟨vt, mono, rest, eng, gates, eq⟩ := s.bringVt_frame v
  rw [eq]
  exact ⟨rfl, rfl⟩

/-- The state at the end of a pulse, before the pin follows. -/
def fallen (i : Nat) (m : W64) (s : State) : State := (s.bringVt m).setTrig i fun x => { x with high := false }

theorem fallen_frame (i : Nat) (m : W64) (s : State) : (fallen i m s).time = (s.bringVt m).time ∧ (fallen i m s).pins = s.pins ∧
    (fallen i m s).trig i = { s.trig i with high := false } ∧ (∀ j, j ≠ i → (fallen i m s).trig j = s.trig j) := by
  have trigs : ∀ j, (s.bringVt m).trig j = s.trig j := fun j => by rw [State.trig, (s.bringVt_blocks m).1]; rfl
  refine ⟨rfl, s.bringVt_pins m, ?_, fun j other => ?_⟩
  · rw [fallen, State.trig_setTrig_same, trigs]
  · rw [fallen, State.trig_setTrig_ne _ _ other, trigs]

theorem trigFall_eq {i : Nat} {m : W64} {s : State} (fall : (s.trig i).fall = some m) :
    trigFall i s = if tioFunc (s.sen.tioCfg i) == 2 then driveBall i false (fallen i m s) else fallen i m s := by
  have sen : (fallen i m s).sen = s.sen := (s.bringVt_blocks m).2
  rw [← sen]
  unfold trigFall
  rw [fall]
  rfl

/-- Settles O32: each row by the equation of its meaning where its guard holds. -/
theorem ingressRows : Obligations.IngressRows := by
  intro s alive
  refine ⟨fun empty => ?_, fun r rest first none' => ?_, fun r rest base len qp first ring => ?_, fun empty => ?_, fun u rest first => ?_,
    fun i x low hi counting hx period low' calm free after => ?_, fun i m hi high fall => ?_⟩
  · exact Runs.of_act (show _ = execIngressRecordWrite s from rfl) alive (ingressWrite_of_empty empty)
  · exact Runs.of_act (show _ = execIngressRecordWrite s from rfl) alive (ingressWrite_of_noRing first none')
  · refine Runs.of_act (show _ = execIngressRecordWrite s from rfl) alive ?_
    rw [ingressWrite_of_ring first ring]
    refine ⟨ringWrite base len r (recordTaken r rest s), rfl, fun unposted => ?_, fun posted => ?_⟩
    · simp only [beq_iff_eq.mpr unposted, if_true]
    · simp only [beq_eq_false_iff_ne.mpr posted, Bool.false_eq_true, if_false]
  · exact Runs.of_act (show _ = execEventEntryPost s from rfl) alive (postNext_of_empty empty)
  · exact Runs.of_act (show _ = execEventEntryPost s from rfl) alive (postNext_of_entry first)
  · subst hx
    refine Runs.of_act (show _ = execTriggerRise i s from rfl)
      (by rw [alive, decide_eq_true hi, counting, bne_iff_ne.mpr period, low', calm]; rfl) ?_
    rw [trigRise_eq free after]
    refine ⟨s.advanceVt (edgeWait (s.trig i) s.now low), _, rfl, rfl, ?_⟩
    have trig : (s.advanceVt (edgeWait (s.trig i) s.now low)).trig i = s.trig i := rfl
    have sen : (s.advanceVt (edgeWait (s.trig i) s.now low)).sen = s.sen := rfl
    generalize s.advanceVt (edgeWait (s.trig i) s.now low) = v at trig sen ⊢
    rw [← trig, ← sen]
    exact congrArg (fun w => postBound 4 (· == 0x7000 + i) none v.now v.quality (assertProducer (48 + i) w)) (risen_eq i v)
  · refine Runs.of_act (show _ = execTriggerFall i s from rfl) (by rw [alive, decide_eq_true hi, high]; rfl) ?_
    obtain ⟨time, pins, same, others⟩ := fallen_frame i m s
    obtain ⟨ports', time'⟩ := driveBall_blocks i false (fallen i m s)
    obtain ⟨-, -, free, held⟩ := driveBall_frame i false (fallen i m s)
    rw [pins] at free held
    rw [trigFall_eq fall]
    by_cases func : tioFunc (s.sen.tioCfg i) = 2
    · rw [if_pos (beq_iff_eq.mpr func)]
      have trigs : ∀ j, (driveBall i false (fallen i m s)).trig j = (fallen i m s).trig j := fun j => by rw [State.trig, ports']; rfl
      exact ⟨by rw [State.now, time', time]; rfl, (trigs i).trans same, fun j other => (trigs j).trans (others j other),
        fun _ => free, fun h => held (h.resolve_left fun n => n func)⟩
    · rw [if_neg fun h => func (beq_iff_eq.mp h)]
      exact ⟨congrArg (fun t => t.vt64) time, same, others, fun h => absurd h func, fun _ => pins⟩

end Sys2Proof.Machine
end

section
/-! PROOFS. What entering, committing, sealing and media management change in the log store (R464 to R477). -/
namespace Sys2Proof.Machine

/-! ### Entering system records (R464, R470) -/

/-- The log store but for what waits in the queue of system records and its measures. -/
def LogStore.unqueued (l : LogStore) : LogStore := { l with urgent := [], sysWait := [], bytesIn := 0, peak := 0, strokePeak := 0 }

theorem enterSys_frame (r : LogRec) (s : State) : (enterSys r s).lgs.unqueued = s.lgs.unqueued ∧ enterSys r s = { s with lgs := (enterSys r s).lgs } := by
  unfold enterSys
  split <;> exact ⟨rfl, rfl⟩

/-- A system record that fits joins the commit queue; one that does not waits. -/
theorem enterSys_queues (r : LogRec) (s : State) :
    ((s.lgs.sysWait.isEmpty && decide (s.lgs.fill + recSize r ≤ qMax)) = true →
      (enterSys r s).lgs.urgent = s.lgs.urgent ++ [r] ∧ (enterSys r s).lgs.sysWait = s.lgs.sysWait) ∧
    ((s.lgs.sysWait.isEmpty && decide (s.lgs.fill + recSize r ≤ qMax)) = false →
      (enterSys r s).lgs.urgent = s.lgs.urgent ∧ (enterSys r s).lgs.sysWait = s.lgs.sysWait ++ [r]) := by
  unfold enterSys
  constructor <;> intro room <;> rw [room] <;> exact ⟨rfl, rfl⟩

/-- The record stands last where it entered. -/
theorem enterSys_last (r : LogRec) (s : State) :
    (enterSys r s).lgs.urgent.getLast? = some r ∨ (enterSys r s).lgs.sysWait.getLast? = some r := by
  obtain ⟨fits, waits⟩ := enterSys_queues r s
  cases room : s.lgs.sysWait.isEmpty && decide (s.lgs.fill + recSize r ≤ qMax) with
  | true => exact .inl (by rw [(fits room).1, List.getLast?_concat])
  | false => exact .inr (by rw [(waits room).2, List.getLast?_concat])

theorem queueSys_unqueued (r : LogRec) (s : State) : (queueSys r s).lgs.unqueued = s.lgs.unqueued := by
  simp only [queueSys, trackPeak, State.modLgs_lgs, LogStore.unqueued]

theorem enterWaiting_unqueued (n : Nat) (s : State) : (enterWaiting n s).lgs.unqueued = s.lgs.unqueued := by
  induction n generalizing s with
  | zero => rfl
  | succ n ih =>
    unfold enterWaiting
    split
    · rfl
    · split
      · rfl
      · rw [ih, queueSys_unqueued]
        rfl

/-- `t` is `s` with the log store of `l`, but for system records that have entered and what they measure. -/
def Enters (l : LogStore) (s t : State) : Prop := t.lgs.unqueued = l.unqueued ∧ t.em = s.em ∧ t.time = s.time

theorem enterGap_enters (g : LogGap) (s : State) : Enters s.lgs s (enterGap g s) := by
  obtain ⟨r, eq⟩ : ∃ r, enterGap g s = enterSys r (s.modStroke fun k => { k with loaded := true }) := ⟨_, rfl⟩
  rw [eq]
  obtain ⟨log, frame⟩ := enterSys_frame r (s.modStroke fun k => { k with loaded := true })
  exact ⟨log, congrArg (fun t => t.em) frame, congrArg (fun t => t.time) frame⟩

/-- The GAP records of a group enter, and the losses they report are gone. -/
theorem flushGap_enters (p : LogGap → Bool) (s : State) :
    Enters { s.lgs with gaps := s.lgs.gaps.filter fun g => !p g } s (flushGap p s) := by
  unfold flushGap
  refine foldl_keeps (P := Enters { s.lgs with gaps := s.lgs.gaps.filter fun g => !p g } s)
    (s := s.modLgs fun l => { l with gaps := l.gaps.filter fun g => !p g }) (fun t g _ kept => ?_) ⟨rfl, rfl, rfl⟩
  obtain ⟨log, em, time⟩ := kept
  obtain ⟨log', em', time'⟩ := enterGap_enters g t
  exact ⟨log'.trans log, em'.trans em, time'.trans time⟩

/-! ### Commit points (R466) -/

/-- A committed record as the store keeps it. -/
def LogRec.committed (r : LogRec) : LogRec := { r with waiter := none, capsule := false }

/-- The log store but for what the commit of one record brings. -/
def LogStore.uncommitted (l : LogStore) : LogStore :=
  { l with recs := [], unsealed := [], strokeBytes := 0, strokeRecs := 0, bytesOut := 0, gapRecs := 0, trigs := [] }

/-- The log store with a record committed: it is readable, not yet sealed, and within its trigger's span. -/
def commitRecord (r : LogRec) (s : State) : State := s.modLgs fun l => { l with
  recs := l.recs ++ [{ r with waiter := none, capsule := false }], unsealed := l.unsealed ++ [{ r with waiter := none, capsule := false }]
  strokeBytes := l.strokeBytes + recSize r, strokeRecs := l.strokeRecs + 1
  bytesOut := l.bytesOut + recSize r, gapRecs := l.gapRecs + bit (r.kind == 2)
  trigs := l.trigs.map fun t =>
    if w32 t.id == r.trig then { t with span := some (match t.span with
      | none => (r.vt, r.vt)
      | some (a, b) => (if r.vt.toNat < a.toNat then r.vt else a, if b.toNat < r.vt.toNat then r.vt else b)) }
    else t }

theorem commitOne_after (r : LogRec) (s : State) :
    (commitOne r s).lgs = (commitRecord r s).lgs ∧ (commitOne r s).time = (commitRecord r s).time := by
  have posted : ∀ (o : Option Nat) (u : State), (match o with | some src => postBound 7 (· == src) (some (w32 r.seq)) u.now u.quality u | none => u).lgs = u.lgs ∧
      (match o with | some src => postBound 7 (· == src) (some (w32 r.seq)) u.now u.quality u | none => u).time = u.time := by
    rintro (_ | src) u
    · exact ⟨rfl, rfl⟩
    · exact ⟨lgs_of_deep (postBound_deep ..), time_of_wide (postBound_wide ..)⟩
  have freed : ∀ u : State, (if r.capsule then u.modEm fun e => { e with capsules := e.capsules.drop 1 } else u).lgs = u.lgs ∧
      (if r.capsule then u.modEm fun e => { e with capsules := e.capsules.drop 1 } else u).time = u.time := by
    intro u
    split <;> exact ⟨rfl, rfl⟩
  unfold commitOne
  dsimp only
  cases r.waiter with
  | none => exact ⟨(freed _).1.trans (posted _ _).1, (freed _).2.trans (posted _ _).2⟩
  | some w =>
    exact ⟨(lgs_of_deep (finish_deep ..)).trans ((freed _).1.trans (posted _ _).1),
      (time_of_wide (finish_wide ..)).trans ((freed _).2.trans (posted _ _).2)⟩

theorem commitOne_frame (r : LogRec) (s : State) : (commitOne r s).lgs.uncommitted = s.lgs.uncommitted ∧
    (commitOne r s).lgs.recs = s.lgs.recs ++ [r.committed] ∧ (commitOne r s).time = s.time := by
  obtain ⟨log, time⟩ := commitOne_after r s
  rw [log, time]
  exact ⟨rfl, rfl, rfl⟩

theorem foldl_commitOne (rs : List LogRec) (s : State) : (rs.foldl (fun s r => commitOne r s) s).lgs.uncommitted = s.lgs.uncommitted ∧
    (rs.foldl (fun s r => commitOne r s) s).lgs.recs = s.lgs.recs ++ rs.map LogRec.committed ∧
    (rs.foldl (fun s r => commitOne r s) s).time = s.time := by
  induction rs generalizing s with
  | nil => exact ⟨rfl, (List.append_nil _).symm, rfl⟩
  | cons r rs ih =>
    obtain ⟨log, recs, time⟩ := commitOne_frame r s
    obtain ⟨log', recs', time'⟩ := ih (commitOne r s)
    refine ⟨log'.trans log, ?_, time'.trans time⟩
    rw [List.foldl_cons, recs', recs, List.map_cons, List.append_assoc]
    rfl

/-- The head of a generation stands in its slot and tells where the open segments stand. -/
theorem writeHead_heads (seq gen : Nat) (s : State) :
    ∃ b c, (writeHead seq gen s).lgs.heads = tabSet s.lgs.heads (gen % 8192) (headBytes seq gen b c) := by
  obtain ⟨n, bulk⟩ := openPlace_eq s.lgs.bulkSeg s
  obtain ⟨m, slc⟩ := openPlace_eq (openPlace s.lgs.bulkSeg s).2.lgs.slcSeg (openPlace s.lgs.bulkSeg s).2
  refine ⟨(openPlace s.lgs.bulkSeg s).1, (openPlace (openPlace s.lgs.bulkSeg s).2.lgs.slcSeg (openPlace s.lgs.bulkSeg s).2).1, ?_⟩
  have heads : (openPlace (openPlace s.lgs.bulkSeg s).2.lgs.slcSeg (openPlace s.lgs.bulkSeg s).2).2.lgs.heads = s.lgs.heads := by rw [slc, bulk]
  rw [← heads]
  rfl

theorem commitPoint_eq (s : State) : commitPoint s = s.lgs.placed.foldl (fun s r => commitOne r s)
    ((writeHead (s.lgs.nextSeq + s.lgs.placed.length) ((s.lgs.headGen + 1) % 2 ^ 32) s).modLgs fun l => { l with placed := [] }) := rfl

/-- A commit point: its head is written, every placed record is readable, and nothing is left placed. -/
theorem commitPoint_frame (s : State) : (∃ b c, tabFind (commitPoint s).lgs.heads ((s.lgs.headGen + 1) % 2 ^ 32 % 8192) =
      some (headBytes (s.lgs.nextSeq + s.lgs.placed.length) ((s.lgs.headGen + 1) % 2 ^ 32) b c)) ∧
    (commitPoint s).lgs.headGen = (s.lgs.headGen + 1) % 2 ^ 32 ∧ (commitPoint s).lgs.placed = [] ∧
    (commitPoint s).lgs.nextSeq = s.lgs.nextSeq + s.lgs.placed.length ∧ (commitPoint s).lgs.sealGen = s.lgs.sealGen ∧
    (commitPoint s).lgs.recs = s.lgs.recs ++ s.lgs.placed.map LogRec.committed ∧ (commitPoint s).time = s.time := by
  obtain ⟨b, c, written⟩ := writeHead_heads (s.lgs.nextSeq + s.lgs.placed.length) ((s.lgs.headGen + 1) % 2 ^ 32) s
  obtain ⟨n, heads, eq⟩ := writeHead_eq (s.lgs.nextSeq + s.lgs.placed.length) ((s.lgs.headGen + 1) % 2 ^ 32) s
  rw [commitPoint_eq]
  rw [eq] at written ⊢
  generalize (s.lgs.headGen + 1) % 2 ^ 32 = gen at written ⊢
  obtain ⟨log, recs, time⟩ := foldl_commitOne s.lgs.placed (State.modLgs ({ s with
    free := n, lgs := { s.lgs with nextSeq := s.lgs.nextSeq + s.lgs.placed.length, headGen := gen, heads := heads } } : State) fun l => { l with placed := [] })
  generalize List.foldl _ _ _ = t at log recs time ⊢
  refine ⟨⟨b, c, ?_⟩, congrArg (·.headGen) log, congrArg (·.placed) log, congrArg (·.nextSeq) log, congrArg (·.sealGen) log, recs, time⟩
  rw [show t.lgs.heads = tabSet s.lgs.heads (gen % 8192) _ from (congrArg (·.heads) log).trans written]
  exact tabFind_tabSet_same ..

end Sys2Proof.Machine
end

section
/-! PROOFS. The log store: fills, appends, pages, commit points, triggers, seals, media and capsules (R432, R456, R461, R466,
R469, R474 to R477, R480, R522). -/
namespace Sys2Proof.Machine

/-! ### Appends (R455, R456) -/

theorem appendWrite_of_full {n : Nat} {val : W32} {s : State} (full : 64 ≤ (appQueue n s).length) :
    appendWrite n val s = appendResult n val (2 ^ 62 + 5) s := if_pos full

/-- A request that finds room waits behind the ones of its course and is counted. -/
theorem appendWrite_of_room {n : Nat} {val : W32} {s : State} (room : (appQueue n s).length < 64) :
    appQueue n (appendWrite n val s) = appQueue n s ++ [val] ∧ (∀ m, m ≠ n → appQueue m (appendWrite n val s) = appQueue m s) ∧
    tabGet (appendWrite n val s).lgs.accepted n 0 = tabGet s.lgs.accepted n 0 + 1 ∧
    appendWrite n val s = { s with lgs := { s.lgs with appends := (appendWrite n val s).lgs.appends, accepted := (appendWrite n val s).lgs.accepted } } := by
  have eq : appendWrite n val s = s.modLgs fun l => { l with
      appends := tabMod l.appends n [] (· ++ [val]), accepted := tabMod l.accepted n 0 (· + 1) } := if_neg (Nat.not_le.mpr room)
  rw [eq]
  exact ⟨tabGet_tabMod_same s.lgs.appends n [] (· ++ [val]), fun m other => tabGet_tabMod_ne s.lgs.appends [] [] (· ++ [val]) other,
    tabGet_tabMod_same s.lgs.accepted n 0 (· + 1), rfl⟩

theorem appendProcess_of_empty {n : Nat} {s : State} (empty : appQueue n s = []) : appendProcess n s = s := by
  unfold appendProcess
  rw [empty]

section
variable {n : Nat} {s : State} {val : W32} {rest : List W32} (first : appQueue n s = val :: rest)
include first

theorem appendProcess_of_noPlace (none' : appendPlace n val = none) :
    appendProcess n s = raiseFault Src.lgsAppErr 0 unitNone { s with lgs := { s.lgs with appends := tabSet s.lgs.appends n rest } } := by
  simp only [appendProcess, first, none']
  rfl

theorem appendProcess_of_unmapped {p : MemRef × Nat} (place : appendPlace n val = some p)
    (unmapped : placeOk { s with lgs := { s.lgs with appends := tabSet s.lgs.appends n rest } } p 32 = false) :
    appendProcess n s = raiseFault Src.lgsAppErr 0 unitNone { s with lgs := { s.lgs with appends := tabSet s.lgs.appends n rest } } := by
  simp only [appendProcess, first, place, State.modLgs, unmapped, Bool.not_false, if_true]

theorem appendProcess_of_read {p : MemRef × Nat} {l : List (Option Byte)} {v : State} (place : appendPlace n val = some p)
    (mapped : placeOk { s with lgs := { s.lgs with appends := tabSet s.lgs.appends n rest } } p 32 = true)
    (load : memLoad p.1 p.2 32 { s with lgs := { s.lgs with appends := tabSet s.lgs.appends n rest } } = (l, v)) :
    (allBytes l = none → appendProcess n s = raiseFault Src.lgsAppErr 0 unitNone v) ∧
    (∀ d c w, allBytes l = some d → appendRecord n d v = (c, w) →
      appendProcess n s = appendResult n val (if c = 0 then 2 ^ 63 else 2 ^ 62 + c) w) := by
  constructor
  · intro hole
    simp only [appendProcess, first, place, State.modLgs, mapped, load, hole, Bool.not_true, Bool.false_eq_true, if_false]
  · intro d c w whole entered
    simp only [appendProcess, first, place, State.modLgs, mapped, load, whole, entered, Bool.not_true, Bool.false_eq_true, if_false, beq_iff_eq]

end

/-! ### Pages (R465, R466, R474) -/

/-- A failed block is grown bad; only the counts of bad and spare blocks change in the log store. -/
theorem growBad_lgs (b : Nat) (s : State) :
    ∃ g sp un, (growBad b s).lgs = { s.lgs with grown := g, spares := sp, unspared := un } ∧ b ∈ g := by
  unfold growBad
  split
  · next known => exact ⟨s.lgs.grown, s.lgs.spares, s.lgs.unspared, rfl, List.contains_iff_mem.mp known⟩
  · refine ⟨setAdd s.lgs.grown b, s.lgs.spares - 1, if s.lgs.spares == 0 then setAdd s.lgs.unspared b else s.lgs.unspared, ?_, mem_setAdd ..⟩
    exact lgs_of_deep (s := s.modLgs fun l => { l with
      grown := setAdd l.grown b, spares := l.spares - 1, unspared := if l.spares == 0 then setAdd l.unspared b else l.unspared }) (setCause_deep ..)

theorem length_filterMap_getElem? {α β : Type} (l : List α) (f : Nat → α → β) :
    ((List.range l.length).filterMap fun i => l[i]?.map (f i)).length = l.length := by
  rw [List.length_filterMap_eq_countP, List.countP_eq_length.mpr, List.length_range]
  intro i hi
  rw [List.getElem?_eq_getElem (List.mem_range.mp hi)]
  rfl

section
variable {s v : State} {k : Nat}

theorem programPage_of_noSegment (pass : Bool) (none' : openSeg (nextPage s.lgs).2 (recsSize (nextPage s.lgs).1) s = none) :
    programPage pass s = s := by
  simp only [programPage, none']

variable (found : openSeg (nextPage s.lgs).2 (recsSize (nextPage s.lgs).1) s = some (k, v))
include found

theorem programPage_of_fail : ∃ b u, programPage false s = growBad b u ∧
    u.lgs = { v.lgs with programmed := v.lgs.programmed + recsSize (nextPage s.lgs).1 } := by
  simp only [programPage, found, Bool.not_false, if_true]
  exact ⟨_, _, rfl, rfl⟩

theorem programPage_of_pass : ∃ n u, programPage true s = enterWaiting n u ∧
    u.lgs.programmed = v.lgs.programmed + recsSize (nextPage s.lgs).1 ∧
    u.lgs.placed.length = v.lgs.placed.length + (nextPage s.lgs).1.length ∧ u.lgs.recs = v.lgs.recs ∧ u.lgs.nextSeq = v.lgs.nextSeq := by
  simp only [programPage, found, Bool.not_true, Bool.false_eq_true, if_false]
  refine ⟨_, _, rfl, rfl, ?_, rfl, rfl⟩
  exact (List.length_append ..).trans (congrArg (v.lgs.placed.length + ·) (length_filterMap_getElem? ..))

end

/-! ### Triggers and seals (R461, R464, R469) -/

theorem trigSpan_lgs (g : LogTrig) (s : State) : (trigSpan g s).2.lgs = s.lgs := by
  unfold trigSpan
  split <;> rfl

theorem State.bringVt_lgs (s : State) (v : W64) : (s.bringVt v).lgs = s.lgs := by
  obtain ⟨vt, mono, rest, eng, gates, eq⟩ := s.bringVt_frame v
  rw [eq]

/-- A trigger that closes is gone. -/
theorem trigClose_trigs (g : LogTrig) (s : State) : (trigClose g s).lgs.trigs = s.lgs.trigs.filter (·.id != g.id) := by
  let w := (s.bringVt (w64 (160000000 + (g.t.toNat + g.post)))).modLgs fun l => { l with trigs := l.trigs.filter (·.id != g.id) }
  obtain ⟨r, eq⟩ : ∃ r, trigClose g s = enterSys r (trigSpan g (flushGap (fun g => g.cause == 2) w)).2 := ⟨_, rfl⟩
  obtain ⟨entered, -⟩ := enterSys_frame r (trigSpan g (flushGap (fun g => g.cause == 2) w)).2
  obtain ⟨flushed, -⟩ := flushGap_enters (fun g => g.cause == 2) w
  rw [eq]
  calc (enterSys r (trigSpan g (flushGap (fun g => g.cause == 2) w)).2).lgs.trigs
      = (trigSpan g (flushGap (fun g => g.cause == 2) w)).2.lgs.trigs := congrArg (·.trigs) entered
    _ = (flushGap (fun g => g.cause == 2) w).lgs.trigs := by rw [trigSpan_lgs]
    _ = w.lgs.trigs := congrArg (·.trigs) flushed
    _ = s.lgs.trigs.filter (·.id != g.id) := congrArg (fun l => l.trigs.filter (·.id != g.id)) (s.bringVt_lgs _)

theorem trigEnd_of_some {id : Nat} {s : State} {g : LogTrig} (found : s.lgs.trigs.find? (·.id == id) = some g) :
    trigEnd id s = if trigServed id s.lgs then trigClose g s else s := by
  simp only [trigEnd, found]

theorem trigEnd_of_none {id : Nat} {s : State} (none' : s.lgs.trigs.find? (·.id == id) = none) : trigEnd id s = s := by
  simp only [trigEnd, none']

/-- The state a seal leaves before its record enters (R469). -/
def sealed (s : State) : State :=
  let c := commitPoint s
  let u := (flushGap (fun _ => true) c).modLgs fun x => { x with
    sealGen := (c.lgs.sealGen + 1) % 2 ^ 32, digest := sealDigest c.lgs, sealNext := c.lgs.nextSeq, unsealed := [] }
  u.modEm fun e => { e with savedVt := u.now, marker := true }

theorem doSeal_eq (s : State) : ∃ r, doSeal none s = enterSys r (sealed s) ∧ r.kind = 5 ∧ r.vt = (sealed s).now ∧
    r.body = sealBody (((commitPoint s).lgs.sealGen + 1) % 2 ^ 32) (commitPoint s).lgs := ⟨_, rfl, rfl, rfl, rfl⟩

theorem sealed_frame (s : State) : (sealed s).lgs.placed = [] ∧ (sealed s).lgs.nextSeq = s.lgs.nextSeq + s.lgs.placed.length ∧
    (sealed s).lgs.sealGen = (s.lgs.sealGen + 1) % 2 ^ 32 ∧ (sealed s).lgs.gaps = [] ∧ (sealed s).lgs.unsealed = [] ∧
    (sealed s).lgs.digest = sealDigest (commitPoint s).lgs ∧ (sealed s).now = s.now ∧ (sealed s).em.savedVt = s.now := by
  obtain ⟨-, -, placed, next, gen, -, time⟩ := commitPoint_frame s
  obtain ⟨log, -, flushed⟩ := flushGap_enters (fun _ => true) (commitPoint s)
  have now : (flushGap (fun _ => true) (commitPoint s)).now = s.now := congrArg (fun t => t.vt64) (flushed.trans time)
  refine ⟨(congrArg (·.placed) log).trans placed, (congrArg (·.nextSeq) log).trans next, ?_, (congrArg (·.gaps) log).trans ?_, rfl, rfl, now, now⟩
  · rw [← gen]
    rfl
  · exact List.filter_eq_nil_iff.mpr fun _ _ => Bool.false_ne_true

/-! ### Media (R475, R476, R477) -/

theorem relocate_of_noFree {k : Nat} {s : State} {f : NandFit} {g : Segment} (fit : s.lgs.fit = some f) (seg : tabFind s.lgs.segs k = some g)
    (none' : freeSeg s.lgs f g.slc = none) : relocate k s = s := by
  simp only [relocate, fit, seg, none']

theorem relocate_of_free {k k2 : Nat} {s : State} {f : NandFit} {g : Segment} (fit : s.lgs.fit = some f) (seg : tabFind s.lgs.segs k = some g)
    (free : freeSeg s.lgs f g.slc = some k2) : ∃ segs recs n, (relocate k s).lgs = { s.lgs with
      segs := tabSet segs k2 { g with vt := s.now, gen := s.lgs.headGen }, recs := recs, programmed := n
      toErase := s.lgs.toErase ++ (List.range (segBlocks f)).map (k * segBlocks f + ·) } ∧
    recs.map (·.seq) = s.lgs.recs.map (·.seq) ∧ recs.map (·.body) = s.lgs.recs.map (·.body) := by
  have eq : relocate k s = (s.emit (.nandHeader k2 (segHeader k2 { g with vt := s.now, gen := s.lgs.headGen }))).modLgs fun l => { l with
      segs := tabSet (tabDel l.segs k) k2 { g with vt := s.now, gen := l.headGen }
      recs := l.recs.map fun r => if r.seg == k && r.slc == g.slc then { r with seg := k2 } else r
      programmed := l.programmed + 16 * (g.ofs - 256)
      toErase := l.toErase ++ (List.range (segBlocks f)).map (k * segBlocks f + ·) } := by
    simp only [relocate, fit, seg, free]
  refine ⟨tabDel s.lgs.segs k, s.lgs.recs.map fun r => if r.seg == k && r.slc == g.slc then { r with seg := k2 } else r,
    s.lgs.programmed + 16 * (g.ofs - 256), congrArg (fun t => t.lgs) eq, ?_, ?_⟩ <;>
  · rw [List.map_map]
    refine List.map_congr_left fun r _ => ?_
    dsimp only [Function.comp]
    split <;> rfl

theorem reclaim_of_room {slc : Bool} {s : State} {f : NandFit} {k : Nat} {g : Segment} (fit : s.lgs.fit = some f)
    (oldest : oldestSeg slc s.lgs = some (k, g)) (room : ∃ n ∈ regionSegs s.lgs slc, tabFind s.lgs.segs n = none) : reclaim slc s = s := by
  obtain ⟨n, hn, none'⟩ := room
  have open' : (regionSegs s.lgs slc).all (fun n => (tabFind s.lgs.segs n).isSome) = false :=
    List.all_eq_false.mpr ⟨n, hn, by rw [none']; exact Bool.false_ne_true⟩
  simp only [reclaim, fit, oldest, open', Bool.false_eq_true, if_false]

theorem reclaim_of_full {slc : Bool} {s : State} {f : NandFit} {k : Nat} {g : Segment} (fit : s.lgs.fit = some f)
    (oldest : oldestSeg slc s.lgs = some (k, g)) (full : ∀ n ∈ regionSegs s.lgs slc, tabFind s.lgs.segs n ≠ none) :
    ∃ lost, reclaim slc s = { s with lgs := { s.lgs with
      segs := tabDel s.lgs.segs k, recs := s.lgs.recs.filter (fun r => r.seg != k), lostRecs := lost
      toErase := s.lgs.toErase ++ (List.range (segBlocks f)).map (k * segBlocks f + ·) } } := by
  have all : (regionSegs s.lgs slc).all (fun n => (tabFind s.lgs.segs n).isSome) = true :=
    List.all_eq_true.mpr fun n hn => Option.isSome_iff_ne_none.mpr (full n hn)
  have eq : reclaim slc s = s.modLgs fun l => { l with
      segs := tabDel l.segs k, recs := l.recs.filter fun r => r.seg != k
      lostRecs := l.lostRecs.filter fun q => !((s.lgs.recs.filter fun r => r.seg == k).map (·.seq)).contains q
      toErase := l.toErase ++ (List.range (segBlocks f)).map (k * segBlocks f + ·) } := by
    simp only [reclaim, fit, oldest, all, if_true]
  exact ⟨s.lgs.lostRecs.filter fun q => !((s.lgs.recs.filter fun r : LogRec => r.seg == k).map LogRec.seq).contains q, eq⟩

/-! ### Scrubs and erasures (R452, R474, R476, R527) -/

theorem scrubBegin_lgs (s : State) : ∃ on read, (scrubBegin s).lgs = { s.lgs with scrubbing := on, scrubbed := read } := by
  unfold scrubBegin
  split
  · exact ⟨s.lgs.scrubbing, s.lgs.scrubbed, rfl⟩
  · exact ⟨_, _, rfl⟩

theorem scrubEnd_lgs (s : State) : ∃ on done, (scrubEnd s).lgs = { s.lgs with scrubbing := on, scrubDone := done } := by
  unfold scrubEnd
  split
  · exact ⟨s.lgs.scrubbing, s.lgs.scrubDone, rfl⟩
  · dsimp only
    split
    · exact ⟨_, _, rfl⟩
    · exact ⟨s.lgs.scrubbing, s.lgs.scrubDone, rfl⟩

theorem loseRecord_lgs (k : Nat) (s : State) : ∃ lost, (loseRecord k s).lgs = { s.lgs with uncorr := s.lgs.uncorr + 1, lostRecs := lost } := by
  have raised : (raiseFault Src.lgsUe 0 unitNone (s.modLgs fun l => { l with uncorr := l.uncorr + 1 })).lgs = { s.lgs with uncorr := s.lgs.uncorr + 1 } :=
    lgs_of_deep (s := s.modLgs fun l => { l with uncorr := l.uncorr + 1 }) (raiseFault_deep ..)
  unfold loseRecord
  dsimp only
  generalize raiseFault Src.lgsUe 0 unitNone _ = v at raised ⊢
  split
  · exact ⟨s.lgs.lostRecs, raised⟩
  · split
    · next r _ => exact ⟨setAdd s.lgs.lostRecs r.seq, congrArg (fun l : LogStore => { l with lostRecs := setAdd l.lostRecs r.seq }) raised⟩
    · exact ⟨s.lgs.lostRecs, raised⟩

theorem retryRun_lgs (b : Nat) (retried : Bool) (s : State) : ∃ runs, (retryRun b retried s).lgs = { s.lgs with retryRuns := runs } ∧
    tabGet runs b 0 = if retried then tabGet s.lgs.retryRuns b 0 + 1 else 0 := by
  unfold retryRun
  dsimp only
  generalize (if retried = true then tabGet s.lgs.retryRuns b 0 + 1 else 0) = n
  refine ⟨if n == 0 then tabDel s.lgs.retryRuns b else tabSet s.lgs.retryRuns b n, ?_, ?_⟩
  · split
    · split
      · exact lgs_of_deep (s := s.modLgs fun l => { l with retryRuns := if n == 0 then tabDel l.retryRuns b else tabSet l.retryRuns b n }) (propose_deep ..)
      · rfl
    · rfl
  · by_cases h : n = 0
    · subst h
      exact tabGet_of_tabFind_none (tabFind_tabDel_same ..)
    · rw [if_neg (fun c => h (beq_iff_eq.mp c))]
      exact tabGet_tabSet_same ..

/-- The retry of a scrubbed block is counted in its channel. -/
def scrubRetried (b : Nat) (retried : Bool) (s : State) : State :=
  if retried then s.modLgs fun l => { l with retries := tabMod l.retries (b % 8) 0 (· + 1) } else s

/-- A second soft decision makes the block bad; a first one is remembered. -/
def scrubSoft (b : Nat) (softDecoded : Bool) (s : State) : State :=
  if softDecoded then (if s.lgs.softOnce.contains b then growBad b s else s.modLgs fun l => { l with softOnce := setAdd l.softOnce b }) else s

/-- A weak block is refreshed. -/
def scrubWeak (weak : Bool) (s : State) : State :=
  if weak then s.modLgs fun l => { l with
    refreshed := l.refreshed + 1, programmed := l.programmed + (match l.fit with | some f => blockBytes f | none => 0) }
  else s

theorem scrubBlock_eq (b k : Nat) (sd r w u : Bool) (s : State) : scrubBlock b k sd r w u s = scrubEnd (scrubWeak w (scrubSoft b sd
    ((fun v => if u then loseRecord k v else v) (retryRun b r (scrubRetried b r
      ((scrubBegin s).modLgs fun l => { l with scrubbed := setAdd l.scrubbed b })))))) := rfl

theorem scrubRetried_lgs (b : Nat) (retried : Bool) (s : State) : ∃ tries, (scrubRetried b retried s).lgs = { s.lgs with retries := tries } ∧
    tabGet tries (b % 8) 0 = tabGet s.lgs.retries (b % 8) 0 + bit retried := by
  cases retried with
  | false => exact ⟨s.lgs.retries, rfl, rfl⟩
  | true => exact ⟨tabMod s.lgs.retries (b % 8) 0 (· + 1), rfl, tabGet_tabMod_same ..⟩

theorem scrubLost_lgs (k : Nat) (u : Bool) (s : State) :
    ∃ lost, (if u then loseRecord k s else s).lgs = { s.lgs with uncorr := s.lgs.uncorr + bit u, lostRecs := lost } := by
  cases u with
  | false => exact ⟨s.lgs.lostRecs, rfl⟩
  | true => exact loseRecord_lgs k s

theorem scrubSoft_lgs (b : Nat) (sd : Bool) (s : State) : ∃ g sp un once,
    (scrubSoft b sd s).lgs = { s.lgs with grown := g, spares := sp, unspared := un, softOnce := once } ∧
    (sd = true → s.lgs.softOnce.contains b = true → b ∈ g) ∧ (sd = true → b ∈ once) := by
  cases sd with
  | false => exact ⟨s.lgs.grown, s.lgs.spares, s.lgs.unspared, s.lgs.softOnce, rfl, nofun, nofun⟩
  | true =>
    cases before : s.lgs.softOnce.contains b with
    | false =>
      refine ⟨s.lgs.grown, s.lgs.spares, s.lgs.unspared, setAdd s.lgs.softOnce b, ?_, nofun, fun _ => mem_setAdd ..⟩
      simp only [scrubSoft, before, if_true, Bool.false_eq_true, if_false]
      rfl
    | true =>
      obtain ⟨g, sp, un, log, bad⟩ := growBad_lgs b s
      refine ⟨g, sp, un, s.lgs.softOnce, ?_, fun _ _ => bad, fun _ => List.contains_iff_mem.mp before⟩
      simp only [scrubSoft, before, if_true]
      exact log

theorem scrubWeak_lgs (weak : Bool) (s : State) :
    ∃ n, (scrubWeak weak s).lgs = { s.lgs with refreshed := s.lgs.refreshed + bit weak, programmed := n } := by
  cases weak with
  | false => exact ⟨s.lgs.programmed, rfl⟩
  | true => exact ⟨_, rfl⟩

/-- What the scrub of one block leaves in the counts it keeps. -/
theorem scrubBlock_lgs (b k : Nat) (sd r w u : Bool) (s : State) : (scrubBlock b k sd r w u s).lgs.uncorr = s.lgs.uncorr + bit u ∧
    (scrubBlock b k sd r w u s).lgs.refreshed = s.lgs.refreshed + bit w ∧ (scrubBlock b k sd r w u s).lgs.recs = s.lgs.recs ∧
    tabGet (scrubBlock b k sd r w u s).lgs.retries (b % 8) 0 = tabGet s.lgs.retries (b % 8) 0 + bit r ∧
    tabGet (scrubBlock b k sd r w u s).lgs.retryRuns b 0 = (if r then tabGet s.lgs.retryRuns b 0 + 1 else 0) ∧
    (sd = true → s.lgs.softOnce.contains b = true → b ∈ (scrubBlock b k sd r w u s).lgs.grown) ∧
    (sd = true → b ∈ (scrubBlock b k sd r w u s).lgs.softOnce) := by
  rw [scrubBlock_eq]
  obtain ⟨on, read, begun⟩ := scrubBegin_lgs s
  generalize ht1 : (scrubBegin s).modLgs (fun l => { l with scrubbed := setAdd l.scrubbed b }) = t1
  have e1 : t1.lgs = { s.lgs with scrubbing := on, scrubbed := setAdd read b } := by
    rw [← ht1, State.modLgs_lgs, begun]
  obtain ⟨tries, e2, counted⟩ := scrubRetried_lgs b r t1
  obtain ⟨runs, e3, run⟩ := retryRun_lgs b r (scrubRetried b r t1)
  obtain ⟨lost, e4⟩ := scrubLost_lgs k u (retryRun b r (scrubRetried b r t1))
  obtain ⟨g, sp, un, once, e5, bad, soft⟩ := scrubSoft_lgs b sd ((fun v => if u then loseRecord k v else v) (retryRun b r (scrubRetried b r t1)))
  obtain ⟨n, e6⟩ := scrubWeak_lgs w (scrubSoft b sd ((fun v => if u then loseRecord k v else v) (retryRun b r (scrubRetried b r t1))))
  obtain ⟨on', done, e7⟩ := scrubEnd_lgs (scrubWeak w (scrubSoft b sd ((fun v => if u then loseRecord k v else v) (retryRun b r (scrubRetried b r t1)))))
  dsimp only at e5 e6 e7 bad ⊢
  rw [e4, e3, e2, e1] at e5 bad
  rw [e5] at e6
  rw [e6] at e7
  rw [e2, e1] at run
  rw [e1] at counted
  rw [e7]
  exact ⟨rfl, rfl, rfl, counted, run, bad, soft⟩

theorem eraseDone_of_other {b : Nat} {pass : Bool} {s : State} (other : b ∉ s.lgs.toErase) : eraseDone b pass s = s :=
  if_neg fun h => other (List.contains_iff_mem.mp h)

/-- An erased block is counted and no longer waits; one whose erase failed is bad. -/
theorem eraseDone_lgs {b : Nat} {pass : Bool} {s : State} (waits : b ∈ s.lgs.toErase) :
    (eraseDone b pass s).lgs.toErase = s.lgs.toErase.erase b ∧ tabGet (eraseDone b pass s).lgs.erases b 0 = tabGet s.lgs.erases b 0 + 1 ∧
    (pass = false → b ∈ (eraseDone b pass s).lgs.grown) := by
  let v := s.modLgs fun l => { l with toErase := l.toErase.erase b, erases := tabMod l.erases b 0 (· + 1), softOnce := setDel l.softOnce b }
  have eq : eraseDone b pass s = lifeCheck (if pass then v else growBad b v) := if_pos (List.contains_iff_mem.mpr waits)
  have log : (eraseDone b pass s).lgs = (if pass then v else growBad b v).lgs := by
    rw [eq]
    exact lgs_of_deep (setCause_deep ..)
  rw [log]
  cases pass with
  | true => exact ⟨rfl, tabGet_tabMod_same .., nofun⟩
  | false =>
    obtain ⟨g, sp, un, grown, bad⟩ := growBad_lgs b v
    simp only [Bool.false_eq_true, if_false, grown]
    exact ⟨rfl, tabGet_tabMod_same .., fun _ => bad⟩

/-! ### Capsules (R522) -/

/-- The FJ record of a capsule. -/
def capsuleRecord (c : Capsule) (s : State) : LogRec :=
  { sysRecord 4 c.vt 0 (fjBody (c.entries.head?.elim 0 (·.seq)) c.entries c.lost) s with info := qualCode c.quality, capsule := true }

theorem capsuleEnter_of_none {s : State} (none' : s.em.capsules = []) : capsuleEnter s = s := by
  simp only [capsuleEnter, none']

theorem capsuleEnter_of_busy {s : State} (busy : (s.lgs.urgent ++ s.lgs.placed ++ s.lgs.sysWait).any (·.capsule) = true) : capsuleEnter s = s := by
  unfold capsuleEnter
  split
  · rfl
  · exact if_pos busy

theorem capsuleEnter_of_free {s : State} {c : Capsule} {rest : List Capsule} (first : s.em.capsules = c :: rest)
    (free : (s.lgs.urgent ++ s.lgs.placed ++ s.lgs.sysWait).any (·.capsule) = false) : capsuleEnter s = enterSys (capsuleRecord c s) s := by
  simp only [capsuleEnter, first, free, Bool.false_eq_true, if_false, capsuleRecord]
  cases c.entries <;> rfl

/-! ### The rows -/

/-- Settles O33: each row by the equation of its meaning where its guard holds. -/
theorem logRows : Obligations.LogRows := by
  intro s alive
  refine ⟨fun ready => ?_, fun ready => ?_, fun n val ready hn room => ?_, fun n val ready hn full => ?_, fun n hn empty => ?_,
    fun n val rest u hn first hu => ?_, fun pass up page => ?_, fun up placed => ?_, fun id up open' => ?_, fun up open' => ?_,
    fun k f g up moves fit seg => ?_, fun b sd r w u up => ?_, fun slc f k g up fit oldest => ?_, fun up open' => ⟨fun none' => ?_, fun busy => ?_,
      fun c rest first free => ?_⟩, fun b pass up => ?_⟩
  · exact Runs.of_act (show _ = execIngFillRead s from rfl) (by rw [alive, ready]; rfl) rfl
  · exact Runs.of_act (show _ = execLgsQfillRead s from rfl) (by rw [alive, ready]; rfl) rfl
  · exact Runs.of_act (show _ = execLgsAppendWrite n val s from rfl) (by rw [alive, ready, decide_eq_true hn]; rfl) (appendWrite_of_room room)
  · exact Runs.of_act (show _ = execLgsAppendWrite n val s from rfl) (by rw [alive, ready, decide_eq_true hn]; rfl) (appendWrite_of_full full)
  · exact Runs.of_act (show _ = execAppendProcess n s from rfl) (by rw [alive, decide_eq_true hn]; rfl) (appendProcess_of_empty empty)
  · subst hu
    refine Runs.of_act (show _ = execAppendProcess n s from rfl) (by rw [alive, decide_eq_true hn]; rfl) ?_
    exact ⟨appendProcess_of_noPlace first, fun p place unmapped => appendProcess_of_unmapped first place unmapped,
      fun p l v place mapped load => appendProcess_of_read first place mapped load⟩
  · refine Runs.of_act (show _ = execPageProgramComplete pass s from rfl) ?_ ⟨programPage_of_noSegment pass, fun k v found => ?_⟩
    · rw [up, List.isEmpty_eq_false_iff.mpr page]
      rfl
    · cases pass with
      | false =>
        obtain ⟨b, u, eq, written⟩ := programPage_of_fail found
        obtain ⟨g, sp, un, grown, -⟩ := growBad_lgs b u
        rw [eq, grown, written]
        exact ⟨rfl, fun _ => ⟨rfl, rfl, rfl, rfl⟩, nofun⟩
      | true =>
        obtain ⟨n, u, eq, written, placed, recs, next⟩ := programPage_of_pass found
        have entered := enterWaiting_unqueued n u
        rw [eq]
        exact ⟨(congrArg (·.programmed) entered).trans written, nofun, fun _ => ⟨(congrArg (·.placed.length) entered).trans placed,
          (congrArg (·.recs) entered).trans recs, (congrArg (·.nextSeq) entered).trans next⟩⟩
  · refine Runs.of_act (show _ = execCommitPoint s from rfl) (by rw [up, List.isEmpty_eq_false_iff.mpr placed]; rfl) ?_
    obtain ⟨⟨b, c, head⟩, gen, none', next, -, recs, -⟩ := commitPoint_frame s
    exact ⟨⟨b, c, by rw [gen, next]; exact head⟩, gen, none', next, recs⟩
  · refine Runs.of_act (show _ = execTriggerClose id s from rfl) (by rw [up, open']; rfl) ⟨trigEnd_of_none, fun g found => ?_⟩
    rw [trigEnd_of_some found]
    refine ⟨fun unserved => if_neg (by rw [unserved]; exact Bool.false_ne_true), fun served => ?_⟩
    rw [if_pos served]
    refine ⟨rfl, fun x hx => ?_⟩
    rw [trigClose_trigs] at hx
    have same : (g.id == id) = true := List.find?_some (p := fun x : LogTrig => x.id == id) found
    rw [← beq_iff_eq.mp same]
    exact bne_iff_ne.mp (List.of_mem_filter (p := fun x : LogTrig => x.id != g.id) hx)
  · refine Runs.of_act (show _ = execPeriodicSeal s from rfl) (by rw [up, open']; rfl) ?_
    obtain ⟨r, eq, kind, vt, body⟩ := doSeal_eq s
    obtain ⟨placed, next, gen, gaps, unsealed, digest, now, saved⟩ := sealed_frame s
    obtain ⟨-, -, -, -, kept, -, -⟩ := commitPoint_frame s
    obtain ⟨log, frame⟩ := enterSys_frame r (sealed s)
    rw [eq]
    have newGen : (enterSys r (sealed s)).lgs.sealGen = (s.lgs.sealGen + 1) % 2 ^ 32 := (congrArg (·.sealGen) log).trans gen
    refine ⟨(congrArg (·.placed) log).trans placed, (congrArg (·.nextSeq) log).trans next, (congrArg (fun t => t.em.savedVt) frame).trans saved,
      newGen, (congrArg (·.gaps) log).trans gaps, (congrArg (·.unsealed) log).trans unsealed, (congrArg (·.digest) log).trans digest,
      r, kind, vt.trans now, ?_, enterSys_last r (sealed s)⟩
    rw [newGen, body, kept]
  · refine Runs.of_act (show _ = execBlockRelocation k s from rfl) (by rw [up, moves]; rfl) ⟨relocate_of_noFree fit seg, fun k2 free => ?_⟩
    obtain ⟨segs, recs, n, log, seqs, bodies⟩ := relocate_of_free fit seg free
    rw [log]
    exact ⟨tabFind_tabSet_same .., seqs, bodies,
      fun i hi => List.mem_append_right _ (List.mem_map.mpr ⟨i, List.mem_range.mpr hi, rfl⟩)⟩
  · refine Runs.of_act (show _ = execRetentionScrub b sd r w u s from rfl) up ⟨fun none' => ?_, fun k some' => ?_⟩
    · simp only [scrub, none']
    · have eq : scrub b sd r w u s = scrubBlock b k sd r w u s := by simp only [scrub, some']
      rw [eq]
      exact scrubBlock_lgs b k sd r w u s
  · refine Runs.of_act (show _ = execSegmentReclaim slc s from rfl) up ⟨reclaim_of_room fit oldest, fun full => ?_⟩
    obtain ⟨lost, eq⟩ := reclaim_of_full fit oldest full
    rw [eq]
    exact ⟨tabFind_tabDel_same .., rfl, rfl, rfl⟩
  · exact Runs.of_act (show _ = execCapsuleCommit s from rfl) (by rw [up, open']; rfl) (capsuleEnter_of_none none')
  · exact Runs.of_act (show _ = execCapsuleCommit s from rfl) (by rw [up, open']; rfl) (capsuleEnter_of_busy busy)
  · refine Runs.of_act (show _ = execCapsuleCommit s from rfl) (by rw [up, open']; rfl) ?_
    rw [capsuleEnter_of_free first free]
    obtain ⟨fits, waits⟩ := enterSys_queues (capsuleRecord c s) s
    exact ⟨capsuleRecord c s, rfl, rfl, rfl, (enterSys_frame ..).2, rfl, fits, waits⟩
  · exact Runs.of_act (show _ = execNandBlockEraseComplete b pass s from rfl) up ⟨eraseDone_of_other, eraseDone_lgs⟩

end Sys2Proof.Machine
end

section
/-! PROOFS. What posting an entry, raising a fault and a change of the servo leave alone of the bridge links: the links
themselves and the mask of present devices (R488, R491, R511). -/
namespace Sys2Proof.Machine

/-- The links and the present mask. -/
def State.cube (s : State) : Vector BrLink 4 × BitVec 8 := (s.brl.links, s.brl.present)

theorem foldl_cube {α : Type} {f : State → α → State} (h : ∀ s a, (f s a).cube = s.cube) (l : List α) (s : State) : (l.foldl f s).cube = s.cube :=
  foldl_keeps (P := fun t => t.cube = s.cube) (fun t a _ eq => (h t a).trans eq) rfl

theorem cube_ite {c : Prop} [Decidable c] (a b : State) : (if c then a else b).cube = if c then a.cube else b.cube := apply_ite _ _ _ _

/-! ### Posting (R95 to R101, R111) -/

@[simp] theorem State.modPins_cube (s : State) (f) : (s.modPins f).cube = s.cube := rfl
@[simp] theorem State.modEm_cube (s : State) (f) : (s.modEm f).cube = s.cube := rfl
@[simp] theorem State.modLink_cube (s : State) (f) : (s.modLink f).cube = s.cube := rfl
@[simp] theorem State.modBasut_cube (s : State) (f) : (s.modBasut f).cube = s.cube := rfl
@[simp] theorem State.modTime_cube (s : State) (f) : (s.modTime f).cube = s.cube := rfl
@[simp] theorem State.modStroke_cube (s : State) (f) : (s.modStroke f).cube = s.cube := rfl
@[simp] theorem State.modFcu_cube (s : State) (f) : (s.modFcu f).cube = s.cube := rfl
@[simp] theorem State.modHealth_cube (s : State) (f) : (s.modHealth f).cube = s.cube := rfl
@[simp] theorem State.emit_cube (s : State) (o : Output) : (s.emit o).cube = s.cube := rfl
@[simp] theorem State.draw_cube (s : State) : s.draw.2.cube = s.cube := rfl
@[simp] theorem State.setQp_cube (s : State) (q : Nat) (f : Qp → Qp) : (s.setQp q f).cube = s.cube := rfl
@[simp] theorem State.setFn_cube (s : State) (v : Nat) (f : AdminRegs → AdminRegs) : (s.setFn v f).cube = s.cube := rfl
@[simp] theorem State.count_cube (s : State) (v : Nat) (f : QCounts → QCounts) : (s.count v f).cube = s.cube := rfl
@[simp] theorem State.setRec_cube (s : State) (id : Nat) (f : FaultRec → FaultRec) : (s.setRec id f).cube = s.cube := rfl
@[simp] theorem journal_cube (typ src sev : Nat) (inj : Bool) (merges : Nat) (vt info : W64) (unit : W16) (s : State) :
    (journal typ src sev inj merges vt info unit s).cube = s.cube := rfl
@[simp] theorem copyCapsule_cube (s : State) : (copyCapsule s).cube = s.cube := rfl
@[simp] theorem finishRaw_cube (q cid status : Nat) (result : W32) (vt : W64) (ql : Quality) (s : State) :
    (finishRaw q cid status result vt ql s).cube = s.cube := rfl

@[simp] theorem sendMsix_cube (v vec : Nat) (s : State) : (sendMsix v vec s).cube = s.cube := by
  unfold sendMsix
  simp [cube_ite]

@[simp] theorem moderate_cube (q : Nat) (success : Bool) (s : State) : (moderate q success s).cube = s.cube := by
  unfold moderate
  simp [cube_ite]

@[simp] theorem writeCqe_cube (q : Nat) (e : Cqe) (s : State) : (writeCqe q e s).cube = s.cube := by
  unfold writeCqe
  simp

@[simp] theorem openOverflow_cube (q : Nat) (e : Cqe) (s : State) : (openOverflow q e s).cube = s.cube := by
  unfold openOverflow
  simp [cube_ite]

@[simp] theorem postUnsol_cube (q : Nat) (e : Cqe) (s : State) : (postUnsol q e s).cube = s.cube := by
  unfold postUnsol
  simp [cube_ite]

@[simp] theorem postCovered_cube (kind src : Nat) (e : Cqe) (s : State) : (postCovered kind src e s).cube = s.cube := by
  unfold postCovered
  (repeat' split) <;> simp [foldl_cube]

/-- A completion on the lead may settle its part of a cube command; links and mask stay. -/
@[simp] theorem finish_cube (q cid status : Nat) (result : W32) (s : State) : (finish q cid status result s).cube = s.cube := by
  unfold finish finishAt
  split
  · rfl
  · split <;> rfl

/-! ### Faults (R508, R511, R514) -/

@[simp] theorem safeJobs_cube (s : State) : (safeJobs s).cube = s.cube := by
  unfold safeJobs
  simp [foldl_cube]

@[simp] theorem safeSeqs_cube (s : State) : (safeSeqs s).cube = s.cube := by
  unfold safeSeqs
  simp [foldl_cube]

@[simp] theorem enterSafe_cube (id : Nat) (info : W64) (unit : W16) (s : State) : (enterSafe id info unit s).cube = s.cube := by
  unfold enterSafe
  simp [cube_ite]

@[simp] theorem faultEntry_cube (id merges sev : Nat) (s : State) : (faultEntry id merges sev s).cube = s.cube := by
  unfold faultEntry
  simp

@[simp] theorem openFault_cube (id : Nat) (info : W64) (unit : W16) (s : State) : (openFault id info unit s).cube = s.cube := by
  unfold openFault
  simp [cube_ite]

@[simp] theorem propose_cube (cls index reason src : Nat) (detail : W64) (s : State) : (propose cls index reason src detail s).cube = s.cube := by
  unfold propose
  (repeat' split) <;> simp

@[simp] theorem raiseFault_cube (id : Nat) (info : W64) (unit : W16) (s : State) : (raiseFault id info unit s).cube = s.cube := by
  unfold raiseFault
  grind [openFault_cube, propose_cube]

@[simp] theorem setCause_cube (id : Nat) (present : Bool) (info : W64) (s : State) : (setCause id present info s).cube = s.cube := by
  unfold setCause
  simp [cube_ite]

/-! ### The servo (R142, R144, R146) -/

@[simp] theorem goServo_cube (st : Quality) (src : Nat) (s : State) : (goServo st src s).cube = s.cube := by
  unfold goServo
  simp [cube_ite]

@[simp] theorem selectedLost_cube (s : State) : (selectedLost s).cube = s.cube := by
  unfold selectedLost
  split <;> simp [cube_ite]

@[simp] theorem sourcesChanged_cube (s : State) : (sourcesChanged s).cube = s.cube := by
  unfold sourcesChanged
  simp [cube_ite]

/-! ### The lead and the routes (R488, R489) -/

@[simp] theorem routes_cube (s : State) : (routes s).cube = s.cube := rfl

@[simp] theorem setLead_cube (d : Nat) (s : State) : (setLead d s).cube = s.cube := by
  unfold setLead
  dsimp only
  split
  · exact (sourcesChanged_cube _).trans rfl
  · split
    · exact (sourcesChanged_cube _).trans rfl
    · rfl

@[simp] theorem elect_cube (s : State) : (elect s).cube = s.cube := setLead_cube ..

@[simp] theorem downCause_cube (s : State) : (downCause s).cube = s.cube := setCause_cube ..

@[simp] theorem leadCheck_cube (s : State) : (leadCheck s).cube = s.cube := by
  unfold leadCheck
  simp [cube_ite]

theorem State.brLink_of_cube {s t : State} (h : t.cube = s.cube) (k : Nat) : t.brLink k = s.brLink k := by
  rw [State.brLink, State.brLink, show t.brl.links = s.brl.links from congrArg Prod.fst h]

theorem present_of_cube {s t : State} (h : t.cube = s.cube) : t.brl.present = s.brl.present := congrArg Prod.snd h

end Sys2Proof.Machine
end

section
/-! PROOFS. Bridge links, lead and follower (R485, R487 to R489, R493, R494, R496, R497, R500). -/
namespace Sys2Proof.Machine

/-! ### Links (R502) -/

theorem State.brLink_setLink_same (s : State) {k : Nat} (hk : k < 4) (f : BrLink → BrLink) : (s.setLink k f).brLink k = f (s.brLink k) := by
  have set : (s.brl.links.set! k (f (s.brLink k))).toList[k]? = some (f (s.brLink k)) := by
    rw [Vector.toList_set!, List.getElem?_set_self]
    rw [Vector.length_toList]
    exact hk
  exact congrArg (fun o : Option BrLink => o.getD {}) set

theorem State.brLink_setLink_ne (s : State) {k j : Nat} (f : BrLink → BrLink) (h : j ≠ k) : (s.setLink k f).brLink j = s.brLink j := by
  have kept : (s.brl.links.set! k (f (s.brLink k))).toList[j]? = s.brl.links.toList[j]? := by
    rw [Vector.toList_set!, List.getElem?_set_ne (Ne.symm h)]
  exact congrArg (fun o : Option BrLink => o.getD {}) kept

theorem State.setLink_frame (s : State) {k : Nat} (hk : k < 4) (f : BrLink → BrLink) : (s.setLink k f).brLink k = f (s.brLink k) ∧
    (∀ j, j ≠ k → (s.setLink k f).brLink j = s.brLink j) ∧ s.setLink k f = { s with brl := (s.setLink k f).brl } :=
  ⟨s.brLink_setLink_same hk f, fun _ h => s.brLink_setLink_ne f h, rfl⟩

/-! ### Training and lanes (R485, R487) -/

section
variable {k nbr peer : Nat} {good : BitVec 5} {s : State}

theorem trained_of_stranger (stranger : nbr ≠ farEnd s.cubeId k) : trained k nbr good peer s =
    raiseFault Src.brlTopo (w64 k) unitNone (s.setLink k fun l => { l with nbr := nbr % 8, nbrOk := false }) := if_pos (bne_iff_ne.mpr stranger)

theorem trained_of_dead (known : nbr = farEnd s.cubeId k) (dead : (linkShape (servingLanes k (~~~ good) s)).1 = 0) : trained k nbr good peer s =
    downCause (s.setLink k fun l => { l with state := 4, width := 0, bad := ~~~ good }) := by
  unfold trained
  rw [if_neg (fun h => bne_iff_ne.mp h known), if_pos (beq_iff_eq.mpr dead)]

/-- A link that has trained with its neighbour. -/
def linkTrained (k nbr : Nat) (good : BitVec 5) (s : State) : State :=
  shapeLink k (~~~ good) 2 (s.setLink k fun l => { l with nbr, nbrOk := true, exch := none, fresh := true })

/-- The positions that join, with this device itself. -/
def joinedMask (nbr peer : Nat) (s : State) : BitVec 8 :=
  putBit (s.brl.present ||| putBit (BitVec.ofNat 8 peer) nbr true) s.cubeId true

theorem trained_of_live (known : nbr = farEnd s.cubeId k) (live : (linkShape (servingLanes k (~~~ good) s)).1 ≠ 0) :
    (trained k nbr good peer s).cube = ((linkTrained k nbr good s).brl.links, joinedMask nbr peer (linkTrained k nbr good s)) := by
  unfold trained linkTrained
  rw [if_neg (fun h => bne_iff_ne.mp h known), if_neg (fun h => live (beq_iff_eq.mp h))]
  dsimp only
  generalize shapeLink k (~~~ good) 2 _ = v
  split
  · exact (elect_cube _).trans ((downCause_cube _).trans rfl)
  · split
    · exact (routes_cube _).trans ((downCause_cube _).trans rfl)
    · exact (downCause_cube _).trans rfl

end

theorem joinedMask_joins {nbr peer : Nat} {s : State} (inRange : nbr < 8) : (joinedMask nbr peer s).getLsbD nbr = true := by
  have joins : (s.brl.present ||| putBit (BitVec.ofNat 8 peer) nbr true).getLsbD nbr = true := by
    rw [BitVec.getLsbD_or, getLsbD_putBit _ _ _ _ inRange, if_pos rfl, Bool.or_true]
  have position : s.cubeId < 8 := Nat.mod_lt _ (by decide)
  rw [joinedMask, getLsbD_putBit _ _ _ _ position, joins, ite_self]

/-- A link takes the shape of its serving lanes; nothing else of links and mask changes. -/
theorem shapeLink_frame {k : Nat} (hk : k < 4) (bad : BitVec 5) (st : Nat) (s : State) :
    (shapeLink k bad st s).brLink k = { s.brLink k with
      bad := bad, state := st, width := (linkShape (servingLanes k bad s)).1, spareFor := (linkShape (servingLanes k bad s)).2 } ∧
    (∀ j, j ≠ k → (shapeLink k bad st s).brLink j = s.brLink j) := by
  obtain ⟨same, others, -⟩ := s.setLink_frame hk fun l => { l with
    bad := bad, width := (linkShape (servingLanes k bad s)).1, spareFor := (linkShape (servingLanes k bad s)).2, state := st }
  have kept : (shapeLink k bad st s).cube = (s.setLink k fun l => { l with
      bad := bad, width := (linkShape (servingLanes k bad s)).1, spareFor := (linkShape (servingLanes k bad s)).2, state := st }).cube := by
    unfold shapeLink
    dsimp only
    split
    · exact raiseFault_cube ..
    · rfl
  exact ⟨(State.brLink_of_cube kept k).trans same, fun j h => (State.brLink_of_cube kept j).trans (others j h)⟩

/-- BRL_LANE opens for a link narrower than its data lanes (R487). -/
theorem shapeLink_raises {k : Nat} {bad : BitVec 5} {st : Nat} {s : State} (narrow : (linkShape (servingLanes k bad s)).1 < 3)
    (running : s.fcu.running = true) (closed : (s.frec Src.brlLane).isOpen = false) : ((shapeLink k bad st s).frec Src.brlLane).isOpen = true := by
  unfold shapeLink
  rw [if_pos narrow]
  exact raiseFault_isOpen _ _ running (by decide) closed

theorem laneFails_of_service {k lane : Nat} {s : State} (service : (lanesInUse (s.brLink k)).testBit lane = true ∨ (s.brLink k).state = 3) :
    laneFails k lane s = shapeLink k (putBit (s.brLink k).bad lane true) 3 s := by
  refine if_pos ?_
  rw [Bool.or_eq_true, beq_iff_eq]
  exact service

theorem laneFails_of_idle {k lane : Nat} {s : State} (idle : (lanesInUse (s.brLink k)).testBit lane = false) (up : (s.brLink k).state = 2) :
    laneFails k lane s = s.setLink k fun l => { l with bad := putBit (s.brLink k).bad lane true } := by
  refine if_neg ?_
  rw [idle, up]
  decide

/-! ### Links that go down (R488) -/

theorem linkDown_cube (k : Nat) (present : Byte) (s : State) : (linkDown k present s).cube =
    ((s.setLink k fun l => { l with state := 4, width := 0 }).brl.links, putBit (s.brl.present &&& present) s.cubeId true) := by
  have down := downCause_cube (s.setLink k fun l => { l with state := 4, width := 0 })
  have straps : (downCause (s.setLink k fun l => { l with state := 4, width := 0 })).cubeId = s.cubeId := by
    rw [State.cubeId, State.cubeId, boot_of_deep (t := downCause _) (s := s.setLink k fun l => { l with state := 4, width := 0 }) (setCause_deep ..)]
    rfl
  unfold linkDown
  dsimp only
  rw [leadCheck_cube]
  generalize downCause _ = v at down straps ⊢
  have links : v.brl.links = (s.setLink k fun l => { l with state := 4, width := 0 }).brl.links := congrArg Prod.fst down
  have mask : v.brl.present = s.brl.present := congrArg Prod.snd down
  rw [← links, ← mask, ← straps]
  rfl

/-- The lead has been silent for 500 us: time has come to that, and it is no longer present (R489). -/
def leadSilent (s : State) : State :=
  (s.bringTo (8000000 + s.brl.lastMsg)).modBrl fun b => { b with present := putBit b.present b.lead false }

theorem leadSilent_frame (s : State) : 8000000 + s.brl.lastMsg ≤ (leadSilent s).time.mono ∧
    (leadSilent s).brl = { s.brl with present := putBit s.brl.present s.brl.lead false } := ⟨State.mono_bringTo .., rfl⟩

theorem leadLost_eq (s : State) : leadLost s = raiseFault Src.brlLeadLost 0 unitNone (elect (leadSilent s)) := rfl

/-! ### Time messages (R493, R494) -/

/-- A message is stamped and answered. -/
def answered (k : Nat) (m : BrlMsg) (s : State) : State :=
  State.emit (s.setLink k fun l => { l with exch := some (m.t1, s.now, s.now) }) (.brlReply k s.now s.now)

/-- A message from upstream brings the lead's anchor. -/
def anchored (m : BrlMsg) (mono : Nat) (s : State) : State :=
  { s with brl := { s.brl with lastMsg := mono, anchor := some (m.anchorN.toNat, m.anchorVt, m.periodNs.toNat) } }

theorem timeReceive_of_first {k : Nat} {m : BrlMsg} {s : State} (first : (s.brLink k).exch = none) : timeReceive k m s =
    if isUpstream k s then forwardTime m (anchored m s.time.mono (answered k m s)) else answered k m s := by
  simp only [timeReceive, first, Option.map_none]
  rfl

/-- With the exchange before it a message gives the link's delay. -/
def delayed (k : Nat) (d : Int) (s : State) : State := s.setLink k fun l => { l with dly := (d % 2 ^ 24).toNat }

theorem asym_delayed {k : Nat} (hk : k < 4) (m : BrlMsg) (d : Int) (s : State) : (delayed k d (answered k m s)).asym k = s.asym k := by
  have link : (delayed k d (answered k m s)).brLink k = { s.brLink k with exch := some (m.t1, s.now, s.now), dly := (d % 2 ^ 24).toNat } := by
    rw [delayed, State.brLink_setLink_same _ hk]
    have before : (answered k m s).brLink k = { s.brLink k with exch := some (m.t1, s.now, s.now) } :=
      s.brLink_setLink_same hk fun l => { l with exch := some (m.t1, s.now, s.now) }
    rw [before]
  have lanes : lanesInUse ((delayed k d (answered k m s)).brLink k) = lanesInUse (s.brLink k) := by
    rw [link]
    rfl
  rw [State.asym, lanes]
  rfl

theorem timeReceive_of_second {k : Nat} (hk : k < 4) {m : BrlMsg} {s : State} {e : W64 × W64 × W64} (before : (s.brLink k).exch = some e) :
    timeReceive k m s = (fun d : Int =>
      if isUpstream k s then forwardTime m (brlSample k m s.now (linkOffset m.t1 s.now d (s.asym k)) (anchored m s.time.mono (delayed k d (answered k m s))))
      else delayed k d (answered k m s)) (linkDelay e.1 e.2.1 e.2.2 m.t4) := by
  dsimp only
  rw [← asym_delayed hk m (linkDelay e.1 e.2.1 e.2.2 m.t4) s]
  simp only [timeReceive, before, Option.map_some]
  rfl

/-! ### Access from other devices (R500) -/

theorem inbound_eq (k addr n : Nat) (s : State) : (∀ data, inboundOk addr = false →
      inbound k addr n data s = State.emit (decodeError data.isSome (.link k) addr s) (.brlAccessRsp k none)) ∧
    (∀ b ok v, inboundOk addr = true → write40 (.link k) 0 addr b s = (ok, v) →
      inbound k addr n (some b) s = v.emit (.brlAccessRsp k (if ok then some [] else none))) ∧
    (∀ r v, inboundOk addr = true → read40 (.link k) 0 addr n s = (r, v) → inbound k addr n none s = v.emit (.brlAccessRsp k r.all)) := by
  refine ⟨fun data no => ?_, fun b ok v yes write => ?_, fun r v yes read => ?_⟩
  · exact if_pos (by rw [no]; rfl)
  · simp only [inbound, yes, write, Bool.not_true, Bool.false_eq_true, if_false]
  · simp only [inbound, yes, read, Bool.not_true, Bool.false_eq_true, if_false]

/-! ### The rows of a link -/

theorem linkUp_of {k : Nat} {s : State} (h : (s.brLink k).state = 2 ∨ (s.brLink k).state = 3) : s.linkUp k = true := by
  rw [State.linkUp, Bool.or_eq_true, beq_iff_eq, beq_iff_eq]
  exact h

theorem Runs.of_laneFails {k lane : Nat} {s : State} {P : State → Prop} (alive : s.alive = true) (hk : k < 4) (hl : lane < 5)
    (up : (s.brLink k).state = 2 ∨ (s.brLink k).state = 3) (hp : P (laneFails k lane s)) : Runs (.brlLaneFailure k lane) s P :=
  Runs.of_act (show _ = execBrlLaneFailure k lane s from rfl)
    (by rw [alive, decide_eq_true hk, decide_eq_true hl, linkUp_of up]; rfl) hp

/-- Settles O34: each row by the equation of its meaning where its guard holds. -/
theorem bridgeRows : Obligations.BridgeRows := by
  intro k s alive hk
  refine ⟨fun nbr good peer trains => ?_, fun lane hl up => ?_, fun lane hl retrains => ?_, fun n retrains wide => ?_, fun present up => ?_,
    fun ready follower => ?_, fun m up counting => ?_, fun up => ?_, fun addr n data up ha hn hd => ?_⟩
  · refine Runs.of_act (show _ = execBrlTrainingComplete k nbr good peer s from rfl) ?_ ?_
    · rw [alive, decide_eq_true hk, Bool.true_and, Bool.true_and, Bool.or_eq_true, beq_iff_eq, beq_iff_eq]
      exact trains
    · by_cases known : nbr = farEnd s.cubeId k
      · by_cases dead : (linkShape (servingLanes k (~~~ good) s)).1 = 0
        · obtain ⟨same, others, -⟩ := s.setLink_frame hk fun l => { l with state := 4, width := 0, bad := ~~~ good }
          have kept := downCause_cube (s.setLink k fun l => { l with state := 4, width := 0, bad := ~~~ good })
          rw [trained_of_dead known dead]
          refine ⟨fun j h => (State.brLink_of_cube kept j).trans (others j h), fun stranger => absurd known stranger, fun w _ hw => ?_⟩
          subst hw
          exact ⟨fun _ => (State.brLink_of_cube kept k).trans same, fun live => absurd dead live⟩
        · obtain ⟨before, othersBefore, -⟩ := s.setLink_frame hk fun l => { l with nbr := nbr, nbrOk := true, exch := none, fresh := true }
          obtain ⟨same, others⟩ := shapeLink_frame hk (~~~ good) 2 (s.setLink k fun l => { l with nbr := nbr, nbrOk := true, exch := none, fresh := true })
          have cube := trained_of_live (peer := peer) known dead
          have links : ∀ j, (trained k nbr good peer s).brLink j = (linkTrained k nbr good s).brLink j := fun j => by
            rw [State.brLink, State.brLink, show (trained k nbr good peer s).brl.links = _ from congrArg Prod.fst cube]
          refine ⟨fun j h => (links j).trans ((others j h).trans (othersBefore j h)), fun stranger => absurd known stranger, fun w _ hw => ?_⟩
          subst hw
          refine ⟨fun none' => absurd none' dead, fun _ => ⟨?_, fun inRange => ?_⟩⟩
          · rw [links k, linkTrained, same, before]
            rfl
          · rw [show (trained k nbr good peer s).brl.present = _ from congrArg Prod.snd cube]
            exact joinedMask_joins inRange
      · rw [trained_of_stranger known]
        obtain ⟨-, others, -⟩ := s.setLink_frame hk fun l => { l with nbr := nbr % 8, nbrOk := false }
        exact ⟨fun j h => (State.brLink_of_cube (raiseFault_cube ..) j).trans (others j h), fun _ => rfl, fun w h => absurd h known⟩
  · refine Runs.of_laneFails alive hk hl (.inl up) ?_
    cases service : (lanesInUse (s.brLink k)).testBit lane with
    | true =>
      rw [laneFails_of_service (.inl service)]
      obtain ⟨same, others⟩ := shapeLink_frame hk (putBit (s.brLink k).bad lane true) 3 s
      exact ⟨others, _, _, rfl, rfl, fun _ => ⟨same, shapeLink_raises⟩, nofun⟩
    | false =>
      rw [laneFails_of_idle service up]
      obtain ⟨same, others, frame⟩ := s.setLink_frame hk fun l => { l with bad := putBit (s.brLink k).bad lane true }
      exact ⟨others, _, _, rfl, rfl, nofun, fun _ => ⟨same, frame⟩⟩
  · refine Runs.of_laneFails alive hk hl (.inr retrains) ?_
    rw [laneFails_of_service (.inr retrains)]
    obtain ⟨same, others⟩ := shapeLink_frame hk (putBit (s.brLink k).bad lane true) 3 s
    exact ⟨others, _, _, rfl, rfl, same.trans (by rw [← retrains]), shapeLink_raises⟩
  · refine Runs.of_act (show _ = execBrlRetrainComplete k n s from rfl)
      (by rw [alive, decide_eq_true hk, beq_iff_eq.mpr retrains, bne_iff_ne.mpr wide]; rfl) ?_
    obtain ⟨same, others, frame⟩ := s.setLink_frame hk fun l => { l with state := 2, replays := l.replays + n, retrains := l.retrains + 1, fresh := true }
    exact ⟨others, frame, same⟩
  · refine Runs.of_act (show _ = execBrlLinkDown k present s from rfl) (by rw [alive, decide_eq_true hk, up]; rfl) ?_
    have cube := linkDown_cube k present s
    obtain ⟨same, others, -⟩ := s.setLink_frame hk fun l => { l with state := 4, width := 0 }
    have links : ∀ j, (linkDown k present s).brLink j = (s.setLink k fun l => { l with state := 4, width := 0 }).brLink j := fun j => by
      rw [State.brLink, State.brLink, show (linkDown k present s).brl.links = _ from congrArg Prod.fst cube]
    refine ⟨fun j h => (links j).trans (others j h), (links k).trans same, fun d hd other => ?_⟩
    have position : s.cubeId < 8 := Nat.mod_lt _ (by decide)
    rw [show (linkDown k present s).brl.present = _ from congrArg Prod.snd cube, getLsbD_putBit _ _ _ _ position, if_neg other, BitVec.getLsbD_and]
  · refine Runs.of_act (show _ = execLeadLoss s from rfl) (by rw [alive, ready, follower]; rfl) ?_
    obtain ⟨reached, brl⟩ := leadSilent_frame s
    exact ⟨leadSilent s, reached, brl, leadLost_eq s⟩
  · refine Runs.of_act (show _ = execBrlTimeMessageReceive k m s from rfl) (by rw [alive, decide_eq_true hk, beq_iff_eq.mpr up, counting]; rfl) ?_
    refine ⟨answered k m s, rfl, fun down => ⟨fun first => ?_, fun e before => ?_⟩, fun upstream => ⟨fun first => ?_, fun e d v before hd hv => ?_⟩⟩
    · rw [timeReceive_of_first first, down]
      rfl
    · rw [timeReceive_of_second hk before, down]
      rfl
    · rw [timeReceive_of_first first, upstream]
      rfl
    · subst hd hv
      rw [timeReceive_of_second hk before, upstream]
      rfl
  · refine Runs.of_act (show _ = execBrlReplyReceive k s from rfl) (by rw [alive, decide_eq_true hk, beq_iff_eq.mpr up]; rfl) ?_
    obtain ⟨same, others, frame⟩ := s.setLink_frame hk fun l => { l with t4 := s.now }
    exact ⟨others, frame, same⟩
  · refine Runs.of_act (show _ = execRemoteWindowAccessIn k addr n data s from rfl) ?_ ?_
    · rw [alive, decide_eq_true hk, beq_iff_eq.mpr up, decide_eq_true ha, decide_eq_true hn]
      cases data with
      | none => rfl
      | some b => exact beq_iff_eq.mpr (hd b rfl)
    · obtain ⟨refused, written, read⟩ := inbound_eq k addr n s
      refine ⟨refused data, fun b ok v yes hb write => ?_, fun r v yes hn' read' => ?_⟩
      · subst hb
        exact written b ok v yes write
      · subst hn'
        exact read r v yes read'

end Sys2Proof.Machine
end

section
/-! PROOFS. Lead and follower, fault raises, software close and debug halts (R419, R493, R496, R497, R508, R511 to R513). -/
namespace Sys2Proof.Machine

/-! ### The lead's messages (R493) -/

/-- A message is sent on a link. -/
def leadSends (s : State) (k : Nat) (v : State) : State := State.emit v (.brlTime k { leadMsg s with t1 := s.now, t4 := (s.brLink k).t4 })

/-- Sending changes nothing that a message tells: what is sent on each link is of the state before the first. -/
theorem foldl_sendTime (l : List Nat) (s : State) (o : List Output) :
    l.foldl (fun v k => if (v.brLink k).state == 2 then sendTime (leadMsg v) k v else v) ({ s with out := o } : State) =
    (l.filter fun k => (s.brLink k).state == 2).foldl (fun v k => leadSends s k v) ({ s with out := o } : State) := by
  induction l generalizing o with
  | nil => rfl
  | cons k l ih =>
    rw [List.foldl_cons, List.filter_cons]
    have up : State.brLink ({ s with out := o } : State) k = s.brLink k := rfl
    rw [up]
    split
    · rw [List.foldl_cons]
      exact ih _
    · exact ih o

theorem timeSend_eq (s : State) : timeSend s =
    (([0, 1, 2, 3] : List Nat).filter fun k => (s.brLink k).state == 2).foldl (fun v k => leadSends s k v) s := foldl_sendTime [0, 1, 2, 3] s s.out

/-! ### Cube commands (R496, R497) -/

theorem perform_of_passed {q cid op : Nat} {sub : Sub} {body : Body} {s : State} (passed : checkCmd op q sub s = 0) (alone : onCube sub = false) :
    perform q cid op sub body s = body q cid sub s := by
  simp only [perform, passed, alone, Bool.false_eq_true, if_false]

/-- The command a follower runs is no cube command itself. -/
theorem onCube_cleared (sub : Sub) : onCube { sub with flags := putBit sub.flags 3 false } = false := by
  rw [onCube, getLsbD_putBit _ _ _ _ (by decide), if_pos rfl]

theorem cubeReceive_eq (op : Nat) (sub : Sub) (data : Option (List Byte)) (s : State) : cubeReceive op sub data s =
    perform cubeQp s.basut.nextCid op { sub with flags := putBit sub.flags 3 false }
      (bodyOf op cubeQp { sub with flags := putBit sub.flags 3 false } data) { s with basut := { s.basut with nextCid := s.basut.nextCid + 1 } } := rfl

theorem cubeComplete_of_none {reports : List CubeReport} {s : State} (none' : ∀ c ∈ s.brl.cmds, c.own = none) : cubeComplete reports s = s := by
  have absent : (s.brl.cmds.find? fun c => c.own.isSome) = none :=
    List.find?_eq_none.mpr fun c hc => by rw [none' c hc]; exact Bool.false_ne_true
  simp only [cubeComplete, absent]

/-- The oldest cube command whose own part is done completes once no present device is missing. -/
theorem cubeComplete_of_done {reports : List CubeReport} {s : State} {c : CubeCmd} (found : (s.brl.cmds.find? fun c => c.own.isSome) = some c) :
    cubeComplete reports s = (fun others => if c.devs.all fun d => d == s.cubeId || !s.brl.present.getLsbD d || others.any fun r => r.cubeId == d
      then cubeFinish c others s else s) (reports.filter fun r => r.cubeId != s.cubeId && c.devs.contains r.cubeId) := by
  simp only [cubeComplete, found]

/-- Settles O35: each row by the equation of its meaning where its guard holds. -/
theorem leadRows : Obligations.LeadRows := by
  intro s alive ready
  refine ⟨fun lead counting => ?_, fun op sub data v u follower fits hv hu => ?_, fun reports none' => ?_, fun reports c found => ?_⟩
  · exact Runs.of_act (show _ = execBrlTimeMessageSend s from rfl) (by rw [alive, ready, lead, counting]; rfl) (timeSend_eq s)
  · subst hv hu
    refine Runs.of_act (show _ = execCubeCommandReceive op sub data s from rfl) ?_ ?_
    · rw [alive, ready, follower, Bool.true_and, Bool.true_and, Bool.true_and]
      cases takes : takesData op.toNat with
      | false => rfl
      | true => exact fits takes
    · rw [cubeReceive_eq]
      exact ⟨fun failed => perform_of_failed failed, fun passed => perform_of_passed passed (onCube_cleared sub)⟩
  · exact Runs.of_act (show _ = execCubeCommandComplete reports s from rfl) (by rw [alive, ready]; rfl) (cubeComplete_of_none none')
  · refine Runs.of_act (show _ = execCubeCommandComplete reports s from rfl) (by rw [alive, ready]; rfl) ?_
    rw [cubeComplete_of_done found]
    refine ⟨_, rfl, fun all => if_pos ?_, fun d hd other here silent => if_neg ?_⟩
    · rw [List.all_eq_true]
      intro d hd
      rw [Bool.or_eq_true, Bool.or_eq_true, beq_iff_eq, Bool.not_eq_true', List.any_eq_true, or_assoc]
      exact (all d hd).imp_right (Or.imp_right fun ⟨r, hr, eq⟩ => ⟨r, hr, beq_iff_eq.mpr eq⟩)
    · rw [List.all_eq_true]
      intro all
      have done := all d hd
      rw [Bool.or_eq_true, Bool.or_eq_true, beq_iff_eq, Bool.not_eq_true', List.any_eq_true, or_assoc] at done
      obtain self | gone | ⟨r, hr, eq⟩ := done
      · exact other self
      · exact Bool.false_ne_true (gone.symm.trans here)
      · exact silent r hr (beq_iff_eq.mp eq)

/-! ### Software close (R512, R513) -/

theorem closeFault_of_quiet {id : Nat} {s : State} (quiet : (s.frec id).isOpen = false ∨ (s.frec id).cause = true) : (closeFault id s).2 = s := by
  unfold closeFault
  dsimp only
  cases isOpen : (s.frec id).isOpen with
  | false => rfl
  | true =>
    obtain h | h := quiet
    · rw [isOpen] at h
      cases h
    · rw [h]
      rfl

/-- A record with no standing cause closes, and no other record changes. -/
theorem closeFault_closes {id : Nat} {s : State} (cleared : (s.frec id).cause = false) :
    ((closeFault id s).2.frec id).isOpen = false ∧ ∀ j, j ≠ id → (closeFault id s).2.frec j = s.frec j := by
  cases isOpen : (s.frec id).isOpen with
  | false =>
    rw [closeFault_of_quiet (.inl isOpen)]
    exact ⟨isOpen, fun _ _ => rfl⟩
  | true =>
    have closed : (closeFault id s).2 = journal 1 id (s.frec id).sev (s.frec id).injected (s.frec id).merges s.now (s.frec id).last (s.frec id).unit
        (s.setRec id fun r => { r with isOpen := false }) := by
      unfold closeFault
      simp only [isOpen, cleared, Bool.not_true, Bool.false_eq_true, if_false]
    rw [closed]
    refine ⟨?_, fun j other => ?_⟩
    · rw [journal_frec, setRec_frec_same]
    · rw [journal_frec, setRec_frec_ne _ _ other]

/-- A write of FCU_SRC by a master that may: refused where its codeword cannot be read (R513). -/
theorem writeReg_src {m : Master} {id : Nat} {val : W32} {s v : State} {ok : Bool} (ready : s.ready Rdy.fcu = true) (writer : fcuWriter m = true)
    (hid : id < 4096) (written : sramWrite 0 (4 * id) s = (ok, v)) :
    (writeReg m (0x400000 + 4 * id) val none s).2 = if ok then srcWrite id val v else v := by
  have offset : 0x400000 + 4 * id - 0x400000 = 4 * id := Nat.add_sub_cancel_left ..
  have place : (0x400000 + 4 * id) % 0x100000 = 4 * id := by omega
  have inside : inRange (0x400000 + 4 * id) 0x400000 0x440000 = true := by
    rw [inRange, Bool.and_eq_true, decide_eq_true_eq, decide_eq_true_eq]
    omega
  have before : ∀ lo hi, hi ≤ 0x400000 → inRange (0x400000 + 4 * id) lo hi = false := fun lo hi h => by
    rw [inRange, Bool.and_eq_false_iff, decide_eq_false_iff_not, decide_eq_false_iff_not]
    omega
  have above : ∀ n, n ≤ 0x400000 → ¬ 0x400000 + 4 * id < n := fun n h => by omega
  have defined : regDefined (0x400000 + 4 * id) = true := by
    simp only [regDefined, before _ _ (show 0x3011C0 ≤ 0x400000 by decide), above _ (show 0x7000 ≤ 0x400000 by decide),
      above _ (show 0x10000 ≤ 0x400000 by decide), above _ (show 0x10818 ≤ 0x400000 by decide), inside, place, Bool.false_eq_true, if_false, if_true]
    rw [decide_eq_true (show 4 * id < 0x4004 by omega)]
    rfl
  have quarter : 4 * id / 4 = id := Nat.mul_div_cancel_left _ (by decide)
  have low : 4 * id < 0x4000 := by omega
  simp only [writeReg, defined, before _ _ (show 0x3011C0 ≤ 0x400000 by decide), before _ _ (show 0x201104 ≤ 0x400000 by decide),
    before _ _ (show 0x100030 ≤ 0x400000 by decide), above _ (show 0x7000 ≤ 0x400000 by decide), above _ (show 0x8000 ≤ 0x400000 by decide),
    above _ (show 0x10000 ≤ 0x400000 by decide), above _ (show 0x10818 ≤ 0x400000 by decide), inside, ready, writer, offset, written,
    Bool.not_true, Bool.false_eq_true, if_false, if_true]
  cases ok with
  | false => rfl
  | true => simp only [if_true, writeFcu, low, quarter]

/-! ### Debug halts (R419) -/

/-- Thawed timers resume counting in the next SEN cycle; their counts stay. -/
theorem foldl_thaw (l : List Nat) (s : State) :
    (l.foldl (fun s t => if s.frozen t then s else s.setTimer t fun x => { x with lastTick := s.senCycle }) s) =
      { s with sen := (l.foldl (fun s t => if s.frozen t then s else s.setTimer t fun x => { x with lastTick := s.senCycle }) s).sen } ∧
    (l.foldl (fun s t => if s.frozen t then s else s.setTimer t fun x => { x with lastTick := s.senCycle }) s).sen.debugHalt = s.sen.debugHalt ∧
    (∀ i, i ∉ l → (l.foldl (fun s t => if s.frozen t then s else s.setTimer t fun x => { x with lastTick := s.senCycle }) s).timer i = s.timer i) ∧
    (∀ i, ((l.foldl (fun s t => if s.frozen t then s else s.setTimer t fun x => { x with lastTick := s.senCycle }) s).timer i).cnt = (s.timer i).cnt) := by
  induction l generalizing s with
  | nil => exact ⟨rfl, rfl, fun _ _ => rfl, fun _ => rfl⟩
  | cons t l ih =>
    rw [List.foldl_cons]
    split
    · obtain ⟨frame, halts, others, counts⟩ := ih s
      exact ⟨frame, halts, fun i h => others i (fun hi => h (List.mem_cons_of_mem _ hi)), counts⟩
    · obtain ⟨frame, halts, others, counts⟩ := ih (s.setTimer t fun x => { x with lastTick := s.senCycle })
      obtain ⟨same, ne, -⟩ := s.setTimer_frame t fun x => { x with lastTick := s.senCycle }
      refine ⟨frame, halts, fun i h => ?_, fun i => (counts i).trans ?_⟩
      · exact (others i fun hi => h (List.mem_cons_of_mem _ hi)).trans (ne i fun eq => h (eq ▸ List.mem_cons_self))
      · by_cases eq : i = t
        · rw [eq, same]
        · rw [ne i eq]

/-- Settles O36: each row by the equation of its meaning where its guard holds. -/
theorem faultRows : Obligations.FaultRows := by
  intro s alive
  refine ⟨fun id info unit running impl => ?_, fun m id val ok v ready hm hid written => ?_, fun core => ?_, fun core => ?_⟩
  · refine Runs.of_act (show _ = execFaultRaise id info unit s from rfl) (by rw [alive, running, impl]; rfl) ⟨raiseFault_deep .., fun closed => ?_⟩
    rw [raiseFault_opens info unit running impl closed]
    exact ⟨rfl, rfl, raiseFault_enters_safe info unit running impl⟩
  · have writer : fcuWriter m = true := by obtain rfl | rfl := hm <;> rfl
    refine Runs.of_act (show _ = execFcuSrcOpenWrite m id val s from rfl) (by rw [alive, ready, writer, decide_eq_true hid]; rfl) ?_
    rw [writeReg_src ready writer hid written]
    cases ok with
    | false => exact ⟨fun _ => rfl, fun _ => rfl, fun _ => rfl, fun _ => rfl, nofun⟩
    | true =>
      rw [if_pos rfl, srcWrite]
      cases val.getLsbD 15 with
      | false => exact ⟨nofun, fun _ => rfl, fun _ => rfl, fun _ => rfl, nofun⟩
      | true => exact ⟨nofun, nofun, fun closed => closeFault_of_quiet (.inl closed), fun cause => closeFault_of_quiet (.inr cause),
          fun _ _ => closeFault_closes⟩
  · exact Runs.of_act (show _ = execDebugHalt core s from rfl) alive rfl
  · refine Runs.of_act (show _ = execDebugHaltRelease core s from rfl) alive ?_
    obtain ⟨frame, halts, others, counts⟩ := foldl_thaw ((s.sen.timers.map (·.1)).filter s.frozen)
      (s.modSen fun n => { n with debugHalt := setDel n.debugHalt (debugNum core) })
    refine ⟨halts, frame, fun i running => others i fun hi => ?_, counts⟩
    exact Bool.false_ne_true (running.symm.trans (List.of_mem_filter hi))

end Sys2Proof.Machine
end

section
/-! PROOFS. Health monitors, self-tests and spares (R525 to R537, R544). -/
namespace Sys2Proof.Machine

/-! ### Monitor samples (R526) -/

/-- The state a sample is counted in: time has come to it, the readings stand, and one more ten minutes are counted. -/
def sampledState (deltas : List Nat) (s : State) : State :=
  (fun r : W64 × State => (fun hot : Bool => (r.2.modHealth fun h => { h with deltas := deltas, sampled := r.2.time.mono }).modEm fun m =>
    { m with tens := m.tens + 1, hotTens := if hot then (m.hotTens + 1) % 6 else m.hotTens
             hotHours := if hot && m.hotTens == 5 then m.hotHours + 1 else m.hotHours })
    (decide (1 ≤ r.2.pins.tjBand) || r.1.getLsbD 0)) (s.bringTo (9600000000000 + s.health.sampled)).draw

/-- The state a sample's operating hour ends in, before its life is checked. -/
def hourCounted (s : State) : State :=
  ((s.modHealth fun h => { h with
    hourLsp := (List.range 16).map fun n => (n, (lspCorrected s n - tabGet s.health.corrected (2 * n) 0).toNat)
    hourCsm := (List.range 16).map fun n => (n, (csmCorrected s n - tabGet s.health.corrected (2 * n + 1) 0).toNat)
    corrected := (List.range 32).map fun k => (k, if k % 2 == 0 then lspCorrected s (k / 2) else csmCorrected s (k / 2)) }).modEm
    fun m => { m with hours := m.hours + 1, tens := 0 }).modLgs fun l => { l with hourMarks := ((l.bytesIn, l.bytesOut) :: l.hourMarks).take 168 }

section
variable (deltas : List Nat) (s : State)

theorem hourEnds_eq : hourEnds s = lifeCheck (hourCounted s) := rfl
theorem hourCounted_em : (hourCounted s).em = { s.em with hours := s.em.hours + 1, tens := 0 } := rfl
theorem hourCounted_deltas : (hourCounted s).health.deltas = s.health.deltas := rfl

theorem sampledState_deltas : (sampledState deltas s).health.deltas = deltas := rfl
theorem sampledState_sampled : (sampledState deltas s).health.sampled = (sampledState deltas s).time.mono := rfl
theorem sampledState_time : (sampledState deltas s).time = (s.bringTo (9600000000000 + s.health.sampled)).time := rfl
theorem State.bringTo_em (m : Nat) : (s.bringTo m).em = s.em := rfl
theorem sampledState_tens : (sampledState deltas s).em.tens = s.em.tens + 1 := by
  simp only [sampledState, State.modEm_em, State.modHealth_em, State.draw_em, State.bringTo_em]
theorem sampledState_hours : (sampledState deltas s).em.hours = s.em.hours := by
  simp only [sampledState, State.modEm_em, State.modHealth_em, State.draw_em, State.bringTo_em]

/-- The ageing limit is checked last. -/
def ageChecked (s : State) : State := setCause Src.healthAging (8000 ≤ lifeUsed (maxDelta s)) 0 s

theorem healthSample_eq : healthSample deltas s = ageChecked (if (sampledState deltas s).em.tens == 6 then hourEnds (sampledState deltas s) else sampledState deltas s) := rfl

end

/-! ### Self-tests and spares (R533, R536, R537) -/

theorem selfTested_of_pass (q : SpareSeq) (s : State) : selfTested q true s =
    { s with health := { s.health with seqs := s.health.seqs.map fun x => if x = q then { x with step := .tested } else x } } := by
  simp only [selfTested, if_true, beq_iff_eq]
  rfl

theorem selfTested_of_fail (q : SpareSeq) (s : State) :
    selfTested q false s = finishSeq q (if q.reinst then Stat.busy else Stat.exhausted) 0 (endSeq q true s) := rfl

/-- The other pair takes over from one that mismatches. -/
def takeOther (s : State) : State :=
  ((markOut 3 s.em.pbxPair true s).modEm fun m => { m with pbxPair := 1 - m.pbxPair }).modHealth fun h => { h with pbxShadow := false }

theorem pbxMismatch_of_spare {s : State} (spare : s.pbxSpare = true) : pbxMismatch s = takeOther (raiseFault Src.pbxLockstep 0 unitNone s) :=
  if_pos spare

theorem pbxMismatch_of_none {s : State} (spare : s.pbxSpare = false) : pbxMismatch s = askWarm 5 (raiseFault Src.pbxLockstep 0 unitNone s) :=
  if_neg (by rw [spare]; exact Bool.false_ne_true)

theorem oscEnd_of_bit {agree b : Bool} {s : State} (comparing : s.health.oscCompare = some b) : oscEnd agree s =
    (seqTesting s 4 (bit b)).elim s fun q => selfTested q agree (s.modHealth fun h => { h with oscAgreed := agree }) := by
  simp only [oscEnd, comparing, Option.bind_some]
  cases seqTesting s 4 (bit b) <;> rfl

/-- Settles O37: each row by the equation of its meaning where its guard holds. -/
theorem healthRows : Obligations.HealthRows := by
  intro s alive
  refine ⟨fun deltas up len => ?_, fun up => ?_, fun k lane m up hk hl => ?_, fun cls i pass clear low => ?_, ?_, fun agree b comparing => ?_⟩
  · refine Runs.of_act (show _ = execHealthMonitorSample deltas s from rfl) (by rw [up, beq_iff_eq.mpr len]; rfl) ?_
    rw [healthSample_eq]
    have tens := sampledState_tens deltas s
    refine ⟨sampledState deltas s, sampledState_deltas .., sampledState_sampled .., ?_, tens, sampledState_hours .., fun inside => ?_, fun ends => ?_⟩
    · rw [sampledState_time]
      exact State.mono_bringTo ..
    · have inHour : ((sampledState deltas s).em.tens == 6) ≠ true := by rw [tens, ne_eq, beq_iff_eq]; omega
      rw [if_neg inHour, ageChecked]
    · have sixth : ((sampledState deltas s).em.tens == 6) = true := by rw [tens, ends]; rfl
      refine ⟨hourCounted (sampledState deltas s), _, ?_, ?_, ?_, rfl, ?_⟩
      · rw [hourCounted_em, sampledState_hours]
      · rw [hourCounted_em]
      · rw [hourCounted_deltas, sampledState_deltas]
      · rw [if_pos sixth, hourEnds_eq, ageChecked]
  · exact Runs.of_act (show _ = execCeRateCheck s from rfl) up rfl
  · refine Runs.of_act (show _ = execEyeMarginCheck k lane m s from rfl) (by rw [up, decide_eq_true hk, decide_eq_true hl]; rfl) ?_
    refine ⟨fun first => ?_, fun f found good => ?_, fun f found low => ?_⟩
    · simp only [eyeMargin, first]
      rfl
    · simp only [eyeMargin, found, if_neg (Nat.not_lt.mpr good)]
    · simp only [eyeMargin, found, if_pos low]
  · refine Runs.of_act (show _ = execUnitSelfTestComplete cls i pass s from rfl) (by rw [alive, clear, decide_eq_true low]; rfl) ?_
    refine ⟨fun none' => by simp only [none'], fun q found => ⟨?_, ?_⟩⟩
    · rintro rfl
      simp only [found, selfTested_of_pass]
    · rintro rfl
      simp only [found, selfTested_of_fail]
  · refine Runs.of_act (show _ = execPbxLockstepMismatch s from rfl) alive ⟨_, rfl, fun spare => ?_, fun spare => ?_⟩
    · rw [pbxMismatch_of_spare spare]
      exact ⟨rfl, rfl, mem_setAdd .., rfl⟩
    · rw [pbxMismatch_of_none spare]
      refine ⟨rfl, fun free => ?_⟩
      simp only [askWarm, State.modBoot_boot, free, Option.isSome_none, Bool.false_eq_true, if_false]
  · refine Runs.of_act (show _ = execOscCompareEnd agree s from rfl) (by rw [alive, comparing]; rfl) ?_
    rw [oscEnd_of_bit comparing]
    exact ⟨fun none' => by rw [none']; rfl, fun q found => by rw [found]; rfl⟩

end Sys2Proof.Machine
end

section
/-! PROOFS. Register writes (R1, R4, R71, R76, R77). -/
namespace Sys2Proof.Machine

/-! ### Where a write arrives -/

section
variable {m : Master} {off : Nat} {val : W32} {s : State}

/-- A master inside the device that has the register file of its own: the pegbox, an engine or a course's DMA. -/
def isInside : Master → Bool
  | .pegbox | .engine _ _ | .courseDma _ => true
  | _ => false

theorem regArrives_of_inside (own : isInside m = true) : regArrives (.bar0 m) s = s.alive :=
  match m, own with
  | .pegbox, _ => rfl
  | .engine _ _, _ => rfl
  | .courseDma _, _ => rfl

theorem regWrite_of_inside (own : isInside m = true) :
    regWrite (.bar0 m) off val s = if off % 4 == 0 then (regWr m off val none s).2 else s :=
  match m, own with
  | .pegbox, _ => rfl
  | .engine _ _, _ => rfl
  | .courseDma _, _ => rfl

theorem regWr_of_ok {v : W32} {w : State} (wr : writeReg m off val none s = (.ok v, w)) : (regWr m off val none s).2 = w := by
  rw [regWr, wr]

theorem regWr_of_err {w : State} (wr : writeReg m off val none s = (.err, w)) : (regWr m off val none s).2 = w := by
  rw [regWr, wr]

theorem regWr_of_decode {w : State} (wr : writeReg m off val none s = (.decode, w)) :
    (regWr m off val none s).2 = decodeError true m (0x3000000000 + off) w := by
  rw [regWr, wr]
  rfl

/-- A write of a register from inside the device, by the answer of the register file. -/
theorem runs_of_inside (alive : s.alive = true) (own : isInside m = true) : Runs (.registerWrite (.bar0 m) off val) s fun t =>
    (off % 4 ≠ 0 → t = s) ∧
    (∀ v w, off % 4 = 0 → writeReg m off val none s = (.ok v, w) → t = w) ∧
    (∀ w, off % 4 = 0 → writeReg m off val none s = (.err, w) → t = w) ∧
    (∀ w, off % 4 = 0 → writeReg m off val none s = (.decode, w) → t = decodeError true m (0x3000000000 + off) w) := by
  refine Runs.of_act (show _ = execRegisterWrite (.bar0 m) off val s from rfl) ((regArrives_of_inside own).trans alive) ?_
  rw [regWrite_of_inside own]
  refine ⟨fun crooked => if_neg (mt beq_iff_eq.mp crooked), fun v w even wr => ?_, fun w even wr => ?_, fun w even wr => ?_⟩
  · rw [if_pos (beq_iff_eq.mpr even), regWr_of_ok wr]
  · rw [if_pos (beq_iff_eq.mpr even), regWr_of_err wr]
  · rw [if_pos (beq_iff_eq.mpr even), regWr_of_decode wr]

end

/-! ### A host's write of one word (R4, R78, R79) -/

section
variable {v off : Nat} {val : W32} {s : State}

theorem pcieWrite_of_miss {bar : Nat} (miss : s.barHit v bar off 4 = false) :
    pcieWrite v bar off (leBytes 4 val.toNat) s = tlpError .unsupportedRequest s :=
  if_pos (show (!s.barHit v bar off 4) = true by rw [miss]; rfl)

theorem pcieWrite_of_crooked (hit : s.barHit v 0 off 4 = true) (crooked : off % 4 ≠ 0) :
    pcieWrite v 0 off (leBytes 4 val.toNat) s = hostAbort v true (bar0Addr v off) s := by
  have four : (leBytes 4 val.toNat).length = 4 := rfl
  simp [pcieWrite, four, hit, crooked]

end

/-! ### Configuration registers (R71, R76, R102, R105) -/

section
variable {n v bar : Nat} {val : W32} {s : State}

theorem setNumVfs_of_free (some' : 0 < n) (fits : n ≤ 7 ∨ n ≤ 63 ∧ s.link.ari = true) (free : s.link.numVfs = 0) :
    setNumVfs n s = { s with link := { s.link with numVfs := n } } := by
  have limit : n ≤ vfLimit s := by
    rw [vfLimit]
    split
    · omega
    · next off => exact fits.elim id fun h => absurd h.2 off
  rw [setNumVfs, if_neg (by rw [beq_iff_eq]; omega), if_pos (by rw [free, decide_eq_true limit]; rfl)]
  rfl

theorem setNumVfs_of_refused (some' : 0 < n) (refused : 64 ≤ n ∨ 8 ≤ n ∧ s.link.ari = false ∨ s.link.numVfs ≠ 0) : setNumVfs n s = s := by
  rw [setNumVfs, if_neg (by rw [beq_iff_eq]; omega)]
  refine if_neg fun taken => ?_
  rw [Bool.and_eq_true, beq_iff_eq, decide_eq_true_iff, vfLimit] at taken
  obtain ⟨free, limit⟩ := taken
  rcases refused with many | ⟨many, plain⟩ | used
  · split at limit <;> omega
  · rw [plain, if_neg Bool.false_ne_true] at limit
    omega
  · exact used free

/-- The errors a write of a status register clears. -/
theorem mem_clearAer (uncor : Bool) (e : TlpError) : e ∈ (clearAer uncor val s).link.aer ↔
    e ∈ s.link.aer ∧ ¬((aerBit e).1 = uncor ∧ val.getLsbD (aerBit e).2 = true) := by
  simp only [clearAer, State.modLink_link, List.mem_filter, Bool.not_eq_true', Bool.and_eq_false_iff, beq_eq_false_iff_ne, not_and_or,
    Bool.not_eq_true, ne_eq]

theorem clearAer_hdrLog {uncor : Bool} {e : TlpError} {a b : W64} (logged : s.link.hdrLog = some (e, a, b)) :
    (clearAer uncor val s).link.hdrLog = if (aerBit e).1 = uncor ∧ val.getLsbD (aerBit e).2 = true then none else some (e, a, b) := by
  simp only [clearAer, State.modLink_link, logged, Bool.and_eq_true, beq_iff_eq]

theorem writeBar_of_none (none' : barSize v (bar / 2 * 2) = 0) : writeBar v bar val s = s := if_pos (beq_iff_eq.mpr none')

/-- A BAR keeps the base that is written, rounded down to a multiple of its size. -/
theorem writeBar_of_size (sized : barSize v (bar / 2 * 2) ≠ 0) : writeBar v bar val s = (fun x : W64 =>
    s.modLink fun l => { l with bars := tabSet l.bars (8 * v + bar / 2 * 2) (w64 (x.toNat / barSize v (bar / 2 * 2) * barSize v (bar / 2 * 2))) })
      (if bar % 2 = 1 then setHi (tabGet s.link.bars (8 * v + bar / 2 * 2) 0) val else setLo (tabGet s.link.bars (8 * v + bar / 2 * 2) 0) val) := by
  simp only [writeBar, beq_iff_eq, sized, if_false]

theorem toNat_roundDown (x : W64) (size : Nat) : (w64 (x.toNat / size * size)).toNat = x.toNat / size * size :=
  Nat.mod_eq_of_lt ((Nat.div_mul_le_self _ _).trans_lt x.isLt)

theorem writeDevCtl2_fn : (writeDevCtl2 v val s).fn v = { s.fn v with
    ctoRange := if val.toNat % 16 ∈ [0, 1, 2, 5, 6] then val.toNat % 16 else (s.fn v).ctoRange, ctoOff := val.getLsbD 4, tags10 := val.getLsbD 12 } := by
  have field : bitsAt val.toNat 0 4 = val.toNat % 16 := by rw [bitsAt, Nat.pow_zero, Nat.div_one]; rfl
  simp only [writeDevCtl2, State.fn_setFn_same, field, List.contains_iff_mem]

end

/-- Settles O38: each write by the equation of its meaning where it arrives. -/
theorem registerWriteRows : Obligations.RegisterWriteRows := by
  intro s off val alive
  refine ⟨?_, fun k => ?_, fun up => ?_, fun v on => ?_⟩
  · rintro m (rfl | ⟨n, p, rfl⟩ | ⟨n, rfl⟩)
    · exact runs_of_inside alive rfl
    · exact runs_of_inside alive rfl
    · exact runs_of_inside alive rfl
  · exact Runs.of_act (show _ = execRegisterWrite (.bar0 (.link k)) off val s from rfl) alive rfl
  · have arrives : (s.alive && s.link.up) = true := by rw [alive, up]; rfl
    refine ⟨?_, fun v => ?_, fun v bar miss => pcieWrite_of_miss miss, fun v hit even => pcieWrite_of_word hit even,
      fun v hit crooked => pcieWrite_of_crooked hit crooked, ?_, ?_, fun n some' fits free => ?_, fun n some' refused => ?_, ?_, ?_,
      fun uncor => ?_, fun v bar none' => ?_, ?_⟩
    · exact Runs.of_act (show _ = execRegisterWrite (.bar0 .pf) off val s from rfl) arrives rfl
    · exact Runs.of_act (show _ = execRegisterWrite (.bar0 (.vf v)) off val s from rfl) arrives rfl
    · exact Runs.of_act (show _ = execRegisterWrite .cfgPtmEnable off val s from rfl) arrives rfl
    · exact Runs.of_act (show _ = execRegisterWrite (.cfgVfs 0) off val s from rfl) arrives rfl
    · exact Runs.of_act (show _ = execRegisterWrite (.cfgVfs n) off val s from rfl) arrives (setNumVfs_of_free some' fits free)
    · exact Runs.of_act (show _ = execRegisterWrite (.cfgVfs n) off val s from rfl) arrives (setNumVfs_of_refused some' refused)
    · exact Runs.of_act (show _ = execRegisterWrite .cfgAri off val s from rfl) arrives rfl
    · exact Runs.of_act (show _ = execRegisterWrite .cfgAerCtl off val s from rfl) arrives rfl
    · have clears : regWrite (if uncor then .cfgAerUncor else .cfgAerCor) off val s = clearAer uncor val s := by cases uncor <;> rfl
      refine Runs.of_act (show _ = execRegisterWrite (if uncor then .cfgAerUncor else .cfgAerCor) off val s from rfl)
        (by cases uncor <;> exact arrives) ?_
      rw [clears]
      exact ⟨rfl, fun e => mem_clearAer uncor e, fun e a b logged => clearAer_hdrLog logged⟩
    · exact Runs.of_act (show _ = execRegisterWrite (.cfgBar v bar) off val s from rfl) arrives (writeBar_of_none none')
    · rintro v bar key x sized rfl rfl
      refine Runs.of_act (show _ = execRegisterWrite (.cfgBar v bar) off val s from rfl) arrives ?_
      rw [show regWrite (.cfgBar v bar) off val s = writeBar v bar val s from rfl, writeBar_of_size sized]
      refine ⟨rfl, ?_, fun j other => tabFind_tabSet_ne _ _ other⟩
      rw [State.modLink_link, tabGet_tabSet_same, toNat_roundDown]
  · refine ⟨?_, ?_, ?_, ?_, ?_⟩
    · exact Runs.of_act (show _ = execRegisterWrite (.cfgMsixEnable v) off val s from rfl) on rfl
    · exact Runs.of_act (show _ = execRegisterWrite (.cfgMsixFnMask v) off val s from rfl) on rfl
    · exact Runs.of_act (show _ = execRegisterWrite (.cfgPowerD0 v) off val s from rfl) on rfl
    · exact Runs.of_act (show _ = execRegisterWrite (.cfgDevCtl v) off val s from rfl) on
        ⟨fun j other => State.fn_setFn_ne _ _ other, rfl, State.fn_setFn_same ..⟩
    · refine Runs.of_act (show _ = execRegisterWrite (.cfgDevCtl2 v) off val s from rfl) on ?_
      rw [show regWrite (.cfgDevCtl2 v) off val s = writeDevCtl2 v val s from rfl, writeDevCtl2_fn]
      exact ⟨fun j other => State.fn_setFn_ne _ _ other, rfl, rfl, rfl, fun known => if_pos known, fun reserved => if_neg reserved⟩

end Sys2Proof.Machine
end
